-- ==== Sys2Proof/Word.lean ====
section
/-!
DEFINITION. The words of the LX8 (R8, R10): bytes, 32-bit words, point handles, tile numbers.
-/

namespace Sys2Proof

/-- A byte. -/
abbrev Byte := BitVec 8

/-- A 32-bit value: a point value, an index, a raw Q16.16 or binary32 pattern. -/
abbrev Word := BitVec 32

/-- A point handle (R24). -/
abbrev Handle := BitVec 32

/-- A tile of the own package, 0 to 7 (R6). -/
abbrev TileId := BitVec 3

end Sys2Proof
end

