-- ==== Sys2Proof/Machine/Bytes.lean ====
section
/-!
DEFINITION. Bytes and bit fields: little-endian fields (R8), signed readings, saturation.
-/

namespace Sys2Proof.Machine

/-- The `n` little-endian bytes of `v` (R8). -/
def le : Nat → Nat → List Byte
  | 0, _ => []
  | n + 1, v => BitVec.ofNat 8 (v % 256) :: le n (v / 256)

/-- The number that little-endian bytes spell (R8). -/
def leNat : List Byte → Nat
  | [] => 0
  | b :: r => b.toNat + 256 * leNat r

/-- `len` bytes of `bs` from `off` on; bytes past the end are absent. -/
def slice (bs : List Byte) (off len : Nat) : List Byte := (bs.drop off).take len

/-- The little-endian number of `len` bytes at `off`. -/
def leAt (bs : List Byte) (off len : Nat) : Nat := leNat (slice bs off len)

/-- `n` zero bytes. -/
def zeros (n : Nat) : List Byte := List.replicate n 0

/-- `bs` with `new` written from `off` on, extended with zeros where needed (R234). -/
def patch (bs : List Byte) (off : Nat) (new : List Byte) : List Byte :=
  let base := bs ++ zeros (off - bs.length)
  base.take off ++ new ++ base.drop (off + new.length)

/-- Bits [hi:lo] of a record, as a number. -/
def bits {w : Nat} (r : BitVec w) (hi lo : Nat) : Nat := (r.extractLsb' lo (hi + 1 - lo)).toNat

/-- One bit of a record. -/
def bit {w : Nat} (r : BitVec w) (i : Nat) : Bool := r.getLsbD i

/-- A record with bits [hi:lo] set to `v`. -/
def setBits {w : Nat} (r : BitVec w) (hi lo v : Nat) : BitVec w :=
  let m := BitVec.ofNat w (2 ^ (hi + 1 - lo) - 1) <<< lo
  (r &&& ~~~m) ||| ((BitVec.ofNat w v <<< lo) &&& m)

/-- The signed reading of a `w`-bit number. -/
def sgn (w v : Nat) : Int := (BitVec.ofNat w v).toInt

/-- A 32-bit word from an integer, modulo 2^32. -/
def wordOf (i : Int) : Word := BitVec.ofInt 32 i

/-- A word plus one, saturating at 0xFFFF_FFFF. -/
def incSat (w : Word) : Word := if w = 0xFFFFFFFF#32 then w else w + 1

/-- `n` limited to the unsigned range of `w` bits. -/
def satNat (w n : Nat) : Nat := if n < 2 ^ w then n else 2 ^ w - 1

/-- `i` limited to the signed 32-bit range. -/
def sat32 (i : Int) : Int := if i > 2147483647 then 2147483647 else if i < -2147483648 then -2147483648 else i

/-- `i` limited to `lo` and `hi`. -/
def clampInt (lo hi i : Int) : Int := if i > hi then hi else if i < lo then lo else i

/-- Division rounded to nearest, halves away from zero, `d > 0` (R242). -/
def divRound (n : Int) (d : Nat) : Int :=
  if n ≥ 0 then (n + (d / 2 : Nat)) / (d : Int) else -((-n + (d / 2 : Nat)) / (d : Int))

/-- The bytes of a record. -/
def recBytes {w : Nat} (r : BitVec w) : List Byte := le (w / 8) r.toNat

/-- A record of `w` bits from its bytes. -/
def recOf (w : Nat) (bs : List Byte) : BitVec w := BitVec.ofNat w (leNat bs)

/-- Bit `i` as a number. -/
def b2n (b : Bool) : Nat := if b then 1 else 0

end Sys2Proof.Machine
end

