-- ==== Sys2Proof/Machine/Memory.lean ====
section
/-!
DEFINITION. Windows of the host port held as memory (R84, R90): (address, byte) pairs in one canonical form, in which an
unlisted address reads as 0.
-/

namespace Sys2Proof.Machine

/-- The addresses rise strictly from above `lo`, and no entry holds the 0 that an unlisted address reads as. -/
def Memory.wfFrom : Nat → List Host.Cell → Bool
  | _, [] => true
  | lo, (a, b) :: r => lo ≤ a && b != 0 && Memory.wfFrom (a + 1) r

/-- The canonical form of a memory. -/
def Memory.wf (m : List Host.Cell) : Bool := Memory.wfFrom 0 m

/-- The byte at an address. -/
def memGet : List Host.Cell → Nat → Byte
  | [], _ => 0
  | (a, b) :: r, i => if a = i then b else memGet r i

/-- The byte at an address written: a 0 removes the entry. -/
def memSet : List Host.Cell → Nat → Byte → List Host.Cell
  | [], i, v => if v = 0 then [] else [(i, v)]
  | (a, b) :: r, i, v =>
    if i < a then (if v = 0 then (a, b) :: r else (i, v) :: (a, b) :: r)
    else if i = a then (if v = 0 then r else (i, v) :: r)
    else (a, b) :: memSet r i v

/-- Bytes written from index `i` of a byte ring of 65,536 bytes (R82, R90). -/
def ringPut (m : List Host.Cell) (i : Nat) : List Byte → List Host.Cell
  | [] => m
  | b :: r => ringPut (memSet m (i % 65536) b) (i + 1) r

/-- `n` bytes from index `i` of a byte ring of 65,536 bytes. -/
def ringGet (m : List Host.Cell) (i n : Nat) : List Byte := (List.range n).map (fun k => memGet m ((i + k) % 65536))

/-- Bytes written from address `i` on. -/
def memPut (m : List Host.Cell) (i : Nat) : List Byte → List Host.Cell
  | [] => m
  | b :: r => memPut (memSet m i b) (i + 1) r

/-- A memory that holds exactly these bytes from address 0 on. -/
def memOf (bs : List Byte) : List Host.Cell := memPut [] 0 bs

end Sys2Proof.Machine
end

