-- ==== Sys2Proof/Syntax.lean ====
section
/-!
DEFINITION. The steps of one LX8 package: one constructor per row of spec/opcode_table.json, with the operands the
spec's payload tables (R116 to R129) or the event itself give the row. Reserved payload fields are operands too,
because R9 makes the LX8 look at them.
-/

namespace Sys2Proof

/-- Who issued a command: a host port tag, a service port tag (R108), a machine action of the tile (R252), or the
near package across the tether, with the number its request carries (R411, R450). A tag carries the number of unplanned
losses of its port (R21, R451) at its taking: a completion of an earlier number is discarded. -/
inductive Source where
  | host (tag : BitVec 16) (era : Nat := 0)
  | service (tag : BitVec 16) (era : Nat := 0)
  | machine (tile machine : Nat)
  | far (id : Nat)
  deriving DecidableEq, Repr

/-- The context of a command: its source, header TILE and CLASS (R97), the epoch of the port policy it was
checked under (R472), and its ORDERED flag (R103). -/
structure Ctx where
  src : Source
  tile : BitVec 4
  cls : BitVec 2
  epoch : BitVec 16 := 1
  ordered : Bool := false
  deriving DecidableEq, Repr

/-- The two RS-485 ports (R426). -/
inductive RsPort where
  | bus0 | bus1
  deriving DecidableEq, Repr

/-- The three building bus ports (R126). -/
inductive BusPort where
  | rs (p : RsPort)
  | t1s
  deriving DecidableEq, Repr

/-- The ports that a policy governs, in the order of POLICY_LOAD (R127, R469). -/
inductive PolicyPort where
  | host | service | bus0 | bus1 | t1s | tether
  deriving DecidableEq, Repr

/-- What an internal fabric request is for: an input of a rate group (R60), a permit term (R265), a ring source
(R390), an access of a Modbus server or client (R437, R439), a resync read (R425), one probe of FABRIC_PROBE (R132),
a point of the predictor of a tile on the other package (R273), the supply point of a fan unit (R345), advice (R290), or a request of the other package that came
over the tether (R414), with whether it measures the die temperatures that it reads (R370). -/
inductive Purpose where
  | groupInput (tile group : Nat)
  | permitCopy
  | ringSource (tile ring : Nat)
  | server (p : RsPort)
  | client (p : RsPort) (item : Nat)
  | resync
  | probe (tile : Nat)
  | predictor (tile : Nat)
  | fanSupply (tile unit : Nat)
  | advice
  | far (id : Nat) (die : Bool := false)
  deriving DecidableEq, Repr

/-- What a fabric request does at its target: read a point, write a point, answer a probe, carry advice (R290), carry
a command of the near package to a tile of this far package (R411), as its opcode and
payload, or erase the pairing key of the far end (R417). -/
inductive FabricOp where
  | read (h : Handle)
  | write (h : Handle) (v : Word)
  | probe
  | advice (msg : BitVec 224)
  | command (cls : BitVec 2) (opcode : Byte) (payload : List Byte)
  | unpair
  deriving DecidableEq, Repr

/-- A request in the fabric (R46): number at its source, source tile, target tile, priority class, the incarnation
of its target that it carries (0 makes no check), purpose and operation. -/
structure FabricReq where
  id : Nat
  origin : Nat
  tile : BitVec 4
  cls : BitVec 2
  inc : Byte
  purpose : Purpose
  op : FabricOp
  deriving DecidableEq, Repr

/-- What comes back over the tether for a request: a status code, a reply payload and the tile that produced them (R97, R101,
R113). -/
structure FabReply where
  status : Byte
  payload : List Byte
  tile : BitVec 4 := 0
  deriving DecidableEq, Repr

/-- What follows the source station in an MS/TP frame as it arrives (R429): header CRC-8, data and, where it has data, data
CRC-16. -/
structure MstpRest where
  headerCrc : Byte
  data : List Byte := []
  dataCrc : BitVec 16 := 0
  deriving DecidableEq, Repr

/-- An MS/TP frame as it arrives (R429): frame type, destination, source, and the rest. -/
structure MstpFrame extends MstpRest where
  ftype : Byte
  dst : Byte
  src : Byte
  deriving DecidableEq, Repr

/-- A received tether frame (R414): whether its delimiter and length are sound, CLASS, the low 32 bits of the sender's counter,
the payload and the 8-byte tag. TYPE is the row's own. -/
structure TFrame where
  sound : Bool
  cls : BitVec 2
  seq : Word
  payload : List Byte
  tag : List Byte
  deriving DecidableEq, Repr

/-- The samples of one sequence entry (R169, R175): the sum of the trimmed 14-bit codes with whether any sample
stood at code 0 and at code 16,383, or one steady source value in millionths of its unit (V, A or ohm), which the
ideal front end of R169 turns into codes; then the pin voltage of the protection path in mV (R141, R179) and whether
the isolation switch was open at any sample (R144). -/
inductive ConvInput where
  | codes (sum : Nat) (anyZero anyTop : Bool) (pins : List (Nat × Int)) (isolated : Bool)
  | steady (micro : Int) (vrefUv : Nat) (pinMv : Int) (isolated : Bool)
  deriving DecidableEq, Repr

/-- A span of time over which the pin voltage in mV and the drive current in µA (positive out of the pin) of a channel
were steady. -/
structure Span where
  ticks : Nat
  mv : Int
  ua : Int
  deriving DecidableEq, Repr

/-- What the protection path of one channel measured over the last millisecond (R146, R152): its spans, oldest first. A
channel that is not listed carried no current at 0 V. -/
structure Meas where
  tile : Nat
  ch : Nat
  spans : List Span
  deriving DecidableEq, Repr

/-- The instructions of a TAP (R528). -/
inductive TapInstr where
  | bypass | idcode | samplePreload | extest | clamp | highz
  deriving DecidableEq, Repr

/-- The wake sources of darkroom, in the order of their codes 1 to 4 (R378). -/
inductive WakeSource where
  | rtc | key | tether | hostCs
  deriving DecidableEq, Repr

/-- One step of the part: a command performed at its target tile, a host port transaction, or an event. -/
inductive Instr where
  /-- NOP (R116). Command that does nothing and completes OK. -/
  | nop (c : Ctx)
  /-- IDENTIFY (R116). Command that returns the identity record of the target tile. -/
  | identify (c : Ctx)
  /-- TILE_STATE (R117). Command that reports a tile's state, takes it offline, or restarts it. -/
  | tileState (c : Ctx) (action ei : Byte) (rsv : BitVec 16)
  /-- LEAD_HANDOVER (R20). Command that moves the lead role to the other tile of the pair; the old lead stops taking submissions and starts the handover waits. -/
  | leadHandover (c : Ctx)
  /-- HEALTH (R116). Command that returns the health record of the target tile. -/
  | health (c : Ctx)
  /-- TIME_SET (R118). Command that sets the real-time clock of every tile of the package and re-evaluates the calendars. -/
  | timeSet (c : Ctx) (secs : Word)
  /-- GOVERNOR (R72). Command that sets or reports the voltage ceiling, voltage floor and slack floor of a tile. -/
  | governor (c : Ctx) (ceil floor slack : BitVec 16) (flags rsv : Byte)
  /-- SAFELIGHT_LOAD (R160). Command that writes safelight entries to flash; a channel in Safelight takes its new entry. -/
  | safelightLoad (c : Ctx) (first count : Byte) (rsv : BitVec 16) (entries : List (BitVec 128))
  /-- PERMIT_CONFIG (R375). Command that enables or disables a permit output and binds its predicate, stored in flash. -/
  | permitConfig (c : Ctx) (permit enable : Byte) (pred : BitVec 16)
  /-- POINT_READ (R27). Command that returns the record of one point. -/
  | pointRead (c : Ctx) (h : Handle)
  /-- POINT_WRITE (R31). Command that writes a point with quality GOOD, subject to ownership and override. -/
  | pointWrite (c : Ctx) (h : Handle) (v : Word) (ei : Byte) (rsv : BitVec 24)
  /-- POINT_READ_MULTI (R30). Command that returns the records of up to 84 points, each atomic. -/
  | pointReadMulti (c : Ctx) (hs : List Handle)
  /-- POINT_WRITE_MULTI (R119). Command that checks, then writes, up to 126 points in payload order. -/
  | pointWriteMulti (c : Ctx) (ei : Byte) (rsv : BitVec 24) (pairs : List (Handle × Word))
  /-- POINT_OVERRIDE (R32). Command that forces a point's value with quality OVERRIDDEN and discards owner writes. -/
  | pointOverride (c : Ctx) (h : Handle) (v : Word) (ei : Byte) (rsv : BitVec 24)
  /-- POINT_RELEASE (R32). Command that ends an override in force on a point. -/
  | pointRelease (c : Ctx) (h : Handle) (ei : Byte) (rsv : BitVec 24)
  /-- CHANNEL_CONFIG (R158). Command that sets a channel's mode and protection, with break before make, and clears LATCHED. -/
  | channelConfig (c : Ctx) (ch ei : Byte) (rsv : BitVec 16) (rec : BitVec 256)
  /-- CHANNEL_STATUS (R163). Command that returns a channel's status record. -/
  | channelStatus (c : Ctx) (ch : Byte) (rsv : BitVec 24)
  /-- CHANNEL_CLEAR (R143). Command that clears fault flags of a channel. -/
  | channelClear (c : Ctx) (ch ei : Byte) (mask : BitVec 16)
  /-- SEQ_CONFIG (R167). Command that writes a whole regular or injected sequence and sets its result registers OFFLINE. -/
  | seqConfig (c : Ctx) (adc seq count rsv : Byte) (entries : List (BitVec 64))
  /-- SEQ_START (R172). Command that sets a sequence's run mode: stop, once, continuous or on trigger. -/
  | seqStart (c : Ctx) (adc seq mode trig : Byte)
  /-- SEQ_STATUS (R188). Command that returns the sequence states, drop count and reference flags of a converter. -/
  | seqStatus (c : Ctx) (adc : Byte) (rsv : BitVec 24)
  /-- REF_SELECT (R182). Command that selects a converter's reference. -/
  | refSelect (c : Ctx) (adc ref : Byte) (rsv : BitVec 16)
  /-- LOOP_WRITE (R199). Command that loads a slot descriptor, taking effect at a group boundary. -/
  | loopWrite (c : Ctx) (slot : BitVec 16) (ei rsv : Byte) (desc : BitVec 512)
  /-- LOOP_READ (R199). Command that returns the slot descriptor in force. -/
  | loopRead (c : Ctx) (slot rsv : BitVec 16)
  /-- LOOP_MODE (R216). Command that changes a slot's mode at a group boundary. -/
  | loopMode (c : Ctx) (slot : BitVec 16) (mode ei : Byte) (man : Word)
  /-- LOOP_CLEAR_FLAGS (R223). Command that clears sticky flags of a slot. -/
  | loopClearFlags (c : Ctx) (slot : BitVec 16) (mask ei : Byte)
  /-- RATE_GROUP_CONFIG (R59). Command that enables, disables or sets the period of a rate group. -/
  | rateGroupConfig (c : Ctx) (group enable : Byte) (rsv : BitVec 16) (n : Word)
  /-- TABLE_LOAD (R234). Command that writes a chunk into a table's shadow copy. -/
  | tableLoad (c : Ctx) (kind rsv : Byte) (idx : BitVec 16) (off : Word) (chunk : List Byte)
  /-- TABLE_COMMIT (R235). Command that checks a shadow and starts writing it to flash, or erases the table. -/
  | tableCommit (c : Ctx) (kind rsv : Byte) (idx : BitVec 16) (len crc : Word)
  /-- TABLE_READ (R122). Command that returns bytes of the active or shadow copy of a table. -/
  | tableRead (c : Ctx) (kind copy : Byte) (idx : BitVec 16) (off len : Word)
  /-- MACHINE_CONTROL (R259). Command that runs, pauses or restarts a machine at its next group boundary. -/
  | machineControl (c : Ctx) (m : BitVec 16) (action ei : Byte)
  /-- MODEL_LOAD (R269). Command that writes node, coupling or zone records, taking effect at the next live step. -/
  | modelLoad (c : Ctx) (part rsv : Byte) (first count rsv2 : BitVec 16) (recs : List Byte)
  /-- MODEL_READ (R269). Command that returns node, coupling or zone records. -/
  | modelRead (c : Ctx) (part rsv : Byte) (first count rsv2 : BitVec 16)
  /-- IDENT_CONTROL (R277). Command that freezes, runs or resets identification of a node. -/
  | identControl (c : Ctx) (node : BitVec 16) (action rsv : Byte) (lambda : Word)
  /-- PLAN_CONFIG (R282). Command that applies a planning record to the package, abandoning evaluation and retracting any latent plan. -/
  | planConfig (c : Ctx) (rec : BitVec 256)
  /-- PLAN_STATUS (R294). Command that returns the zone or tile form of the plan status record. -/
  | planStatus (c : Ctx) (zone rsv : BitVec 16)
  /-- PLAN_FIX (R293). Command that makes a latent plan eligible to be fixed. -/
  | planFix (c : Ctx) (plan : Word)
  /-- PLAN_VETO (R293). Command that retracts a latent plan. -/
  | planVeto (c : Ctx) (plan : Word)
  /-- CAPACITY_CONFIG (R295). Command that sets a zone's priority class and weight. -/
  | capacityConfig (c : Ctx) (zone : BitVec 16) (prio weight : Byte)
  /-- PROFILE_LOAD (R298). Command that replaces a whole profile program. -/
  | profileLoad (c : Ctx) (program count : Byte) (rsv : BitVec 16) (instrs : List Word)
  /-- PROFILE_FIRE (R309). Command that starts, or holds, a profile on an engine and binds its channels. -/
  | profileFire (c : Ctx) (engine program ei rsv : Byte) (param : Word)
  /-- PROFILE_CANCEL (R309). Command that stops a running profile and drops a held fire. -/
  | profileCancel (c : Ctx) (engine ei : Byte) (rsv : BitVec 16)
  /-- PROFILE_STATUS (R312). Command that returns a profile engine status record. -/
  | profileStatus (c : Ctx) (engine : Byte) (rsv : BitVec 24)
  /-- ANGLE_CONFIG (R314). Command that configures or disables an angle tracker. -/
  | angleConfig (c : Ctx) (tracker ei : Byte) (rsv : BitVec 16) (rec : BitVec 128)
  /-- ANGLE_SCHEDULE (R321). Command that sets the pending firing schedule of a tracker. -/
  | angleSchedule (c : Ctx) (tracker count : Byte) (rsv : BitVec 16) (entries : List Word)
  /-- STEPPER_CONFIG (R327). Command that configures or deconfigures a stepper unit. -/
  | stepperConfig (c : Ctx) (unit ei : Byte) (rsv : BitVec 16) (rec : BitVec 256)
  /-- STEPPER_MOVE (R333). Command that sets a new target for a stepper unit. -/
  | stepperMove (c : Ctx) (unit ei : Byte) (rsv : BitVec 16) (target : Word)
  /-- STEPPER_STOP (R334). Command that brings a stepper to standstill along its ramp. -/
  | stepperStop (c : Ctx) (unit ei : Byte) (rsv : BitVec 16)
  /-- STEPPER_HOME (R335). Command that stops a stepper and starts homing it. -/
  | stepperHome (c : Ctx) (unit ei dir rsv : Byte)
  /-- FAN_CONFIG (R340). Command that configures or deconfigures a fan unit. -/
  | fanConfig (c : Ctx) (unit ei : Byte) (rsv : BitVec 16) (rec : BitVec 256)
  /-- FAN_STATUS (R351). Command that returns a fan unit status record. -/
  | fanStatus (c : Ctx) (unit : Byte) (rsv : BitVec 24)
  /-- FAN_BASELINE (R348). Command that starts an 8-level baseline capture of a fan unit. -/
  | fanBaseline (c : Ctx) (unit ei : Byte) (rsv : BitVec 16)
  /-- RING_CONFIG (R385). Command that configures, changes or deconfigures a ring. -/
  | ringConfig (c : Ctx) (id : Word) (desc : BitVec 128)
  /-- RING_READ (R396). Command that delivers ring entries or the ring state record into a bulk buffer. -/
  | ringRead (c : Ctx) (id cursor limit : Word)
  /-- RING_RESET (R386). Command that discards every entry of a ring and clears its counts. -/
  | ringReset (c : Ctx) (id : Word)
  /-- EVENT_MASK (R405). Command that writes the MASKED bits of 32 events. -/
  | eventMask (c : Ctx) (word : Byte) (rsv : BitVec 24) (mask : Word)
  /-- EVENT_READ (R407). Command that returns PENDING and MASKED bits and clears the PENDING bits returned. -/
  | eventRead (c : Ctx)
  /-- BUS_CONFIG (R427). Command that configures a bus port, or writes one T1S address filter. -/
  | busConfig (c : Ctx) (port : Byte) (rsv : BitVec 24) (rec : BitVec 224)
  /-- BUS_SEND (R430). Command that queues a host frame for transmission on a bus port. -/
  | busSend (c : Ctx) (port rsv : Byte) (len : BitVec 16) (frame : List Byte)
  /-- BUS_MAP_LOAD (R435). Command that edits entries of the active register map or polling list. -/
  | busMapLoad (c : Ctx) (port list : Byte) (first : BitVec 16) (entries : List Byte)
  /-- BUS_STATUS (R444). Command that returns a bus port status record. -/
  | busStatus (c : Ctx) (port : Byte) (rsv : BitVec 24)
  /-- TETHER_CONFIG (R418). Command that enables or disables the tether and sets its bulk share. -/
  | tetherConfig (c : Ctx) (rec : BitVec 128)
  /-- TETHER_PAIR (R417). Command that pairs the two ends by key exchange or erases the pairing key. -/
  | tetherPair (c : Ctx) (action : Byte) (rsv : BitVec 24)
  /-- TETHER_STATUS (R419). Command that returns the tether status record. -/
  | tetherStatus (c : Ctx)
  /-- PANEL_UPDATE (R484). Command that checks the crack loop and starts a waveform update of the panel. -/
  | panelUpdate (c : Ctx) (wave : Byte) (rsv : BitVec 24) (states : BitVec 64)
  /-- PANEL_CONFIG (R482). Command that configures the panel and marks all segments unknown. -/
  | panelConfig (c : Ctx) (rec : BitVec 128)
  /-- KEY_CONFIG (R491). Command that configures the key scanner and encoders. -/
  | keyConfig (c : Ctx) (rec : BitVec 64)
  /-- COUNTER_CONFIG (R500). Command that sets a counter's mode, source, selector and window and zeroes it. -/
  | counterConfig (c : Ctx) (n mode src sel : Byte) (window : Word)
  /-- COUNTER_READ (R507). Command that returns one counter value with its flags and read time. -/
  | counterRead (c : Ctx) (n : Byte) (rsv : BitVec 24)
  /-- LOUPE_CONFIG (R510). Command that sets the loupe source and interval and empties its buffer. -/
  | loupeConfig (c : Ctx) (k src : Byte) (rsv : BitVec 16)
  /-- LOUPE_READ (R511). Command that delivers loupe samples into a bulk buffer. -/
  | loupeRead (c : Ctx) (first count : BitVec 16)
  /-- POLICY_LOAD (R474). Command that writes a new policy epoch for a port to every tile of the package. -/
  | policyLoad (c : Ctx) (port rsv : Byte) (epoch : BitVec 16) (rules : List Byte)
  /-- POLICY_READ (R470). Command that returns a port's policy epoch and rules. -/
  | policyRead (c : Ctx) (port : Byte) (rsv : BitVec 24)
  /-- OWNER_LOCK (R475). Command that sets or clears the owner lock on every tile. -/
  | ownerLock (c : Ctx) (set : Byte) (rsv : BitVec 24)
  /-- ENTROPY_READ (R479). Command that returns random bytes from the target tile's pool. -/
  | entropyRead (c : Ctx) (bytes rsv : BitVec 16)
  /-- UPDATE_BEGIN (R457). Command that opens a download and erases the negative slot of every tile. -/
  | updateBegin (c : Ctx) (len : Word) (hdr : List Byte)
  /-- UPDATE_DATA (R458). Command that writes a chunk of the image to every tile's negative. -/
  | updateData (c : Ctx) (off : Word) (data : List Byte)
  /-- UPDATE_END (R459). Command that checks the whole image CRC and stages it. -/
  | updateEnd (c : Ctx) (crc : Word)
  /-- ACTIVATE (R461). Command that restarts the tiles one at a time into the staged image. -/
  | activate (c : Ctx) (conf rsv : Byte) (window : BitVec 16)
  /-- FIX (R463). Command that confirms the new image within its health window. -/
  | fix (c : Ctx)
  /-- UPDATE_STATUS (R468). Command that returns the update status record. -/
  | updateStatus (c : Ctx)
  /-- SELF_TEST (R132). Command that runs selected self tests and reports pass and fail masks. -/
  | selfTest (c : Ctx) (mask : Word)
  /-- FABRIC_PROBE (R132). Command that sends repeated probes to a tile and reports hops and round-trip times. -/
  | fabricProbe (c : Ctx) (dest repeats : Byte) (rsv : BitVec 16)
  /-- POLL (R105). Host read of the contact sheet including offset 0x00, which counts as a poll and clears HOST_ABSENT. -/
  | poll (len : Nat)
  /-- SUB_PROD (R91). Host write of the submission producer index, after which the LX8 takes packets. -/
  | subProd (v : Word)
  /-- COMP_CONS (R93). Host write of the completion consumer index, which frees ring space and counts as a poll. -/
  | compCons (v : Word)
  /-- DUMMY (R89). Host write of the dummy-clock register, applied from the next transaction. -/
  | dummy (v : Word)
  /-- HP_RING_RESET (R95). Host write of 1 to RING_RESET, which resets both rings and clears SUB_HALTED. -/
  | hpRingReset (v : Word)
  /-- BULK_RELEASE (R96). Host write that releases bulk buffers. -/
  | bulkRelease (v : Word)
  /-- HOST_PORT_WRITE (R82). Host write to any address without a row of its own, such as ring bytes or SCRATCH, or an ignored write. -/
  | hostPortWrite (addr : BitVec 24) (data : List Byte)
  /-- HP_INVALID_COMMAND (R79). Host transaction with an invalid command byte, ignored and counted. -/
  | hpInvalidCommand (cmd : Byte)
  /-- HP_BROKEN_BYTE (R83). Transaction ending part-way through a byte, which is discarded and counted. -/
  | hpBrokenByte (isWrite : Bool) (addr : BitVec 24) (data : List Byte)
  /-- PACKET_TAKE (R99). The LX8 takes the next submission packet, checks it and admits, queues or answers it. -/
  | packetTake
  /-- CONTACT_SHEET_REFRESH (R86). The LX8 rewrites the contact sheet under the odd and even GENERATION protocol. -/
  | contactSheetRefresh
  /-- HOST_ABSENT (R105). Expiry of 30 s without a poll, setting HOST_ABSENT and raising event 126. -/
  | hostAbsent
  /-- BULK_TIMEOUT (R96). Expiry of 10 s after a bulk reply, releasing the buffer and counting BULK_EXPIRED. -/
  | bulkTimeout (b : BitVec 4)
  /-- HANDOVER_BUS_QUIET (R20). All bus ports are between frames, or 2 ms has passed, and the handover waits for HP_CS_N high. -/
  | handoverBusQuiet
  /-- HANDOVER_MIRROR_COMPLETE (R20). HP_CS_N is high and the mirror completes; the new lead drives the shared balls. -/
  | handoverMirrorComplete
  /-- HANDOVER_CS_TIMEOUT (R20). HP_CS_N still low 1 ms after the bus wait, so the handover is abandoned with REFUSED_STATE. -/
  | handoverCsTimeout
  /-- LEAD_TAKEOVER (R21). The other tile of the pair takes the lead after the lead leaves service without a handover. -/
  | leadTakeover
  /-- LEAD_BOOT_TIMEOUT (R367). The first lead is not online 200 ms after reset release, so the other tile takes the lead. -/
  | leadBootTimeout
  /-- FABRIC_REQUEST (R46). A fabric request reaches its target tile, is checked against the incarnation and takes or queues for a flight table entry. -/
  | fabricRequest (r : FabricReq)
  /-- FABRIC_REPLY (R61). A fabric reply returns to its source, completing the operation and freeing its flight table entry. -/
  | fabricReply (tile : TileId) (id : Nat)
  /-- ADMISSION_TIMEOUT (R38). A queued request is not admitted within its class limit and completes REFUSED_CAPACITY. -/
  | admissionTimeout (tile : TileId) (id : Nat)
  /-- BRIDGE_PARITY_ERROR (R17). A bridge transfer fails parity and is repeated; after three failures the bridge is marked down. -/
  | bridgeParityError (rx tx : TileId) (failedRepeats : Nat)
  /-- OFFLINE_MARK (R48). A tile stops serving requests and adjacent bridges answer its traffic on its behalf. -/
  | offlineMark (tile : TileId)
  /-- INCARNATION_ANNOUNCE (R47). A tile receives a neighbour's new incarnation, raises event 72 and marks its copies STALE. -/
  | incarnationAnnounce (tile announcer : TileId)
  /-- TILE_FAULT (R42). An internal fault in service puts the tile into Holding with its outputs in Hold. -/
  | tileFault (tile : TileId) (code : Word)
  /-- TILE_RESTART (R50). A holding tile begins its restart, incrementing its incarnation. -/
  | tileRestart (tile : TileId)
  /-- BOOT_COMPLETE (R365). A booting tile finishes its boot checks and comes online, or enters Offline on failure. -/
  | bootComplete (tile : TileId) (ok : Bool)
  /-- RATE_GROUP_BOUNDARY (R60). Period boundary of a rate group: deadline, commit, pending changes, latch, and issue of remote reads. -/
  | rateGroupBoundary (tile : TileId) (group : BitVec 3)
  /-- REMOTE_READ_TIMEOUT (R61). A remote read not returned by boundary + P/2 is latched from the STALE copy. -/
  | remoteReadTimeout (tile : TileId) (group : BitVec 3)
  /-- SLOT_EVALUATION (R205). The loop engine finishes evaluating one slot and holds its result pending. -/
  | slotEvaluation (tile : TileId) (slot : BitVec 9)
  /-- MACHINE_EVALUATION (R251). The table engine evaluates one machine, firing at most one transition. -/
  | machineEvaluation (tile : TileId) (machine : Byte)
  /-- GOVERNOR_WINDOW (R70). End of a 10 ms governor window, lowering VCORE one step if every completion had slack above 50 %. -/
  | governorWindow (tile : TileId)
  /-- VCORE_SETTLED (R71). A VCORE step has settled, letting a waiting change take effect. -/
  | vcoreSettled (tile : TileId)
  /-- TMR_TICK (R254). Each whole millisecond, counting TMR points count down by 1. -/
  | tmrTick (tile : TileId) (vioMv vholdMv vhvMv : Word)
  /-- CALENDAR_MINUTE (R262). Each whole minute of the clock, calendars are evaluated and write their outputs. -/
  | calendarMinute (tile : TileId)
  /-- FLASH_WRITE_COMPLETE (R358). A flash object's pages and commit record are written, so its users may switch. -/
  | flashWriteComplete (tile : TileId)
  /-- COMPARATOR_EDGE (R140). A channel comparator output changes, feeding digital input, pulse counting, triggers, chopping and trackers. -/
  | comparatorEdge (tile : TileId) (pin : BitVec 5) (pinUv : Int)
  /-- INPUT_FILTER_EXPIRY (R140). The comparator output has held a level for FILTER µs and CHR sub 0 takes it. -/
  | inputFilterExpiry (tile : TileId) (ch : BitVec 5)
  /-- ISOLATION_OPEN (R144). A channel pin leaves its safe window and the isolation switch opens, setting OVERVOLTAGE. -/
  | isolationOpen (tile : TileId) (ch : BitVec 5)
  /-- ISOLATION_CLOSE (R144). The pin has stayed in its window for 10 ms and the isolation switch closes. -/
  | isolationClose (tile : TileId) (ch : BitVec 5)
  /-- VHV_THRESHOLD (R145). VHV crosses 14.0 V falling or 14.5 V rising, turning channel drive off or back on. -/
  | vhvThreshold (tile : TileId) (low : Bool)
  /-- BLANKING_END (R147). A channel's blanking window closes. -/
  | blankingEnd (tile : TileId) (ch : BitVec 5)
  /-- LIMIT_TRIP (R147). A channel has been at its limit outside blanking for 50 µs and its drive turns off. -/
  | limitTrip (tile : TileId) (ch : BitVec 5)
  /-- BUDGET_TRIP (R149). Group current above 100 mA for 100 µs makes the group budget turn channels off. -/
  | budgetTrip (tile : TileId) (group : BitVec 2) (amps : List Int)
  /-- THERMAL_BUDGET (R153). Every 1 ms the lead sums channel and quiescent dissipation and turns channels off above 3.0 W. -/
  | thermalBudget (meas : List Meas)
  /-- CHANNEL_RETRY (R150). RETRY_INTERVAL after a turn-off, the channel drive returns as a start. -/
  | channelRetry (tile : TileId) (ch : BitVec 5)
  /-- CHANNEL_ATTEMPT_RESET (R150). After 10 s of drive without a turn-off the attempt count returns to zero. -/
  | channelAttemptReset (tile : TileId) (ch : BitVec 5)
  /-- OPEN_LOAD (R138). A current-drive pin has stayed at compliance for 10 ms, setting OPEN_LOAD. -/
  | openLoad (tile : TileId) (ch : BitVec 5)
  /-- GATE_FAULT (R151). A gate pin has not reached its commanded level 5 µs after an edge. -/
  | gateFault (tile : TileId) (ch : BitVec 5)
  /-- HOLD_LIMIT_EXPIRY (R43). A channel's hold limit expires and its output goes from Hold to Safelight. -/
  | holdLimitExpiry (tile : TileId) (ch : BitVec 5)
  /-- SEQ_TRIGGER (R174). A trigger arrives for an armed regular sequence, starting or deferring its pass. -/
  | seqTrigger (tile : TileId) (adc : Bool) (src : Byte)
  /-- URGENT_TRIGGER (R180). An urgent trigger starts the injected sequence, interrupting the regular one, or is dropped. -/
  | urgentTrigger (tile : TileId) (adc : Bool) (src : Byte)
  /-- SEQ_ENTRY_RESULT (R166). A sequence entry's result is written 10 clocks after its last sample, updating points and starting the next entry. -/
  | seqEntryResult (tile : TileId) (adc : Bool) (input : ConvInput)
  /-- REF_SETTLED (R183). A reference has been in its window long enough and its settled flag sets. -/
  | refSettled (tile : TileId) (ref : BitVec 2)
  /-- REFERENCE_LOST (R183). A reference leaves its window and its settled flag clears. -/
  | referenceLost (tile : TileId) (ref : BitVec 2)
  /-- INSTRUCTION_TIME_END (R303). The time of a DRIVE or CHOP instruction ends and the profile engine runs its next instructions. -/
  | instructionTimeEnd (tile : TileId) (engine : BitVec 3)
  /-- CHOP_OFF_TIME (R305). The chopping off-time ends; the gate turns on again or CHOP_STUCK faults. -/
  | chopOffTime (tile : TileId) (engine : BitVec 3)
  /-- DETECT_SAMPLE (R306). A detect window sample is tested for the dip that confirms armature arrival. -/
  | detectSample (tile : TileId) (engine : BitVec 3) (code : BitVec 14)
  /-- DETECT_WINDOW_END (R306). A detect window reaches its end without arrival and releases ADC B. -/
  | detectWindowEnd (tile : TileId) (engine : BitVec 3)
  /-- SHUTTER_END (R308). The shutter interval ends and any held fire starts. -/
  | shutterEnd (tile : TileId) (engine : BitVec 3)
  /-- TOOTH_WINDOW_CLOSE (R320). A tooth window closes without an edge, placing a synthetic tooth or opening a second window. -/
  | toothWindowClose (tile : TileId) (tracker : BitVec 1)
  /-- ANGLE_FIRING_DUE (R322). A scheduled angle firing falls due and starts its profile or is suppressed. -/
  | angleFiringDue (tile : TileId) (tracker : BitVec 1)
  /-- STEP_DUE (R331). A stepper's step interval ends and it takes one step along its ramp. -/
  | stepDue (tile : TileId) (unit : BitVec 2)
  /-- DWELL_END (R332). A stepper's reversal dwell ends and it starts towards its target. -/
  | dwellEnd (tile : TileId) (unit : BitVec 2)
  /-- HOME_STEP (R335). A homing step interval ends; the unit reads its switch and steps or ends homing. -/
  | homeStep (tile : TileId) (unit : BitVec 2)
  /-- HOLD_TIME_END (R336). HOLD_MS after standstill, all four gates go low. -/
  | holdTimeEnd (tile : TileId) (unit : BitVec 2)
  /-- TACH_SPEED_UPDATE (R343). Every 250 ms a fan unit computes its speed and writes its ACT items. -/
  | tachSpeedUpdate (tile : TileId) (unit : BitVec 2)
  /-- TACH_LOST_TIMEOUT (R343). No tachometer edge has arrived for 4 edge intervals and the tachometer counts as lost. -/
  | tachLostTimeout (tile : TileId) (unit : BitVec 2)
  /-- START_WINDOW_END (R344). A fan start window closes; the start fails or succeeds without tachometer. -/
  | startWindowEnd (tile : TileId) (unit : BitVec 2)
  /-- BACKOFF_END (R344). A fan backoff ends and the unit starts again if still called to run. -/
  | backoffEnd (tile : TileId) (unit : BitVec 2)
  /-- TACH_LOSS_SECOND (R345). After a second of held demand, the unit classifies a tach loss as broken wire or stall. -/
  | tachLossSecond (tile : TileId) (unit : BitVec 2)
  /-- FAN_ATTEMPT_RESET (R344). After 60 s running with good tachometer, the attempt count returns to 0. -/
  | fanAttemptReset (tile : TileId) (unit : BitVec 2)
  /-- BASELINE_LEVEL_END (R348). A 10 s baseline level ends; the unit records it and moves to the next level or finishes. -/
  | baselineLevelEnd (tile : TileId) (unit : BitVec 2)
  /-- AGEING_SAMPLE (R349). Every 10 s a fan unit may take an ageing sample and update its index and flags. -/
  | ageingSample (tile : TileId) (unit : BitVec 2)
  /-- LIVE_STEP (R273). The live model steps every node, identifies, updates zones and allocates capacity. -/
  | liveStep (tile : TileId)
  /-- PLANNING_BOUNDARY (R289). A planning boundary fixes or retracts the latent plan and starts a new evaluation. -/
  | planningBoundary
  /-- BRACKET_COMPLETE (R286). Every tile finishes simulating a bracket; the next starts, or the winner becomes latent. -/
  | bracketComplete
  /-- ADVICE_MESSAGE (R290). A LATENT, FIX or RETRACT advice message writes the advice VARs of the receiving tile. -/
  | adviceMessage (tile : TileId) (msg : BitVec 224)
  /-- ADVICE_EXPIRY (R290). Advice lapses at its expiry, acting as RETRACT or turning the VARs STALE. -/
  | adviceExpiry (tile : TileId)
  /-- RATE_OF_RISE_SAMPLE (R373). Every 100 ms each rate-of-rise monitor samples its point and judges the slope. -/
  | rateOfRiseSample (tile : TileId)
  /-- PERMIT_EVALUATION (R265). Every 250 µs the lead evaluates package health and the permit predicates. -/
  | permitEvaluation
  /-- COPY_STALE_TIMEOUT (R265). A permit copy not refreshed for 750 µs turns STALE. -/
  | copyStaleTimeout (h : Handle)
  /-- PERMIT_PULSE (R375). At each whole millisecond and 500 µs after, a permitted output goes high or low. -/
  | permitPulse (permit : BitVec 2)
  /-- RING_PERIOD_TRIGGER (R390). An on-period ring writes an entry at its period. -/
  | ringPeriodTrigger (tile : TileId) (ring : BitVec 15)
  /-- RING_SOURCE_TIMEOUT (R390). A remote ring source read has not returned in time and the STALE copy is recorded. -/
  | ringSourceTimeout (tile : TileId) (ring : BitVec 15)
  /-- COUNTER_WINDOW (R504). A bandwidth counter's window ends and its value is latched. -/
  | counterWindow (tile : TileId) (n : BitVec 3) (received sent : Nat)
  /-- COUNTER_WRAP (R505). A counter passes 2^48 − 1, setting WRAP or carrying into the next in a chain phase. -/
  | counterWrap (tile : TileId) (n : BitVec 3)
  /-- DIE_TEMPERATURE (R370). A die temperature measurement finishes and writes SYS 32 to 35. -/
  | dieTemperature (tile : TileId) (t0 t1 t2 t3 : Word)
  /-- POWER_FAIL_WARNING (R360). VIO crosses the power-fail threshold, setting or clearing POWER_FAIL and raising event 70. -/
  | powerFailWarning (tile : TileId) (active : Bool)
  /-- STOP_BATH (R361). VIO crosses the stop-bath threshold; new flash writes are refused and the page under way finishes on hold-up. -/
  | stopBath (tile : TileId) (active : Bool)
  /-- BROWN_OUT (R363). VIO falls through the brown-out threshold and the package resets. -/
  | brownOut
  /-- VCC11_LOW (R363). VCC11 falls through its monitor threshold and the package resets. -/
  | vcc11Low
  /-- VANA_LOW (R363). VANA falls through its monitor threshold and the package resets. -/
  | vanaLow
  /-- VHOLD_CHARGE (R362). VHOLD becomes charged or stops counting as charged, raising event 71. -/
  | vholdCharge (tile : TileId) (charged : Bool)
  /-- VRTC_LOSS (R45). VRTC falls below 1.70 V; the clock and incarnations are lost. -/
  | vrtcLoss
  /-- HOLDUP_PAGE_DONE (R361). The page caught by the stop-bath threshold finishes on hold-up energy. -/
  | holdupPageDone (tile : TileId)
  /-- RESET_N (R363). RESET_N held low for 1 µs puts the package in reset. -/
  | resetN
  /-- RESET_RELEASE (R363). Reset conditions have held for 1 ms; straps are sampled and every tile boots.
  `powerUp`: VIO had been gone, so that the reset is a power-up. -/
  | resetRelease (straps : BitVec 4) (powerUp : Bool)
  /-- CORE_REGULATOR_FAULT (R363). A tile's VCORE leaves regulation for 10 µs and the tile resets. -/
  | coreRegulatorFault (tile : TileId)
  /-- TAP_INSTRUCTION (R529). A TAP instruction takes effect; EXTEST, CLAMP or HIGHZ turn channels Off, and leaving them resets the package. -/
  | tapInstruction (tile : TileId) (instr : TapInstr)
  /-- DARKROOM_CHECK (R376). Once per second the lead checks the darkroom request and enters darkroom if conditions hold.
  `csHigh`: HP_CS_N is high at that check, as it is but in a transaction. -/
  | darkroomCheck (csHigh : Bool := true)
  /-- DARKROOM_WAKE (R378). A wake source ends darkroom and the lead tile resumes. -/
  | darkroomWake (source : WakeSource)
  /-- DARKROOM_RESUME (R379). The lead tile is online again after a wake and the host port answers. -/
  | darkroomResume
  /-- ENTROPY_CONDITION (R476). 1,024 noise samples are hashed into the pool, possibly making the source ready. -/
  | entropyCondition (tile : TileId) (samples : BitVec 1024)
  /-- ENTROPY_HEALTH_FAILURE (R478). A continuous health test fails, discarding the pool and clearing readiness. -/
  | entropyHealthFailure (tile : TileId)
  /-- ENTROPY_WAIT_EXPIRY (R479). An ENTROPY_READ has waited 100 ms without enough bits and completes NOT_READY. -/
  | entropyWaitExpiry (tile : TileId)
  /-- POLICY_SWITCH (R474). At the first whole millisecond after all tiles have written a new policy, every tile switches to it. -/
  | policySwitch
  /-- HELLO (R416). A HELLO frame arrives, starting a session once both ends have exchanged one. -/
  | hello (f : TFrame)
  /-- IDLE (R416). A valid IDLE frame arrives and refreshes link supervision. -/
  | idle (f : TFrame)
  /-- TIME (R421). A TIME frame arrives; the far end answers and steers, steps or locks its timebase. -/
  | time (f : TFrame)
  /-- CLOSE (R423). A CLOSE frame arrives and the link is treated as lost. -/
  | close (f : TFrame)
  /-- TETHER_REQUEST (R414). A REQUEST frame carries one fabric request across the tether; the request comes with the frame that
  completes it. -/
  | tetherRequest (f : TFrame) (req : Option FabricReq)
  /-- TETHER_REPLY (R414). A REPLY frame carries one fabric reply across the tether; the reply, with the number of its request,
  comes with the frame that completes it. -/
  | tetherReply (f : TFrame) (id : Nat) (reply : Option FabReply)
  /-- ANNOUNCE (R425). An ANNOUNCE frame arrives and changed incarnations are acted on, then resync starts. -/
  | announce (f : TFrame)
  /-- PAIR (R417). A PAIR frame arrives in the key exchange, storing the pairing key when complete. -/
  | pair (f : TFrame)
  /-- PAIR_TIMEOUT (R417). A far end holding a key ignored PAIR frames for 1 s and TETHER_PAIR completes REFUSED_STATE. -/
  | pairTimeout
  /-- HELLO_TIMER (R416). Every 100 ms before a session, an end sends a HELLO. -/
  | helloTimer
  /-- IDLE_TIMER (R416). After 2 ms without a sent frame, an end sends IDLE or TIME. -/
  | idleTimer
  /-- TIME_TIMER (R421). The near end sends a TIME frame every 10 ms, or 1 ms for the first four. -/
  | timeTimer
  /-- TETHER_SUSPECT (R422). 20 ms without a valid frame makes the link suspect and raises event 73. -/
  | tetherSuspect
  /-- TETHER_LOST (R423). 100 ms without a valid frame loses the link; copies go STALE and transactions complete TETHER_LOST. -/
  | tetherLost
  /-- RESYNC_COMPLETE (R425). Resync reads end, the link becomes up and event 75 is raised. -/
  | resyncComplete
  /-- BUS_START (R427). A configured port has seen 3.5 idle character times and starts in its mode. -/
  | busStart (port : BusPort)
  /-- MODBUS_REQUEST (R436). A Modbus server request frame arrives and the server issues its point accesses. -/
  | modbusRequest (port : RsPort) (frame : List Byte)
  /-- SERVER_WAIT_EXPIRY (R437). Server accesses not completed within WAIT and exception 0x06 is sent. -/
  | serverWaitExpiry (port : RsPort)
  /-- POLL_ITEM_DUE (R440). A client polling item falls due at its period or on change of its source. -/
  | pollItemDue (port : RsPort) (item : BitVec 9)
  /-- MODBUS_SILENCE (R440). The inter-frame silence ends and the client sends its next due item. -/
  | modbusSilence (port : RsPort)
  /-- MODBUS_RESPONSE (R439). A client response arrives and its BUS point is written or marked failed. -/
  | modbusResponse (port : RsPort) (frame : List Byte)
  /-- RESPONSE_TIMEOUT (R440). A client request has no valid response within TIMEOUT and is repeated or fails. -/
  | responseTimeout (port : RsPort)
  /-- MSTP_DATA_FRAME (R430). A valid MS/TP data frame for this station is written to the receive ring. -/
  | mstpDataFrame (port : RsPort) (ftype dst src : Byte) (rest : MstpRest)
  /-- MSTP_TOKEN (R429). The station receives the token and sends queued frames before passing it. -/
  | mstpToken (port : RsPort) (frame : MstpFrame)
  /-- MSTP_CONTROL_FRAME (R429). A Poll For Master or Test_Request frame is answered in hardware. -/
  | mstpControlFrame (port : RsPort) (ftype dst src : Byte) (rest : MstpRest)
  /-- REPLY_POSTPONED (R431). WAIT passes without a host reply and the port sends Reply Postponed. -/
  | replyPostponed (port : RsPort)
  /-- T1S_FRAME (R442). A T1S frame is received, checked and written to ring 4 if accepted. -/
  | t1sFrame (frame : List Byte) (fcs : Word)
  /-- T1S_COLLISION (R442). A CSMA/CD collision; after 16 the frame is abandoned. -/
  | t1sCollision
  /-- BEACON_TIMEOUT (R444). No PLCA BEACON for 4 ms; the port sets BEACON and falls back to CSMA/CD. -/
  | beaconTimeout
  /-- JABBER (R444). A T1S transmission longer than 2 ms is cut off. -/
  | jabber
  /-- BUS_FRAME_SENT (R127). A frame has left a bus port and its BUS_SEND completes OK. -/
  | busFrameSent (port : BusPort)
  /-- SVC_DET_N (R451). SVC_DET_N falls or rises, attaching or detaching the service cable and unlocking the port. -/
  | svcDetN (level : Bool)
  /-- SERVICE_BAUD_LOCK (R448). A 0x55 character at a valid rate locks the unlocked service port. -/
  | serviceBaudLock (baud : Nat)
  /-- SERVICE_UNLOCK_TIMEOUT (R448). 1 s without a received character unlocks the service port. -/
  | serviceUnlockTimeout
  /-- SERVICE_PACKET (R449). A framed service port packet is received whole and taken or answered. -/
  | servicePacket (packet : List Byte)
  /-- SERVICE_GAP_TIMEOUT (R449). A gap of more than 1 ms inside a packet discards it. -/
  | serviceGapTimeout
  /-- NEGATIVE_ERASE (R457). The erase of every negative slot finishes and UPDATE_BEGIN completes. -/
  | negativeErase
  /-- ACTIVATION_NEXT_TILE (R461). 50 ms after a tile comes online during activation or fallback, the next tile is restarted. -/
  | activationNextTile
  /-- HANDOVER_RETRY (R461). 10 ms after a refused activation handover, it is tried again. -/
  | handoverRetry
  /-- HEALTH_WINDOW_END (R463). The health window ends in confirmation or fallback. -/
  | healthWindowEnd
  /-- PANEL_PHASE (R484). A 20 ms panel phase boundary drives the next phase levels or ends the update. -/
  | panelPhase
  /-- CRACK_CHECK (R489). A crack loop measurement finishes and gives its verdict. -/
  | crackCheck (milliohms : Nat)
  /-- PANEL_RAILS_PRESENT (R481). The panel rails have been in range for 10 ms and count as present. -/
  | panelRailsPresent
  /-- PANEL_RAILS_COLLAPSE (R481). A panel rail falls out of range after being present. -/
  | panelRailsCollapse
  /-- KEY_SCAN (R490). One 1 ms scan of the key matrix updates debounce and ghost detection. -/
  | keyScan (pressed : BitVec 16)
  /-- KEY_INTERRUPT (R492). An accepted key change makes tile 0's processor write a key entry and raise event 79. -/
  | keyInterrupt
  /-- STUCK_KEY (R494). A key pressed longer than the stuck timeout is masked. -/
  | stuckKey (key : BitVec 4)
  /-- ENCODER_EDGE (R495). An encoder input changes level. -/
  | encoderEdge (enc inputB level : Bool)
  /-- ENCODER_SETTLE (R495). An encoder input has been stable 500 µs and a quarter-step is counted. -/
  | encoderSettle (enc inputB : Bool)
  /-- SELF_TEST_COMPLETE (R132). The self tests started by SELF_TEST finish and the command posts its pass and fail masks. -/
  | selfTestComplete (tile : TileId) (failMask : Word)
  /-- TOKEN_REGENERATION (R429). After the MS/TP line has been silent for the standard's no-token time, the station generates the token and sets TOKEN_GEN. -/
  | tokenRegeneration (port : RsPort)
  /-- RX_ERR (R428). An RS-485 frame ends with a framing, parity or CRC error and is discarded and counted in RX_ERR, possibly setting LINE. -/
  | rxErr (port : RsPort)
  /-- BEACON (R444). A PLCA BEACON is received by a follower T1S port, which returns from its CSMA/CD fallback to PLCA. -/
  | beacon
  /-- DISCHARGE_SWITCH_RELEASE (R487). VHOLD falls below 2.5 V and the panel discharge switches release, leaving the electrodes at high impedance. -/
  | dischargeSwitchRelease
  deriving DecidableEq, Repr

end Sys2Proof
end

