-- ==== Sys2Proof/Config.lean ====
section
/-!
DEFINITION. What the spec leaves to the part: values without a body, of which nothing can be proved.
-/

namespace Sys2Proof

/-- Free value number `n` of a run: a 32-bit value the spec leaves open. -/
opaque Config.freeWord : Nat → Word

/-- The phase (R502) of the census stage `src` of tile `t` at a tick: 0 evaluating, 1 awaiting request, 2 awaiting
acknowledge, 3 returning to zero. The handshakes of a clockless stage fall as they fall. -/
opaque Config.censusPhase : (src t tick : Nat) → Nat

/-- The tokens of the tile processor of tile `t` that leave it at a tick (R502, R503). Its instructions are the firmware's own. -/
opaque Config.processorTokens : (t tick : Nat) → Nat

/-- Of the work that the firmware of tile `t` abandons for the `n`-th time, what a census and the loupe see (R502, R503, R511): the
tokens that the loupe did not record, the evaluating ticks of all of them, and whether they are those of sample `no`. -/
opaque Config.spoiledTokens : (t n : Nat) → Nat
opaque Config.spoiledTicks : (t n : Nat) → Nat
opaque Config.spoiledSample : (t n no : Nat) → Bool

/-- What the loupe records of a token of tile `t` that the firmware decides (R511): bits [31:0] ADDRESS, [63:32] LATENCY. -/
opaque Config.tokenSample : (t no : Nat) → BitVec 64

/-- The ticks that a loop engine token of tile `t` spent in the stage (R511), by the tick of its departure: the stage is clockless. -/
opaque Config.tokenLatency : (t tick : Nat) → Nat

/-- Tile `u` of the other package, of which nothing has been heard in the session, is in service as the link comes up at a tick
(R412, R425): no frame carries it. -/
opaque Config.farTileUp : (u tick : Nat) → Bool

/-- The payload bytes of a fabric request and of a reply in the frames that carry them (R414), whose layout the spec does not
give. -/
opaque Config.requestBytes : FabricReq → List Byte
opaque Config.replyBytes : (id : Nat) → FabReply → List Byte

/-- An entry that finds the write queue of tile `t` full at its guaranteed rate is lost (R393): a memory port may be faster. The
number tells the entries apart. -/
opaque Config.queueLoses : (t n : Nat) → Bool

/-- What the weather curve gives for an outdoor temperature, and the COP grid for an outdoor and a supply temperature, all
Q16.16, where COORD holds no such table (R282, R286). -/
opaque Config.noWeather : Int → Word
opaque Config.noCop : Int → Int → Word

/-- The Q16.16 value that a simulation takes for source `m` of a node at package second `sec` (R286): the emitter heat flow of
a node that no zone feeds, internal gains and ventilation have no forecast. -/
opaque Config.planSource : (tile node m sec : Nat) → Word

/-- A sector of the flash of a tile is at its endurance limit after this many writes of the tile (R101, NV_WORN). -/
opaque Config.flashWorn : (tile writes : Nat) → Bool

/-- Parameter `i` with which slot `slot` tracks while its region table `table` holds no region record (R219): no rule gives it
one. -/
opaque Config.lostParam : (slot : Nat) → (table : List Byte) → (i : Nat) → BitVec 32

/-- The 5-bit code of a TAP instruction, and what the boundary cells of a tile hold at a tick (R528, R529): the spec gives neither
codes nor cells. -/
opaque Config.tapCode : TapInstr → BitVec 5
opaque Config.boundaryCells : (tile tick : Nat) → List Bool

/-- The Akgen public key in mask ROM (R455). -/
opaque Config.akgenKey : List Byte

/-- The payload of a NaN that an operation produces (R271 names no pattern). -/
opaque Config.nanPayload : BitVec 22

end Sys2Proof
end

