-- ==== Sys2Proof/Decode.lean ====
section
/-!
DEFINITION. Command packets: the opcode and payload of each command (R116 to R129), the command that an opcode and
payload spell, and the payload lengths. No row of the table gives bits, so no word spells a row.
-/

namespace Sys2Proof

open Machine

/-- `len` bytes of a payload at `off`, as a field. -/
def fld {w : Nat} (pl : List Byte) (off len : Nat) : BitVec w := BitVec.ofNat w (leAt pl off len)

/-- `n` groups of `k` bytes. -/
def groupsAux (k : Nat) : Nat → List Byte → List (List Byte)
  | 0, _ => []
  | n + 1, bs => bs.take k :: groupsAux k n (bs.drop k)

/-- The whole groups of `k` bytes in `bs`. -/
def groups (k : Nat) (bs : List Byte) : List (List Byte) := groupsAux k (bs.length / k) bs

/-- The context, opcode and payload of a command, in the layouts of R116 to R129; an event has none. -/
def commandParts : Instr → Option (Ctx × Byte × List Byte)
  | .nop c => some (c, 0x00, [])
  | .identify c => some (c, 0x01, [])
  | .tileState c action ei rsv => some (c, 0x02, le 1 action.toNat ++ le 1 ei.toNat ++ le 2 rsv.toNat)
  | .leadHandover c => some (c, 0x03, [])
  | .health c => some (c, 0x04, [])
  | .timeSet c secs => some (c, 0x05, le 4 secs.toNat)
  | .governor c ceil floor slack flags rsv => some (c, 0x06, le 2 ceil.toNat ++ le 2 floor.toNat ++ le 2 slack.toNat ++ le 1 flags.toNat ++ le 1 rsv.toNat)
  | .safelightLoad c first count rsv entries => some (c, 0x07, le 1 first.toNat ++ le 1 count.toNat ++ le 2 rsv.toNat ++ entries.flatMap (fun q => le 16 q.toNat))
  | .permitConfig c permit enable pred => some (c, 0x08, le 1 permit.toNat ++ le 1 enable.toNat ++ le 2 pred.toNat)
  | .pointRead c h => some (c, 0x10, le 4 h.toNat)
  | .pointWrite c h v ei rsv => some (c, 0x11, le 4 h.toNat ++ le 4 v.toNat ++ le 1 ei.toNat ++ le 3 rsv.toNat)
  | .pointReadMulti c hs => some (c, 0x12, hs.flatMap (fun q => le 4 q.toNat))
  | .pointWriteMulti c ei rsv pairs => some (c, 0x13, le 1 ei.toNat ++ le 3 rsv.toNat ++ pairs.flatMap (fun q => le 4 q.1.toNat ++ le 4 q.2.toNat))
  | .pointOverride c h v ei rsv => some (c, 0x14, le 4 h.toNat ++ le 4 v.toNat ++ le 1 ei.toNat ++ le 3 rsv.toNat)
  | .pointRelease c h ei rsv => some (c, 0x15, le 4 h.toNat ++ le 1 ei.toNat ++ le 3 rsv.toNat)
  | .channelConfig c ch ei rsv rec => some (c, 0x20, le 1 ch.toNat ++ le 1 ei.toNat ++ le 2 rsv.toNat ++ le 32 rec.toNat)
  | .channelStatus c ch rsv => some (c, 0x21, le 1 ch.toNat ++ le 3 rsv.toNat)
  | .channelClear c ch ei mask => some (c, 0x22, le 1 ch.toNat ++ le 1 ei.toNat ++ le 2 mask.toNat)
  | .seqConfig c adc seq count rsv entries => some (c, 0x28, le 1 adc.toNat ++ le 1 seq.toNat ++ le 1 count.toNat ++ le 1 rsv.toNat ++ entries.flatMap (fun q => le 8 q.toNat))
  | .seqStart c adc seq mode trig => some (c, 0x29, le 1 adc.toNat ++ le 1 seq.toNat ++ le 1 mode.toNat ++ le 1 trig.toNat)
  | .seqStatus c adc rsv => some (c, 0x2A, le 1 adc.toNat ++ le 3 rsv.toNat)
  | .refSelect c adc ref rsv => some (c, 0x2B, le 1 adc.toNat ++ le 1 ref.toNat ++ le 2 rsv.toNat)
  | .loopWrite c slot ei rsv desc => some (c, 0x30, le 2 slot.toNat ++ le 1 ei.toNat ++ le 1 rsv.toNat ++ le 64 desc.toNat)
  | .loopRead c slot rsv => some (c, 0x31, le 2 slot.toNat ++ le 2 rsv.toNat)
  | .loopMode c slot mode ei man => some (c, 0x32, le 2 slot.toNat ++ le 1 mode.toNat ++ le 1 ei.toNat ++ le 4 man.toNat)
  | .loopClearFlags c slot mask ei => some (c, 0x33, le 2 slot.toNat ++ le 1 mask.toNat ++ le 1 ei.toNat)
  | .rateGroupConfig c group enable rsv n => some (c, 0x34, le 1 group.toNat ++ le 1 enable.toNat ++ le 2 rsv.toNat ++ le 4 n.toNat)
  | .tableLoad c kind rsv idx off chunk => some (c, 0x40, le 1 kind.toNat ++ le 1 rsv.toNat ++ le 2 idx.toNat ++ le 4 off.toNat ++ chunk)
  | .tableCommit c kind rsv idx len crc => some (c, 0x41, le 1 kind.toNat ++ le 1 rsv.toNat ++ le 2 idx.toNat ++ le 4 len.toNat ++ le 4 crc.toNat)
  | .tableRead c kind copy idx off len => some (c, 0x42, le 1 kind.toNat ++ le 1 copy.toNat ++ le 2 idx.toNat ++ le 4 off.toNat ++ le 4 len.toNat)
  | .machineControl c m action ei => some (c, 0x43, le 2 m.toNat ++ le 1 action.toNat ++ le 1 ei.toNat)
  | .modelLoad c part rsv first count rsv2 recs => some (c, 0x50, le 1 part.toNat ++ le 1 rsv.toNat ++ le 2 first.toNat ++ le 2 count.toNat ++ le 2 rsv2.toNat ++ recs)
  | .modelRead c part rsv first count rsv2 => some (c, 0x51, le 1 part.toNat ++ le 1 rsv.toNat ++ le 2 first.toNat ++ le 2 count.toNat ++ le 2 rsv2.toNat)
  | .identControl c node action rsv lambda => some (c, 0x52, le 2 node.toNat ++ le 1 action.toNat ++ le 1 rsv.toNat ++ le 4 lambda.toNat)
  | .planConfig c rec => some (c, 0x53, le 32 rec.toNat)
  | .planStatus c zone rsv => some (c, 0x54, le 2 zone.toNat ++ le 2 rsv.toNat)
  | .planFix c plan => some (c, 0x55, le 4 plan.toNat)
  | .planVeto c plan => some (c, 0x56, le 4 plan.toNat)
  | .capacityConfig c zone prio weight => some (c, 0x57, le 2 zone.toNat ++ le 1 prio.toNat ++ le 1 weight.toNat)
  | .profileLoad c program count rsv instrs => some (c, 0x60, le 1 program.toNat ++ le 1 count.toNat ++ le 2 rsv.toNat ++ instrs.flatMap (fun q => le 4 q.toNat))
  | .profileFire c engine program ei rsv param => some (c, 0x61, le 1 engine.toNat ++ le 1 program.toNat ++ le 1 ei.toNat ++ le 1 rsv.toNat ++ le 4 param.toNat)
  | .profileCancel c engine ei rsv => some (c, 0x62, le 1 engine.toNat ++ le 1 ei.toNat ++ le 2 rsv.toNat)
  | .profileStatus c engine rsv => some (c, 0x63, le 1 engine.toNat ++ le 3 rsv.toNat)
  | .angleConfig c tracker ei rsv rec => some (c, 0x64, le 1 tracker.toNat ++ le 1 ei.toNat ++ le 2 rsv.toNat ++ le 16 rec.toNat)
  | .angleSchedule c tracker count rsv entries => some (c, 0x65, le 1 tracker.toNat ++ le 1 count.toNat ++ le 2 rsv.toNat ++ entries.flatMap (fun q => le 4 q.toNat))
  | .stepperConfig c unit ei rsv rec => some (c, 0x68, le 1 unit.toNat ++ le 1 ei.toNat ++ le 2 rsv.toNat ++ le 32 rec.toNat)
  | .stepperMove c unit ei rsv target => some (c, 0x69, le 1 unit.toNat ++ le 1 ei.toNat ++ le 2 rsv.toNat ++ le 4 target.toNat)
  | .stepperStop c unit ei rsv => some (c, 0x6A, le 1 unit.toNat ++ le 1 ei.toNat ++ le 2 rsv.toNat)
  | .stepperHome c unit ei dir rsv => some (c, 0x6B, le 1 unit.toNat ++ le 1 ei.toNat ++ le 1 dir.toNat ++ le 1 rsv.toNat)
  | .fanConfig c unit ei rsv rec => some (c, 0x6C, le 1 unit.toNat ++ le 1 ei.toNat ++ le 2 rsv.toNat ++ le 32 rec.toNat)
  | .fanStatus c unit rsv => some (c, 0x6D, le 1 unit.toNat ++ le 3 rsv.toNat)
  | .fanBaseline c unit ei rsv => some (c, 0x6E, le 1 unit.toNat ++ le 1 ei.toNat ++ le 2 rsv.toNat)
  | .ringConfig c id desc => some (c, 0x70, le 4 id.toNat ++ le 16 desc.toNat)
  | .ringRead c id cursor limit => some (c, 0x71, le 4 id.toNat ++ le 4 cursor.toNat ++ le 4 limit.toNat)
  | .ringReset c id => some (c, 0x72, le 4 id.toNat)
  | .eventMask c word rsv mask => some (c, 0x73, le 1 word.toNat ++ le 3 rsv.toNat ++ le 4 mask.toNat)
  | .eventRead c => some (c, 0x74, [])
  | .busConfig c port rsv rec => some (c, 0x80, le 1 port.toNat ++ le 3 rsv.toNat ++ le 28 rec.toNat)
  | .busSend c port rsv len frame => some (c, 0x81, le 1 port.toNat ++ le 1 rsv.toNat ++ le 2 len.toNat ++ frame)
  | .busMapLoad c port list first entries => some (c, 0x82, le 1 port.toNat ++ le 1 list.toNat ++ le 2 first.toNat ++ entries)
  | .busStatus c port rsv => some (c, 0x83, le 1 port.toNat ++ le 3 rsv.toNat)
  | .tetherConfig c rec => some (c, 0x88, le 16 rec.toNat)
  | .tetherPair c action rsv => some (c, 0x89, le 1 action.toNat ++ le 3 rsv.toNat)
  | .tetherStatus c => some (c, 0x8A, [])
  | .panelUpdate c wave rsv states => some (c, 0x90, le 1 wave.toNat ++ le 3 rsv.toNat ++ le 8 states.toNat)
  | .panelConfig c rec => some (c, 0x91, le 16 rec.toNat)
  | .keyConfig c rec => some (c, 0x92, le 8 rec.toNat)
  | .counterConfig c n mode src sel window => some (c, 0xA0, le 1 n.toNat ++ le 1 mode.toNat ++ le 1 src.toNat ++ le 1 sel.toNat ++ le 4 window.toNat)
  | .counterRead c n rsv => some (c, 0xA1, le 1 n.toNat ++ le 3 rsv.toNat)
  | .loupeConfig c k src rsv => some (c, 0xA2, le 1 k.toNat ++ le 1 src.toNat ++ le 2 rsv.toNat)
  | .loupeRead c first count => some (c, 0xA3, le 2 first.toNat ++ le 2 count.toNat)
  | .policyLoad c port rsv epoch rules => some (c, 0xB0, le 1 port.toNat ++ le 1 rsv.toNat ++ le 2 epoch.toNat ++ rules)
  | .policyRead c port rsv => some (c, 0xB1, le 1 port.toNat ++ le 3 rsv.toNat)
  | .ownerLock c set rsv => some (c, 0xB2, le 1 set.toNat ++ le 3 rsv.toNat)
  | .entropyRead c bytes rsv => some (c, 0xB3, le 2 bytes.toNat ++ le 2 rsv.toNat)
  | .updateBegin c len hdr => some (c, 0xC0, le 4 len.toNat ++ hdr)
  | .updateData c off data => some (c, 0xC1, le 4 off.toNat ++ data)
  | .updateEnd c crc => some (c, 0xC2, le 4 crc.toNat)
  | .activate c conf rsv window => some (c, 0xC3, le 1 conf.toNat ++ le 1 rsv.toNat ++ le 2 window.toNat)
  | .fix c => some (c, 0xC4, [])
  | .updateStatus c => some (c, 0xC5, [])
  | .selfTest c mask => some (c, 0xF0, le 4 mask.toNat)
  | .fabricProbe c dest repeats rsv => some (c, 0xF1, le 1 dest.toNat ++ le 1 repeats.toNat ++ le 2 rsv.toNat)
  | _ => none

/-- The command that an opcode and a payload of the right length spell; none for an opcode the tables do not list. -/
def commandOf (c : Ctx) (op : Byte) (pl : List Byte) : Option Instr :=
  match op with
  | 0x00 => some (.nop c)
  | 0x01 => some (.identify c)
  | 0x02 => some (.tileState c (fld pl 0 1) (fld pl 1 1) (fld pl 2 2))
  | 0x03 => some (.leadHandover c)
  | 0x04 => some (.health c)
  | 0x05 => some (.timeSet c (fld pl 0 4))
  | 0x06 => some (.governor c (fld pl 0 2) (fld pl 2 2) (fld pl 4 2) (fld pl 6 1) (fld pl 7 1))
  | 0x07 => some (.safelightLoad c (fld pl 0 1) (fld pl 1 1) (fld pl 2 2) ((groups 16 (pl.drop 4)).map (recOf 128)))
  | 0x08 => some (.permitConfig c (fld pl 0 1) (fld pl 1 1) (fld pl 2 2))
  | 0x10 => some (.pointRead c (fld pl 0 4))
  | 0x11 => some (.pointWrite c (fld pl 0 4) (fld pl 4 4) (fld pl 8 1) (fld pl 9 3))
  | 0x12 => some (.pointReadMulti c ((groups 4 (pl.drop 0)).map (recOf 32)))
  | 0x13 => some (.pointWriteMulti c (fld pl 0 1) (fld pl 1 3) ((groups 8 (pl.drop 4)).map (fun g => (recOf 32 (g.take 4), recOf 32 (g.drop 4)))))
  | 0x14 => some (.pointOverride c (fld pl 0 4) (fld pl 4 4) (fld pl 8 1) (fld pl 9 3))
  | 0x15 => some (.pointRelease c (fld pl 0 4) (fld pl 4 1) (fld pl 5 3))
  | 0x20 => some (.channelConfig c (fld pl 0 1) (fld pl 1 1) (fld pl 2 2) (fld pl 4 32))
  | 0x21 => some (.channelStatus c (fld pl 0 1) (fld pl 1 3))
  | 0x22 => some (.channelClear c (fld pl 0 1) (fld pl 1 1) (fld pl 2 2))
  | 0x28 => some (.seqConfig c (fld pl 0 1) (fld pl 1 1) (fld pl 2 1) (fld pl 3 1) ((groups 8 (pl.drop 4)).map (recOf 64)))
  | 0x29 => some (.seqStart c (fld pl 0 1) (fld pl 1 1) (fld pl 2 1) (fld pl 3 1))
  | 0x2A => some (.seqStatus c (fld pl 0 1) (fld pl 1 3))
  | 0x2B => some (.refSelect c (fld pl 0 1) (fld pl 1 1) (fld pl 2 2))
  | 0x30 => some (.loopWrite c (fld pl 0 2) (fld pl 2 1) (fld pl 3 1) (fld pl 4 64))
  | 0x31 => some (.loopRead c (fld pl 0 2) (fld pl 2 2))
  | 0x32 => some (.loopMode c (fld pl 0 2) (fld pl 2 1) (fld pl 3 1) (fld pl 4 4))
  | 0x33 => some (.loopClearFlags c (fld pl 0 2) (fld pl 2 1) (fld pl 3 1))
  | 0x34 => some (.rateGroupConfig c (fld pl 0 1) (fld pl 1 1) (fld pl 2 2) (fld pl 4 4))
  | 0x40 => some (.tableLoad c (fld pl 0 1) (fld pl 1 1) (fld pl 2 2) (fld pl 4 4) (pl.drop 8))
  | 0x41 => some (.tableCommit c (fld pl 0 1) (fld pl 1 1) (fld pl 2 2) (fld pl 4 4) (fld pl 8 4))
  | 0x42 => some (.tableRead c (fld pl 0 1) (fld pl 1 1) (fld pl 2 2) (fld pl 4 4) (fld pl 8 4))
  | 0x43 => some (.machineControl c (fld pl 0 2) (fld pl 2 1) (fld pl 3 1))
  | 0x50 => some (.modelLoad c (fld pl 0 1) (fld pl 1 1) (fld pl 2 2) (fld pl 4 2) (fld pl 6 2) (pl.drop 8))
  | 0x51 => some (.modelRead c (fld pl 0 1) (fld pl 1 1) (fld pl 2 2) (fld pl 4 2) (fld pl 6 2))
  | 0x52 => some (.identControl c (fld pl 0 2) (fld pl 2 1) (fld pl 3 1) (fld pl 4 4))
  | 0x53 => some (.planConfig c (fld pl 0 32))
  | 0x54 => some (.planStatus c (fld pl 0 2) (fld pl 2 2))
  | 0x55 => some (.planFix c (fld pl 0 4))
  | 0x56 => some (.planVeto c (fld pl 0 4))
  | 0x57 => some (.capacityConfig c (fld pl 0 2) (fld pl 2 1) (fld pl 3 1))
  | 0x60 => some (.profileLoad c (fld pl 0 1) (fld pl 1 1) (fld pl 2 2) ((groups 4 (pl.drop 4)).map (recOf 32)))
  | 0x61 => some (.profileFire c (fld pl 0 1) (fld pl 1 1) (fld pl 2 1) (fld pl 3 1) (fld pl 4 4))
  | 0x62 => some (.profileCancel c (fld pl 0 1) (fld pl 1 1) (fld pl 2 2))
  | 0x63 => some (.profileStatus c (fld pl 0 1) (fld pl 1 3))
  | 0x64 => some (.angleConfig c (fld pl 0 1) (fld pl 1 1) (fld pl 2 2) (fld pl 4 16))
  | 0x65 => some (.angleSchedule c (fld pl 0 1) (fld pl 1 1) (fld pl 2 2) ((groups 4 (pl.drop 4)).map (recOf 32)))
  | 0x68 => some (.stepperConfig c (fld pl 0 1) (fld pl 1 1) (fld pl 2 2) (fld pl 4 32))
  | 0x69 => some (.stepperMove c (fld pl 0 1) (fld pl 1 1) (fld pl 2 2) (fld pl 4 4))
  | 0x6A => some (.stepperStop c (fld pl 0 1) (fld pl 1 1) (fld pl 2 2))
  | 0x6B => some (.stepperHome c (fld pl 0 1) (fld pl 1 1) (fld pl 2 1) (fld pl 3 1))
  | 0x6C => some (.fanConfig c (fld pl 0 1) (fld pl 1 1) (fld pl 2 2) (fld pl 4 32))
  | 0x6D => some (.fanStatus c (fld pl 0 1) (fld pl 1 3))
  | 0x6E => some (.fanBaseline c (fld pl 0 1) (fld pl 1 1) (fld pl 2 2))
  | 0x70 => some (.ringConfig c (fld pl 0 4) (fld pl 4 16))
  | 0x71 => some (.ringRead c (fld pl 0 4) (fld pl 4 4) (fld pl 8 4))
  | 0x72 => some (.ringReset c (fld pl 0 4))
  | 0x73 => some (.eventMask c (fld pl 0 1) (fld pl 1 3) (fld pl 4 4))
  | 0x74 => some (.eventRead c)
  | 0x80 => some (.busConfig c (fld pl 0 1) (fld pl 1 3) (fld pl 4 28))
  | 0x81 => some (.busSend c (fld pl 0 1) (fld pl 1 1) (fld pl 2 2) (pl.drop 4))
  | 0x82 => some (.busMapLoad c (fld pl 0 1) (fld pl 1 1) (fld pl 2 2) (pl.drop 4))
  | 0x83 => some (.busStatus c (fld pl 0 1) (fld pl 1 3))
  | 0x88 => some (.tetherConfig c (fld pl 0 16))
  | 0x89 => some (.tetherPair c (fld pl 0 1) (fld pl 1 3))
  | 0x8A => some (.tetherStatus c)
  | 0x90 => some (.panelUpdate c (fld pl 0 1) (fld pl 1 3) (fld pl 4 8))
  | 0x91 => some (.panelConfig c (fld pl 0 16))
  | 0x92 => some (.keyConfig c (fld pl 0 8))
  | 0xA0 => some (.counterConfig c (fld pl 0 1) (fld pl 1 1) (fld pl 2 1) (fld pl 3 1) (fld pl 4 4))
  | 0xA1 => some (.counterRead c (fld pl 0 1) (fld pl 1 3))
  | 0xA2 => some (.loupeConfig c (fld pl 0 1) (fld pl 1 1) (fld pl 2 2))
  | 0xA3 => some (.loupeRead c (fld pl 0 2) (fld pl 2 2))
  | 0xB0 => some (.policyLoad c (fld pl 0 1) (fld pl 1 1) (fld pl 2 2) (pl.drop 4))
  | 0xB1 => some (.policyRead c (fld pl 0 1) (fld pl 1 3))
  | 0xB2 => some (.ownerLock c (fld pl 0 1) (fld pl 1 3))
  | 0xB3 => some (.entropyRead c (fld pl 0 2) (fld pl 2 2))
  | 0xC0 => some (.updateBegin c (fld pl 0 4) (pl.drop 4))
  | 0xC1 => some (.updateData c (fld pl 0 4) (pl.drop 4))
  | 0xC2 => some (.updateEnd c (fld pl 0 4))
  | 0xC3 => some (.activate c (fld pl 0 1) (fld pl 1 1) (fld pl 2 2))
  | 0xC4 => some (.fix c)
  | 0xC5 => some (.updateStatus c)
  | 0xF0 => some (.selfTest c (fld pl 0 4))
  | 0xF1 => some (.fabricProbe c (fld pl 0 1) (fld pl 1 1) (fld pl 2 2))
  | _ => none

/-- The payload LENGTH is the one the tables give for the opcode (R111, R269, R434, R435, R470). A list that the
payload's own count names has that count; the lists of POINT_READ_MULTI, POINT_WRITE_MULTI and BUS_MAP_LOAD hold at
least one element. -/
def lengthOk (op : Byte) (pl : List Byte) : Bool :=
  let n := pl.length
  let at_ (i len : Nat) := leAt pl i len
  match op with
  | 0x00 | 0x01 | 0x03 | 0x04 | 0x74 | 0x8A | 0xC4 | 0xC5 => n = 0
  | 0x02 | 0x05 | 0x08 | 0x10 | 0x21 | 0x22 | 0x29 | 0x2A | 0x2B | 0x31 | 0x33 | 0x43 | 0x54 | 0x55 | 0x56 | 0x57 | 0x62 | 0x63 | 0x6A | 0x6B | 0x6D | 0x6E | 0x72 | 0x83 | 0x89 | 0xA1 | 0xA2 | 0xA3 | 0xB1 | 0xB2 | 0xB3 | 0xC2 | 0xC3 | 0xF0 | 0xF1 => n = 4
  | 0x06 | 0x15 | 0x32 | 0x34 | 0x51 | 0x52 | 0x61 | 0x69 | 0x73 | 0x92 | 0xA0 => n = 8
  | 0x11 | 0x14 | 0x41 | 0x42 | 0x71 | 0x90 => n = 12
  | 0x88 | 0x91 => n = 16
  | 0x64 | 0x70 => n = 20
  | 0x53 | 0x80 => n = 32
  | 0x20 | 0x68 | 0x6C => n = 36
  | 0x30 => n = 68
  | 0x07 => 4 ≤ n && n = 4 + 16 * at_ 1 1
  | 0x12 => n % 4 = 0 && 4 ≤ n && n ≤ 336
  | 0x13 => n % 8 = 4 && 12 ≤ n && n ≤ 1012
  | 0x28 => 4 ≤ n && n = 4 + 8 * at_ 2 1
  | 0x40 => n % 4 = 0 && 12 ≤ n && n ≤ 1016
  | 0x50 => 8 ≤ n && n ≤ 1016 && n % 4 = 0 && (match at_ 0 1 with
      | 0 => n = 8 + 48 * at_ 4 2
      | 1 => n = 8 + 12 * at_ 4 2
      | 2 => n = 8 + 32 * at_ 4 2
      | _ => true)
  | 0x60 | 0x65 => 4 ≤ n && n = 4 + 4 * at_ 1 1
  | 0x81 => 4 ≤ n && n = 4 + (at_ 2 2 + 3) / 4 * 4
  | 0x82 => 4 < n && n ≤ 1016 && n % 4 = 0 && (match at_ 1 1 with
      | 0 => n % 8 = 4
      | 1 => n % 32 = 4
      | _ => true)
  | 0xB0 => 12 ≤ n && n = 12 + 8 * at_ 8 2
  | 0xC0 => n = 260
  | 0xC1 => n % 4 = 0 && 8 ≤ n && n ≤ 1016
  | _ => false

/-- The opcodes of the tables (R116 to R129). -/
def knownOp (op : Byte) : Bool := (commandOf { src := .host 0, tile := 0, cls := 2 } op (zeros 300)).isSome

/-- The command of the table that a word spells by the table's bits: no row of the table gives bits (its rows carry no
fields), so every word spells none. -/
def decodeTableWord (_nbits _w : Nat) : Option Instr := none

end Sys2Proof
end

