-- ==== Sys2Proof/Machine/Tbl.lean ====
section
/-!
DEFINITION. Sparse tables: rising lists of (number, value) pairs, where a number that is not listed holds the
default of the table. They hold the tiles, points, slots and other numbered objects of the state.
-/

namespace Sys2Proof.Machine

/-- A table of values by number. -/
abbrev Tbl (α : Type) := List (Nat × α)

/-- The value listed at `k`, if any. -/
def Tbl.find? {α : Type} : Tbl α → Nat → Option α
  | [], _ => none
  | (j, v) :: r, k => if j = k then some v else Tbl.find? r k

/-- The value at `k`, or the default of the table. -/
def Tbl.getD {α : Type} (t : Tbl α) (k : Nat) (d : α) : α :=
  match Tbl.find? t k with
  | some v => v
  | none => d

/-- The table with `v` at `k`. -/
def Tbl.set {α : Type} : Tbl α → Nat → α → Tbl α
  | [], k, v => [(k, v)]
  | (j, w) :: r, k, v =>
    if k < j then (k, v) :: (j, w) :: r
    else if k = j then (k, v) :: r
    else (j, w) :: Tbl.set r k v

/-- The table with nothing listed at `k`. -/
def Tbl.erase {α : Type} (t : Tbl α) (k : Nat) : Tbl α := t.filter (fun p => p.1 != k)

/-- Every listed value changed by `f`. -/
def Tbl.mapVals {α : Type} (t : Tbl α) (f : Nat → α → α) : Tbl α := t.map (fun p => (p.1, f p.1 p.2))

/-- The value at `k` changed by `f`. -/
def Tbl.modify {α : Type} (t : Tbl α) (k : Nat) (d : α) (f : α → α) : Tbl α := t.set k (f (t.getD k d))

end Sys2Proof.Machine
end

