-- ==== Sys2Proof/Machine/Point.lean ====
section
/-!
DEFINITION. Points: quality codes, records, and the numbering of the points of one tile (R24 to R29).
-/

namespace Sys2Proof.Machine

/-- The nine quality codes (R29). -/
inductive Quality where
  | good | stale | latent | badOpen | badShort | badRange | overridden | held | offline
  deriving DecidableEq, Repr

/-- The code of a quality (R29). -/
def Quality.code : Quality → Nat
  | .good => 0 | .stale => 1 | .latent => 2 | .badOpen => 3 | .badShort => 4
  | .badRange => 5 | .overridden => 6 | .held => 7 | .offline => 8

/-- The value, timestamp and quality of a point, written and read together (R27, R30). -/
structure Rec where
  value : Word := 0
  time : BitVec 48 := 0
  q : Quality := .offline
  deriving DecidableEq, Repr

/-- A point of one tile: its class and index, bits [19:0] of its handle (R24). -/
abbrev Key := Nat

/-- The key of a class and index. -/
def key (cls idx : Nat) : Key := cls * 65536 + idx

/-- The key in a handle. -/
def handleKey (h : Handle) : Key := (h.extractLsb' 0 20).toNat

/-- TILE of a handle. -/
def handleTile (h : Handle) : Nat := (h.extractLsb' 20 4).toNat

/-- CLASS of a handle. -/
def handleClass (h : Handle) : Nat := (h.extractLsb' 16 4).toNat

/-- INDEX of a handle. -/
def handleIdx (h : Handle) : Nat := (h.extractLsb' 0 16).toNat

/-- The class of a key. -/
def keyClass (k : Key) : Nat := k / 65536

/-- The index of a key. -/
def keyIdx (k : Key) : Nat := k % 65536

/-- The handle of key `k` on tile `t`. -/
def mkHandle (t : Nat) (k : Key) : Handle := BitVec.ofNat 32 (t * 1048576 + k)

/-- The handle that names no point in slots, machines and units (R199). -/
def noHandle : Handle := 0x00FFFFFF#32

/-- The engine, unit, calendar, map or advice (R290) that owns or reserves a point (R31). -/
inductive Claimer where
  | slot (n : Nat)
  | machine (n : Nat)
  | calendar (n : Nat)
  | map (port : Nat)
  | engine (n : Nat)
  | stepper (n : Nat)
  | fan (n : Nat)
  | advice
  deriving DecidableEq, Repr

/-- One claim on a point: in force, or a reservation by a change that has not taken effect (R31). -/
structure Claim where
  key : Key
  who : Claimer
  pending : Bool
  deriving DecidableEq, Repr

/-- Ticks of 31.25 ns in one microsecond, millisecond and second (R52). -/
abbrev usTicks : Nat := 32
abbrev msTicks : Nat := 32000
abbrev secTicks : Nat := 32000000

/-- The 48-bit microsecond timestamp of package time (R54). -/
def stamp (now : Nat) : BitVec 48 := BitVec.ofNat 48 (now / 32)

/-- Low 32 bits of the microsecond timestamp. -/
def stamp32 (now : Nat) : Word := BitVec.ofNat 32 (now / 32)

end Sys2Proof.Machine
end

