-- ==== Sys2Proof/Machine/StateEngines.lean ====
section
/-!
DEFINITION. The state of the tables, machines, predictor, plans, profile engines, angle trackers, steppers and fans
(R231 to R354).
-/

namespace Sys2Proof.Machine

/-- A user of a table that has its own switch instant (R236, R263, R265): a machine, a slot with a region table, a bus
port with a map or list, the permit predicates. -/
inductive TUser where
  | machine (n : Nat)
  | slot (n : Nat)
  | port (n : Nat)
  | permits
  | panel
  deriving DecidableEq, Repr

/-- A TABLE_COMMIT that has posted ACCEPTED (R235, R236). Empty `bytes` erase the table. -/
structure Commit where
  kind : Nat
  idx : Nat
  bytes : List Byte
  ctx : Ctx
  /-- its flash write has begun, which the checks of R359 come before -/
  started : Bool := false
  /-- its flash write has completed, and these users still use the old copy -/
  written : Bool := false
  old : List Byte := []
  waiting : List TUser := []
  deriving DecidableEq, Repr

/-- The table engine's copies (R233 to R236): active tables and shadows by kind × 1,024 + index. -/
structure Tables where
  active : Tbl (List Byte) := []
  shadow : Tbl (List Byte) := []
  commits : List Commit := []
  deriving DecidableEq, Repr

/-- An action of a machine evaluation, held until its commit (R252). -/
inductive MAct where
  | write (k : Key) (v : Word) (q : Quality)
  | timerStart (n : Nat) (v : Word)
  | timerStop (n : Nat)
  | event (n : Nat)
  | loopMode (slot : Nat) (mode : Nat) (man : Word)
  | fire (engine program : Nat) (param : Word)
  | cancel (engine : Nat)
  | stepMove (unit : Nat) (target : Word)
  | stepStop (unit : Nat)
  deriving DecidableEq, Repr

/-- The held result of a machine evaluation (R251, R252). -/
structure MResult where
  fired : Option (Nat × Nat × Nat) := none
  entered : Bool := false
  acts : List MAct := []
  inputBad : Bool := false
  deriving DecidableEq, Repr

/-- A state machine of the table engine (R245 to R259). -/
structure MachineSt where
  /-- image in force; empty when there is none -/
  image : List Byte := []
  state : Nat := 0
  /-- tick at which the state was committed; while paused, the time in state in ticks (R253) -/
  stateAt : Nat := 0
  heldTicks : Nat := 0
  /-- the first boundary since it entered its state anew has been taken (R253, R258) -/
  started : Bool := false
  paused : Bool := false
  refused : Bool := false
  inputBad : Bool := false
  overrun : Bool := false
  last : Word := 0xFFFFFFFF
  /-- the next evaluation takes the entry actions of the present state and no transition (R257) -/
  entryDue : Bool := false
  /-- MACHINE_CONTROL commands waiting for the boundary, oldest first (R259) -/
  ctl : List (Ctx × Byte) := []
  /-- operands latched for the period under way (R251) -/
  inputs : List (Handle × Rec) := []
  /-- the timers that counted at the latch (TIMER_DONE) -/
  timers : List Nat := []
  latchedAt : Nat := 0
  due : Bool := false
  result : Option MResult := none
  /-- an evaluation that the table engine still runs after its deadline (R59) -/
  late : Bool := false
  /-- local events raised since the previous evaluation (EVENT_SINCE) -/
  since : BitVec 128 := 0
  deriving DecidableEq, Repr

/-- A machine at tile reset. -/
def MachineSt.reset : MachineSt := {}

/-- The reset node record: zero, with the handles none (R269). -/
def nodeRecReset : BitVec 384 :=
  (0x00FFFFFF#384 <<< 64) ||| (0x00FFFFFF#384 <<< 128) ||| (0x00FFFFFF#384 <<< 160) |||
  (0x00FFFFFF#384 <<< 192) ||| (0x00FFFFFF#384 <<< 224)

/-- The identification state of a node (R274 to R277), as binary32 patterns. -/
structure IdentSt where
  theta1 : Word := 0x3F800000
  theta2 : Word := 0x3F800000
  theta3 : Word := 0x3F800000
  /-- the matrix P, row by row -/
  p : List Word := [0x3F800000, 0, 0, 0, 0x3F800000, 0, 0, 0, 0x3F800000]
  lambda : Word := 0x3F7FBE77
  conf : Word := 0
  residual : Word := 0
  frozen : Bool := false
  /-- MEAS value at the last live step, when it was usable -/
  lastMeas : Option Word := none
  /-- IDENT_CONTROLs waiting for the next live step, in order: the MODEL_LOADs taken before it, action and factor -/
  pend : List (Nat × Byte × Word) := []
  deriving DecidableEq, Repr

/-- A thermal node (R268 to R277). -/
structure Node where
  rc : BitVec 384 := nodeRecReset
  temp : Word := 0
  /-- temperature at the start of the last live step and of the one before, which nodes on other tiles read (R272) -/
  prev : Word := 0
  prev2 : Word := 0
  ident : IdentSt := {}
  /-- coupling records by slot, and the last usable value of a kind 2 or 3 point -/
  coup : Tbl (BitVec 96) := []
  lastPt : Tbl Word := []
  /-- sum of the input heat flows in the last live step (R270) -/
  heat : Word := 0
  /-- a host write of item 0 that takes effect at the next live step (R270), after the MODEL_LOADs taken before it -/
  hostTemp : Option (Nat × Word) := none
  deriving DecidableEq, Repr

/-- A node at tile reset. -/
def Node.reset : Node := {}

/-- The reset zone record (R278): zero with SP none. -/
def zoneRecReset : BitVec 256 := 0x00FFFFFF#256 <<< 32

/-- A zone on its host tile (R278 to R297), with binary32 patterns. -/
structure Zone where
  rc : BitVec 256 := zoneRecReset
  prio : Byte := 2
  weight : Byte := 100
  outcome : Nat := 0
  frac : Word := 0
  spBad : Bool := false
  demand : Word := 0
  deriving DecidableEq, Repr

/-- A zone at tile reset. -/
def Zone.reset : Zone := {}

/-- A pending MODEL_LOAD (R269). -/
structure PendModel where
  ctx : Ctx
  part : Nat
  first : Nat
  recs : List Byte
  /-- its number among the MODEL_LOADs that the tile has taken -/
  num : Nat := 0
  deriving DecidableEq, Repr

/-- Sums of the zones of one tile (R296): total F, comfort parts and weighted comfort parts by class. -/
structure Sums where
  f : Word := 0
  d : List Word := [0, 0, 0, 0]
  wd : List Word := [0, 0, 0, 0]
  deriving DecidableEq, Repr

/-- The advice VARs of a tile (R290). -/
structure Advice where
  /-- first of the three VARs -/
  var : Nat := 0
  /-- plan ID and expiry, in ticks, of the LATENT advice in the VARs -/
  latent : Option (Word × Nat) := none
  /-- expiry of the last FIX advice, in ticks, until it lapses -/
  fixedUntil : Option Nat := none
  /-- a FIX has been received, and its values -/
  got : Bool := false
  values : List Word := [0, 0, 0]
  deriving DecidableEq, Repr

/-- The predictor of one tile. -/
structure Predictor where
  nodes : Tbl Node := []
  zones : Tbl Zone := []
  pend : List PendModel := []
  /-- MODEL_LOADs taken -/
  loads : Nat := 0
  /-- sums of the last live step and of the one before, and the tick of the last one (R296) -/
  sums : Sums := {}
  sumsPrev : Sums := {}
  liveAt : Option Nat := none
  /-- some zone was curtailed or refused at the last live step (R297) -/
  anyShort : Bool := false
  advice : Advice := {}
  /-- this tile's share of the latent cost (R294) -/
  latentCost : Word := 0
  deriving DecidableEq, Repr

/-- A plan (R284): offsets in 0.1 K by knot, allowance mask, its span in seconds of package time; and what its simulation
gave: node temperatures at planning boundaries, by second and tile × 1,024 + node (R270), and by zone the comfort cost
(R281) and whether it was curtailed (R294). -/
structure Plan where
  id : Word
  bracket : Nat
  supply : List Int
  mask : BitVec 64
  zones : Tbl (List Int)
  start : Nat
  len : Nat
  temps : Tbl (Tbl Word) := []
  comfort : Tbl Word := []
  short : List Nat := []
  deriving DecidableEq, Repr

/-- What the simulation of a bracket gave (R286, R287). -/
structure BracketDone where
  total : Word
  tileCosts : Tbl Word
  temps : Tbl (Tbl Word)
  comfort : Tbl Word
  short : List Nat
  deriving DecidableEq, Repr

/-- An evaluation under way (R286): its boundary in seconds of package time, the civil time there, the brackets, the nodes
and zones of every tile and the base setpoints as latched, and what the brackets simulated so far gave. -/
structure Eval where
  n : Nat
  civil : Nat
  brackets : List Plan
  nodes : Tbl (Tbl Node)
  zones : Tbl (Tbl Zone)
  setpoints : Tbl Word
  sums : Tbl Sums
  done : List BracketDone := []
  deriving DecidableEq, Repr

/-- Planning in the package (R282 to R294). -/
structure Planner where
  record : Option (BitVec 256) := none
  /-- the forecast block as last copied to the tiles (R289) -/
  forecast : List Rec := []
  fixed : Option Plan := none
  latent : Option Plan := none
  latentCost : Word := 0
  /-- the latent plan was named by these PLAN_FIX commands (R293) -/
  fixers : List Ctx := []
  eval : Option Eval := none
  nextId : Word := 1
  /-- plan IDs have wrapped: every ID has been issued -/
  wrapped : Bool := false
  /-- plans that were fixed (R124) -/
  fixedIds : List Word := []
  short : Bool := false
  abandoned : Bool := false
  noFinite : Bool := false
  /-- tick of the last planning boundary -/
  boundaryAt : Option Nat := none
  deriving DecidableEq, Repr

/-- Where a fire came from (R300, R309). -/
inductive FireSrc where
  | command (c : Ctx)
  | action (machine : Nat)
  | angle (tracker : Nat)
  deriving DecidableEq, Repr

/-- A fire that is held (R309). -/
structure Held where
  program : Byte
  param : Word
  src : FireSrc
  deriving DecidableEq, Repr

/-- A detect window (R306, R307). -/
structure Window where
  askedAt : Nat
  endAt : Nat
  rate : Nat
  depth : Nat
  gain : Nat
  opened : Bool := false
  openAt : Nat := 0
  first : Bool := true
  /-- number of the next sample -/
  samples : Nat := 0
  peak : Nat := 0
  tPeak : Nat := 0
  deriving DecidableEq, Repr

/-- What a profile engine is doing (R309, R312). -/
inductive EnginePhase where
  | idle | running | shutter
  deriving DecidableEq, Repr

/-- The instruction under way in a profile (R303, R305). -/
structure EngineRun where
  pc : Nat := 0
  counter : Nat := 0
  /-- a DRIVE or CHOP is under way up to this tick -/
  endAt : Nat := 0
  untilArrival : Bool := false
  chop : Bool := false
  fast : Bool := false
  toff : Nat := 0
  tOn : Nat := 0
  tOff : Nat := 0
  arrived : Bool := false
  closedEmpty : Bool := false
  window : Option Window := none
  /-- flags and arrival of the profile under way (R311) -/
  flags : Word := 0
  arrival : Word := 0xFFFFFFFF
  deriving DecidableEq, Repr

/-- A profile engine (R298 to R313). -/
structure Engine where
  phase : EnginePhase := .idle
  program : Byte := 0xFF
  binding : Option Word := none
  gateA : Bool := false
  gateB : Bool := false
  src : Option FireSrc := none
  startAt : Nat := 0
  shutterMs : Nat := 5
  shutterEnd : Nat := 0
  run : EngineRun := {}
  held : Option Held := none
  arrival : Word := 0xFFFFFFFF
  flags : Word := 0
  runs : Word := 0
  noArrivals : Word := 0
  aborted : Word := 0
  deriving DecidableEq, Repr

/-- An engine at tile reset. -/
def Engine.reset : Engine := {}

/-- An angle firing that is pending (R322). -/
structure Firing where
  at_ : Nat
  engine : Nat
  program : Byte
  deriving DecidableEq, Repr

/-- Tracker states (R317). -/
inductive TrackState where
  | off | unsync | tracking | sync
  deriving DecidableEq, Repr

/-- The code of a tracker state (R317). -/
def TrackState.code : TrackState → Nat
  | .off => 0 | .unsync => 1 | .tracking => 2 | .sync => 3

/-- Tooth times of a tracker (R318 to R320). -/
structure Teeth where
  /-- tick of the last edge, rejected or not, and of the last that was not less than 5 µs after another (R316, R318) -/
  edgeAt : Option Nat := none
  lastEdge : Option Nat := none
  lastInterval : Option Nat := none
  clean : Nat := 0
  /-- a gap among the clean intervals -/
  gapSeen : Bool := false
  period : Nat := 0
  /-- last real tooth, last real or synthetic tooth, its position, and positions passed since the last real tooth -/
  lastReal : Nat := 0
  last : Nat := 0
  pos : Nat := 0
  sinceReal : Nat := 0
  /-- TRACKING: teeth counted without a known tooth 0; the second window is open -/
  second : Bool := false
  anomalies : Nat := 0
  deriving DecidableEq, Repr

/-- An angle tracker (R314 to R324). -/
structure Tracker where
  cfg : BitVec 128 := 0
  configured : Bool := false
  state : TrackState := .off
  teeth : Teeth := {}
  schedule : List Word := []
  pendSchedule : Option (List Word) := none
  firings : List Firing := []
  synthetic : Word := 0
  rejected : Word := 0
  suppressed : Word := 0
  losses : Word := 0
  deriving DecidableEq, Repr

/-- A tracker at tile reset. -/
def Tracker.reset : Tracker := {}

/-- The states of a stepper unit (R339). -/
inductive StepState where
  | unconfigured | standstill | moving | dwell | homing
  deriving DecidableEq, Repr

/-- The code of a stepper state (R339). -/
def StepState.code : StepState → Nat
  | .unconfigured => 0 | .standstill => 1 | .moving => 2 | .dwell => 3 | .homing => 4

/-- The command outstanding at a stepper unit (R125). -/
inductive StepCmd where
  | move (s : FireSrc)
  | stop (s : FireSrc)
  | home (c : Ctx)
  deriving DecidableEq, Repr

/-- A stepper unit (R326 to R339). -/
structure Stepper where
  cfg : BitVec 256 := 0xFFFF#256 <<< 32
  state : StepState := .unconfigured
  pos : Int := 0
  target : Int := 0
  dir : Int := 0
  a : Nat := 0
  /-- copy of the ramp curve taken at the start (R330) -/
  ramp : List Byte := []
  nextAt : Nat := 0
  holdAt : Option Nat := none
  homeDir : Int := 0
  homeSteps : Nat := 0
  /-- a home that waits for standstill (R335) -/
  homeNext : Option (Ctx × Int) := none
  /-- a home that a newer command supersedes at its next step (R335) -/
  homeStop : Bool := false
  cmd : Option StepCmd := none
  flags : Word := 0
  steps : Word := 0
  reversals : Word := 0
  moves : Word := 0
  deriving DecidableEq, Repr

/-- A stepper unit at tile reset. -/
def Stepper.reset : Stepper := {}

/-- The states of a fan unit (R351). -/
inductive FanState where
  | unconfigured | off | starting | running | backoff | blocked | openLoop | baseline
  deriving DecidableEq, Repr

/-- The code of a fan state (R351). -/
def FanState.code : FanState → Nat
  | .unconfigured => 0 | .off => 1 | .starting => 2 | .running => 3 | .backoff => 4 | .blocked => 5
  | .openLoop => 6 | .baseline => 7

/-- The reset fan configuration record (R340). -/
def fanCfgReset : BitVec 256 := (0xFF#256 <<< 24) ||| (3#256 <<< 64) ||| (0x00FFFFFF#256 <<< 160)

/-- A baseline capture under way (R348). -/
structure Capture where
  level : Nat := 0
  levelEnd : Nat := 0
  ctx : Ctx
  pairs : List (Int × Int) := []
  deriving DecidableEq, Repr

/-- A fan unit (R340 to R354). -/
structure Fan where
  cfg : BitVec 256 := fanCfgReset
  state : FanState := .unconfigured
  flags : BitVec 16 := 0x0020
  attempts : Nat := 0
  demand : Int := 0
  applied : Int := 0
  speed : Int := 0
  /-- ticks of the tachometer edges, newest first, and the 250 ms samples of speed, SUPPLY and drive measure -/
  edges : List Nat := []
  samples : List (Nat × Int × Option Int × Option Int) := []
  /-- end of the start window, of the backoff, of the second of R345, and since when the tachometer is good -/
  until_ : Nat := 0
  lostAt : Option Nat := none
  goodSince : Option Nat := none
  /-- tick of the last ageing sample -/
  agedAt : Nat := 0
  mGood : Option Int := none
  suspended : Bool := false
  capture : Option Capture := none
  /-- ageing index as binary32, and whether one has been taken since the baseline -/
  index : Option Word := none
  failed : Word := 0
  /-- running time, counted up to tick `countedAt`, and whether it counts since (R352) -/
  runTicks : Nat := 0
  countedAt : Nat := 0
  counts : Bool := false
  starts : Word := 0
  deriving DecidableEq, Repr

/-- A fan unit at tile reset. -/
def Fan.reset : Fan := {}

end Sys2Proof.Machine
end

