-- ==== Sys2Proof/Machine/StateFront.lean ====
section
/-!
DEFINITION. The state of the channels, the converters and the loop engine of one tile (R133 to R230).
-/

namespace Sys2Proof.Machine

/-- The output states of a channel (R154). -/
inductive OutState where
  | run | hold | safelight | off
  deriving DecidableEq, Repr

/-- The code of OUT_STATE (R163). -/
def OutState.code : OutState → Nat
  | .run => 0 | .hold => 1 | .safelight => 2 | .off => 3

/-- The reset value of the channel configuration record: every field 0 but CURVE 0xFFFF (R162). -/
def chanCfgReset : BitVec 256 := 0xFFFF#256 <<< 128

/-- Drive and comparator of a channel (R133, R140). -/
structure ChanDrive where
  /-- the drive command was last written in the CHE form -/
  eng : Bool := false
  /-- the drive command, in the form it was written -/
  cmd : Word := 0
  /-- time and quality of CHR and CHE sub 3 -/
  time : BitVec 48 := 0
  q : Quality := .offline
  /-- THRESHOLD DAC code in force (R163) -/
  thr : BitVec 10 := 0
  /-- comparator output, and the tick of its last change -/
  cmp : Bool := false
  cmpAt : Nat := 0
  /-- ticks at which breaks of the pad began, newest first, and that of the last change of MODE (R158, R177) -/
  breaks : List Nat := []
  modeAt : Nat := 0
  /-- what the hold latch keeps: the drive command and the PWM frequency at entry to Hold (R154) -/
  held : Word := 0
  heldEng : Bool := false
  heldHz : Nat := 0
  /-- tick of the last counted edge in pulse input mode (R133) -/
  pulseAt : Option Nat := none
  deriving DecidableEq, Repr

/-- A sensor fault condition of a sensing channel: whether it holds, and the samples in a row that met it and, while it holds,
that did not (R141, R142). -/
structure SensorCond where
  holds : Bool := false
  met : Nat := 0
  unmet : Nat := 0
  deriving DecidableEq, Repr

/-- Protection of a channel (R143 to R153). -/
structure ChanProt where
  faults : BitVec 10 := 0
  faultTime : Word := 0
  atLimit : Bool := false
  /-- the blanking window is open up to this tick -/
  blankUntil : Nat := 0
  isolated : Bool := false
  isolatedAt : Nat := 0
  /-- ticks at which the pin of an open switch was last found outside its window, and at which the switch last closed (R144) -/
  outsideAt : Nat := 0
  closedAt : Nat := 0
  /-- turned off by a trip, and whether the thermal budget did it -/
  tripped : Bool := false
  thermal : Bool := false
  /-- tick of the last turn-off, of the last start, and since when the drive has run without a turn-off -/
  tripAt : Nat := 0
  startAt : Nat := 0
  attempts : Byte := 0
  vhvOff : Bool := false
  /-- the conditions BAD_OPEN and BAD_SHORT (R142) -/
  opened : SensorCond := {}
  shorted : SensorCond := {}
  /-- tick at which the drive last came back on after a turn-off -/
  onAt : Nat := 0
  /-- protection path readings: mV, µA, dissipation estimate in nW (R152, R163), and the estimate at the last turn-off by
  the thermal budget (R153) -/
  pinMv : Int := 0
  uA : Int := 0
  dissNw : Nat := 0
  tripDiss : Nat := 0
  deriving DecidableEq, Repr

/-- One universal channel (R133 to R163). -/
structure Chan where
  cfg : BitVec 256 := chanCfgReset
  /-- a CHANNEL_CONFIG has configured it since tile reset (R156) -/
  configured : Bool := false
  out : OutState := .off
  /-- tick at which the hold limit expires, while in Hold (R43) -/
  holdUntil : Nat := 0
  /-- safelight entry in force while in Safelight (R160) -/
  safe : BitVec 128 := 0
  drive : ChanDrive := {}
  prot : ChanProt := {}
  deriving DecidableEq, Repr

/-- A channel at tile reset. -/
def Chan.reset : Chan := {}

/-- Sequence states (R188). -/
inductive SeqState where
  | stopped | armed | running | interrupted | lent | waiting
  deriving DecidableEq, Repr

/-- The code of a sequence state (R188). -/
def SeqState.code : SeqState → Nat
  | .stopped => 0 | .armed => 1 | .running => 2 | .interrupted => 3 | .lent => 4 | .waiting => 5

/-- A regular or injected sequence (R167 to R174). -/
structure Sequence where
  entries : List (BitVec 64) := []
  mode : Byte := 0
  trig : Byte := 0
  state : SeqState := .stopped
  /-- entry under way -/
  idx : Nat := 0
  /-- tick of the switching clock of the entry under way -/
  entryAt : Nat := 0
  /-- a pass has completed in mode 1 (R190) -/
  onceDone : Bool := false
  /-- run mode that takes over at the end of the pass (R173) -/
  next : Option (Byte × Byte) := none
  /-- reference of the entry under way, selected at its switching clock (R182) -/
  ref : BitVec 2 := 0
  deriving DecidableEq, Repr

/-- An entry that has ended and whose result is not yet written (R166): its sequence and place in it, and the ticks of its
switching clock and of the switching clock that follows it. -/
structure EndedEntry where
  inj : Bool
  idx : Nat
  entry : BitVec 64
  ref : BitVec 2
  began : Nat
  last : Nat
  deriving DecidableEq, Repr

/-- A converter (R164 to R191). -/
structure Adc where
  reg : Sequence := {}
  inj : Sequence := {}
  drops : BitVec 16 := 0
  /-- selected reference (R182) and reference of the entry run last (R165) -/
  ref : BitVec 2 := 0
  lastRef : BitVec 2 := 0
  /-- the references selected before, with the ticks at which they were, newest first (R182) -/
  refs : List (Nat × BitVec 2) := []
  /-- ADC B stays idle until the interleaved entry of ADC A that an urgent trigger broke has ended (R186) -/
  idle : Bool := false
  /-- ADC B is held by a detect window of this engine (R187) -/
  detect : Option Nat := none
  /-- entries whose results the next entries overlap, oldest first (R165, R166) -/
  ended : List EndedEntry := []
  deriving DecidableEq, Repr

/-- The converters and references of a tile. -/
structure Converters where
  a : Adc := {}
  b : Adc := {}
  /-- settled flags: bit 0 internal, bit 1 REFIO, bit 2 VANA (R183) -/
  settled : BitVec 3 := 0
  /-- event 34 has been raised for that reference since it was last settled (R184) -/
  skipped : BitVec 3 := 0
  /-- tick at which the internal reference was enabled (R183) -/
  enabledAt : Nat := 0
  /-- ticks at which the flags of REFIO and VANA cleared last (R184) -/
  lostRefio : Nat := 0
  lostVana : Nat := 0
  deriving DecidableEq, Repr

/-- A latched input (R204): the last record, none for a remote read not yet returned. -/
abbrev Latch := Option Rec

/-- The state of the law of a slot (R208 to R213). -/
structure LawSt where
  uPrev : Int := 0
  integ : Int := 0
  xPrev : Int := 0
  df : Int := 0
  ePrev : Int := 0
  cPrev : Int := 0
  uLast : Int := 0
  x1 : Int := 0
  x2 : Int := 0
  n : Nat := 0
  on : Bool := false
  sel : Nat := 0
  uPrevIn : Int := 0
  e : Int := 0
  region : Nat := 0
  deriving DecidableEq, Repr

/-- The last usable values of the inputs of a slot (R204, R225). -/
structure LastIn where
  a : Int := 0
  b : Int := 0
  c : Int := 0
  d : Int := 0
  deriving DecidableEq, Repr

/-- The held result of an evaluation (R206): new state, outputs, flags, and the values of items 0 to 2 and 7. -/
structure EvalOut where
  law : LawSt
  last : LastIn
  out : Word
  out2 : Word
  flags : BitVec 7
  badHeld : Bool
  item6 : Word
  item7 : Word
  deriving DecidableEq, Repr

/-- A pending LOOP_WRITE or LOOP_MODE, with the commands that wait for it (R122). -/
structure PendSlot where
  desc : BitVec 512
  write : Option Ctx
  mode : Option Ctx
  /-- the descriptor of the LOOP_WRITE alone, for a LOOP_MODE after it that is denied at its commit instant (R472) -/
  asWritten : BitVec 512 := desc
  deriving DecidableEq, Repr

/-- The reset descriptor (R196, R199): zero but MODE 3, GAIN_TABLE 0xFFFF and the six handles none. -/
def slotDescReset : BitVec 512 :=
  (3#512 <<< 12) ||| (0xFFFF#512 <<< 320) ||| (0x00FFFFFF#512 <<< 32) ||| (0x00FFFFFF#512 <<< 64) |||
  (0x00FFFFFF#512 <<< 96) ||| (0x00FFFFFF#512 <<< 128) ||| (0x00FFFFFF#512 <<< 160) ||| (0x00FFFFFF#512 <<< 192)

/-- A loop slot (R196 to R228). -/
structure Slot where
  desc : BitVec 512 := slotDescReset
  pend : Option PendSlot := none
  /-- a change that moved the slot to another group at this boundary of the old one, and waits for one of the new (R207) -/
  moved : Option (PendSlot × Nat) := none
  law : LawSt := {}
  last : LastIn := {}
  fresh : Bool := true
  reseed : Bool := false
  evaluatedOnce : Bool := false
  flags : BitVec 7 := 0
  badHeld : Bool := false
  /-- inputs A to D and the scheduling point as latched at the last boundary -/
  inA : Latch := none
  inB : Latch := none
  inC : Latch := none
  inD : Latch := none
  sched : Latch := none
  /-- latched for the period under way, and its held result -/
  due : Bool := false
  result : Option EvalOut := none
  /-- an evaluation that the loop engine still runs after its deadline (R206) -/
  late : Bool := false
  deriving DecidableEq, Repr

/-- A slot at tile reset. -/
def Slot.reset : Slot := {}

/-- A pending RATE_GROUP_CONFIG (R62, R122). -/
structure PendGroup where
  enable : Bool
  n : Word
  ctx : Ctx
  deriving DecidableEq, Repr

/-- A rate group (R57 to R64). -/
structure Group where
  enabled : Bool := false
  /-- period in units of 31.25 µs (R57); 0 until first configured -/
  n : Word := 0
  pend : Option PendGroup := none
  /-- first boundary at or after which the period in force counts (R62) -/
  firstAt : Nat := 0
  /-- boundary at which work was latched, and whether any is under way -/
  latchedAt : Nat := 0
  working : Bool := false
  /-- steps 1 to 3 of R205 have been made for this tick -/
  committedAt : Option Nat := none
  latchDoneAt : Option Nat := none
  /-- keys of remote inputs of this group whose reads have not returned (R60, R61), and when the work could begin (R59) -/
  awaited : List Handle := []
  readyAt : Nat := 0
  /-- completions of the last second: tick and slack in 0.1 % (R75), and the last one recorded -/
  slacks : List (Nat × Nat) := []
  lastSlack : Option Nat := none
  overruns : Word := 0
  deriving DecidableEq, Repr

/-- A group at tile reset. -/
def Group.reset : Group := {}

/-- The core voltage governor (R70 to R74). The core regulator reaches 1.00 V at a boot, and the governor takes over there
(R365). -/
structure Governor where
  ceil : BitVec 16 := 1000
  floor : BitVec 16 := 600
  slackFloor : BitVec 16 := 250
  vcore : BitVec 16 := 1000
  overrides : Word := 0
  /-- a ceiling set below VCORE has not been reached yet (R73) -/
  toCeil : Bool := false
  lastRaise : Option Nat := none
  lastStep : Option Nat := none
  settleAt : Nat := 0
  settling : Bool := false
  /-- end of the last 10 ms window that was judged -/
  windowAt : Nat := 0
  /-- in the 10 ms window under way: every completion above 50 %, every one at or above the slack floor, no overrun -/
  allHigh : Bool := true
  allFloor : Bool := true
  noOverrun : Bool := true
  /-- lowest planning slack over the last planning cycle (SYS 28) -/
  planSlack : Word := 1000
  deriving DecidableEq, Repr

end Sys2Proof.Machine
end

