-- ==== Sys2Proof/Machine/StateShared.lean ====
section
/-!
DEFINITION. The state of the rings, events, counters, supplies, policies, entropy source and fabric of one tile, and of
the ports and package-wide units (R13 to R132, R355 to R512).
-/

namespace Sys2Proof.Machine

/-- A completion on its way to the sender of its command (R97, R101). -/
structure Completion where
  src : Source
  opcode : Byte
  status : Byte
  tile : Nat
  final : Bool
  untagged : Bool := false
  payload : List Byte := []
  deriving DecidableEq, Repr

/-- What holds a flight table entry (R34): a command or a fabric request. -/
inductive Work where
  | command (i : Instr)
  | request (r : FabricReq)
  deriving DecidableEq, Repr

/-- A flight table entry (R34 to R36): class of the request, partition it was taken from, and whether it has
started. -/
structure Flight where
  work : Work
  cls : Nat
  part : Nat
  order : Nat
  started : Bool := false
  /-- for a RING_READ, the ring's next sequence number when it was admitted (R396) -/
  latch : Option Nat := none
  deriving DecidableEq, Repr

/-- A request in an admission queue (R37, R38), with the tick of its admission limit. -/
structure Waiting where
  work : Work
  cls : Nat
  limit : Nat
  order : Nat
  deriving DecidableEq, Repr

/-- The states of a tile (R42). -/
inductive TileState where
  | online | holding | offline | restarting
  deriving DecidableEq, Repr

/-- The code of SYS 1 (R26). -/
def TileState.code : TileState → Nat
  | .online => 0 | .holding => 1 | .offline => 2 | .restarting => 3

/-- The events of a tile (R403 to R407). -/
structure Events where
  pending : BitVec 128 := 0
  masked : BitVec 128 := 0
  raised : BitVec 128 := 0
  counts : Tbl Nat := []
  /-- tick of the last raise, and of the last write to ring 0, by event -/
  lastAt : Tbl Nat := []
  ringAt : Tbl Nat := []
  /-- events raised since the previous permit evaluation, for EVENT_SINCE of a permit term (R265) -/
  permitSince : BitVec 128 := 0
  deriving DecidableEq, Repr

/-- One stored ring entry: sequence number, the 8 bytes, and its instant in µs (R387, R388, R395). -/
structure RingEntry where
  seq : Nat
  bits : BitVec 64
  time : Nat
  deriving DecidableEq, Repr

/-- A configured ring (R384 to R399). -/
structure Ring where
  desc : BitVec 128
  /-- offset of its block in the entry pool (R401) -/
  block : Nat := 0
  nextSeq : Nat := 1
  entries : List RingEntry := []
  overflows : Word := 0
  lost : Word := 0
  /-- the next entry needs an anchor before it (R388, R421) -/
  anchor : Bool := true
  lastUs : Nat := 0
  /-- value and quality of the last point entry, for the on-change trigger (R390) -/
  lastRec : Option (Word × Quality) := none
  /-- sequence number that was next at the last discard (R397) -/
  resetSeq : Nat := 0
  /-- tick of the last on-period trigger -/
  trigAt : Option Nat := none
  deriving DecidableEq, Repr

/-- A read of a remote ring source that has not returned (R390): ring, trigger instant and limit. -/
structure RingWait where
  ring : Nat
  at_ : Nat
  limit : Nat
  /-- the record that will be written when every earlier trigger of the ring has been (R391) -/
  got : Option Rec := none
  deriving DecidableEq, Repr

/-- The rings of a tile (R381 to R402). -/
structure Rings where
  rings : Tbl Ring := []
  /-- next sequence number of rings that were deconfigured since tile reset (R395) -/
  seqs : Tbl Nat := []
  waits : List RingWait := []
  /-- PSRAM size in KiB as the device answers at boot (R400) -/
  kib : Nat := 8192
  written : Word := 0
  lostWrites : Word := 0
  /-- the write queue at its guaranteed rate (R393), in 1/192 of an entry, the tick for which it stands, and how often an entry
  has found it full -/
  queued : Nat := 0
  queuedAt : Nat := 0
  fullCtr : Nat := 0
  deriving DecidableEq, Repr

/-- A programmable counter (R499 to R508). -/
structure Ctr where
  mode : Byte := 0
  src : Byte := 0
  sel : Byte := 0
  window : Word := 0
  value : BitVec 48 := 0
  wrap : Bool := false
  chained : Bool := false
  valid : Bool := false
  setAt : Nat := 0
  windowAt : Nat := 0
  /-- the evaluating ticks of the token under way, for selector 4 (R502) -/
  part : Nat := 0
  /-- the bytes received and sent in the window with a number, for a port that the model runs (R504) -/
  winNo : Nat := 0
  bytesIn : Nat := 0
  bytesOut : Nat := 0
  deriving DecidableEq, Repr

/-- A counter at tile reset. -/
def Ctr.reset : Ctr := {}

/-- A loupe sample (R511). -/
structure Sample where
  no : BitVec 16
  bits : BitVec 112
  deriving DecidableEq, Repr

/-- Counters and loupe of a tile (R499 to R511). -/
structure Counters where
  fixed : BitVec 64 := 0
  ctrs : Tbl Ctr := []
  /-- counters whose 48 bits have passed 2^48 − 1 and whose COUNTER_WRAP has not been taken (R505, R506), with whether that was in a
  chain phase -/
  carries : List (Nat × Bool) := []
  /-- how often work of the tile processor has been abandoned -/
  abandons : Nat := 0
  loupeK : Byte := 0
  loupeSrc : Byte := 0xFF
  /-- tokens that left the watched stage since LOUPE_CONFIG, next sample number, samples taken and held -/
  tokens : Nat := 0
  nextNo : BitVec 16 := 0
  taken : Word := 0
  held : List Sample := []
  /-- SELF_TEST commands under way, with their masks, oldest first (R129) -/
  tests : List (Ctx × Word) := []
  deriving DecidableEq, Repr

/-- Supplies and temperatures of a tile (R355 to R371). -/
structure Supply where
  powerFail : Bool := false
  stopBath : Bool := false
  holdCharged : Bool := false
  vhvLow : Bool := false
  rtcLost : Bool := false
  holdup : Bool := false
  lowCount : Word := 0
  tempCount : Word := 0
  /-- what the four die sensors would read, Q16.16 °C, and whether the last measurement found one outside the window -/
  die : List Word := [0x00190000, 0x00190000, 0x00190000, 0x00190000]
  outside : Bool := false
  /-- VRTC was lost since the last reset: RTC_LOST from the next one on -/
  vrtcGone : Bool := false
  /-- tick of the last rate-of-rise sample -/
  sampledAt : Option Nat := none
  deriving DecidableEq, Repr

/-- A rate-of-rise monitor (R372, R373). -/
structure Monitor where
  /-- usable samples, newest first -/
  samples : List Int := []
  runOver : Nat := 0
  under : Nat := 0
  exceeded : Bool := false
  invalid : Bool := false
  /-- its words were written since the last sample, and a write of word +0 with LATCH (R372) -/
  dirty : Bool := false
  unlatch : Bool := false
  deriving DecidableEq, Repr

/-- A monitor at tile reset. -/
def Monitor.reset : Monitor := {}

/-- A port policy (R469, R470). -/
structure Policy where
  epoch : BitVec 16 := 1
  commands : Word := 0
  rules : List (BitVec 64) := []
  deriving DecidableEq, Repr

/-- The rule that covers every class, tile and index with rights `rights` (R470). -/
def ruleAll (rights : Nat) : BitVec 64 := BitVec.ofNat 64 (0xFF + rights * 256 + 0xFFFF * 65536 + 0xFFFF * 281474976710656)

/-- The rule for one class with rights `rights` on every tile and index. -/
def ruleClass (cls rights : Nat) : BitVec 64 :=
  BitVec.ofNat 64 (cls + rights * 256 + 0xFFFF * 65536 + 0xFFFF * 281474976710656)

/-- The policies that ship, by port (R473). -/
def shippedPolicy : Nat → Policy
  | 0 => { epoch := 1, commands := 0x0003FFFF, rules := [ruleAll 7] }
  | 1 => { epoch := 1, commands := 0x0003FFFF, rules := [ruleAll 7] }
  | 4 => { epoch := 1, commands := 0, rules := [] }
  | _ => { epoch := 1, commands := 0, rules := [ruleAll 1, ruleClass 7 2, ruleClass 12 2] }

/-- An ENTROPY_READ that waits for bits (R479). -/
structure EntropyWait where
  ctx : Ctx
  bytes : Nat
  until_ : Nat
  deriving DecidableEq, Repr

/-- The entropy source of a tile (R476 to R479). -/
structure Entropy where
  pool : List Byte := []
  /-- the last raw sample and how often it has repeated without a break (R476) -/
  last : Bool := false
  run : Nat := 0
  started : Bool := false
  ready : Bool := false
  failed : Bool := false
  failures : List Nat := []
  waits : List EntropyWait := []
  deriving DecidableEq, Repr

/-- The states of the negative (R453). -/
inductive NegState where
  | empty | downloading | staged | retained | rejected
  deriving DecidableEq, Repr

/-- An image in a slot (R453, R454): the versions its header declares, and its bytes, empty for the image that
ships. -/
structure Image where
  version : Word := 0x01040000
  schema : BitVec 16 := 5
  epoch : BitVec 16 := 2
  proto : BitVec 16 := 3
  protoMin : BitVec 16 := 2
  bytes : List Byte := []
  deriving DecidableEq, Repr

/-- The image slots of a tile (R453), and the versions of its stored settings and tables (R466). -/
structure Slots where
  printIsA : Bool := true
  print : Image := {}
  neg : Image := {}
  negState : NegState := .retained
  schema : BitVec 16 := 5
  epoch : BitVec 16 := 2
  deriving DecidableEq, Repr

/-- A request that a tile has issued into the fabric and whose reply has not returned (R46 to R49, R61). -/
structure Outstanding where
  req : FabricReq
  sentAt : Nat
  limit : Nat
  /-- the target has performed or refused it: status and record -/
  reply : Option FabReply := none
  /-- the tick at which it did (R48) -/
  repliedAt : Nat := 0
  deriving DecidableEq, Repr

/-- A FABRIC_PROBE under way (R132). -/
structure Probe where
  ctx : Ctx
  /-- number of the request that is out -/
  req : Nat
  dest : Nat
  left : Nat
  done : Nat := 0
  minNs : Nat := 0xFFFFFFFF
  maxNs : Nat := 0
  deriving DecidableEq, Repr

/-- Fabric, flight table and standing of a tile (R13 to R51). -/
structure Fabric where
  flights : List Flight := []
  queue : List Waiting := []
  out : List Outstanding := []
  nextId : Nat := 0
  nextOrder : Nat := 0
  probes : List Probe := []
  /-- bridges marked down by this end, by peer tile (R17) -/
  down : List Nat := []
  repeats : Word := 0
  discarded : Word := 0
  overridden : Word := 0
  policyRefused : Word := 0
  /-- service port packets discarded or dropped while this tile was the lead (R452) -/
  svcDropped : Word := 0
  /-- incarnation last learned of each tile, and records of remote points by handle (R46, R533) -/
  learned : Tbl Byte := []
  copies : Tbl Rec := []
  deriving DecidableEq, Repr

/-- Boot, reset and restart of a tile (R42, R45, R50, R363 to R367). -/
structure Boot where
  state : TileState := .restarting
  incarnation : Byte := 1
  faultCode : Word := 0
  resetCause : Nat := 0
  bootAt : Nat := 0
  bootMs : Word := 0
  /-- the boot under way follows a reset, not a restart -/
  fromReset : Bool := true
  /-- TILE_STATE actions 2 that wait for the tile (R117) -/
  restartFor : List Ctx := []
  /-- channels kept in Off by R161, and safelight entries written since -/
  safeBad : Bool := false
  safeSeen : BitVec 32 := 0
  /-- the instruction of the TAP, and its code in the 5-bit instruction register (R528) -/
  tap : TapInstr := .idcode
  tapIr : BitVec 5 := Config.tapCode .idcode
  /-- the tile has left service and its offline mark has not been made, with the TILE_STATE actions 1 that wait for it -/
  marking : Bool := false
  /-- a tile reset of its own is under way, which clears the tile at the mark -/
  resetting : Bool := false
  offlineFor : List Ctx := []
  /-- the incarnation register has lost its number (R45) -/
  incLost : Bool := true
  deriving DecidableEq, Repr

/-- A permit output (R264, R265, R375). -/
structure Permit where
  enabled : Bool := false
  pred : BitVec 16 := 0
  permitted : Bool := false
  high : Bool := false
  /-- tick of the last pulse edge that was due -/
  pulseAt : Option Nat := none
  deriving DecidableEq, Repr

/-- A permit at reset. -/
def Permit.reset : Permit := {}

/-- The settings area of a tile of the pair (R375, R418, R466): the permits' enables and predicates, and the tether
configuration. Of a permit only those two count. -/
structure Settings where
  permits : Tbl Permit := []
  tether : BitVec 128 := 1
  share : Byte := 0
  deriving DecidableEq, Repr

/-- What a tile keeps in flash beside its tables and images (R160, R348, R475). -/
structure Flash where
  safelight : Tbl (BitVec 128) := []
  /-- the CRC-32C stored with the safelight table -/
  safeCrc : BitVec 32 := 0x03273801
  baselines : Tbl (List (Int × Int)) := []
  ownerLock : Bool := false
  /-- its settings area where that differs from the lead's (R359, R466) -/
  settings : Option Settings := none
  /-- writes made so far, which wear its sectors (R101, R112) -/
  writes : Nat := 0
  deriving DecidableEq, Repr

/-- A bulk buffer that holds data (R96). -/
structure Bulk where
  data : List Byte
  until_ : Nat
  deriving DecidableEq, Repr

/-- What waits for a free bulk buffer (R96): a command, or the reply record and data of a command that the other package has
performed. -/
inductive BulkWork where
  | command (i : Instr)
  | delivery (c : Completion) (data : List Byte)
  deriving DecidableEq, Repr

/-- Work of tile `tile` that waits for a free bulk buffer (R96): its number in the tile's admission order, and its
admission limit. -/
structure BulkWait where
  tile : Nat
  order : Nat
  work : BulkWork
  limit : Nat
  deriving DecidableEq, Repr

/-- An outstanding tag (R41, R104), with the target of its command and whether it is ORDERED. -/
structure OutTag where
  tag : BitVec 16
  opcode : Byte
  tile : Nat
  order : Nat
  ordered : Bool
  deriving DecidableEq, Repr

/-- Counters of the contact sheet that the fabric and the governors count (R73, R85). -/
structure PkgCounts where
  refused1 : Word := 0
  refused2 : Word := 0
  refused3 : Word := 0
  overrides : Word := 0
  deriving DecidableEq, Repr

/-- Counters of the contact sheet that the host port counts (R85). -/
structure HpCounts where
  refusedTags : Word := 0
  badCheck : Word := 0
  subLost : Word := 0
  bulkExpired : Word := 0
  errors : Word := 0
  deriving DecidableEq, Repr

/-- A lead handover under way (R20). -/
structure Handover where
  ctx : Option Ctx
  startAt : Nat
  /-- the bus ports are quiet or 2 ms have passed -/
  quietAt : Option Nat := none
  deriving DecidableEq, Repr

/-- The service port (R447 to R452). -/
structure Service where
  attached : Bool := false
  baud : Option Nat := none
  lastAt : Nat := 0
  tags : List OutTag := []
  /-- tags of commands taken before the cable was last detached, whose completions are discarded (R451) -/
  orphans : List (BitVec 16) := []
  /-- the rate locked last, which replies leave at (R448) -/
  rate : Nat := 115200
  /-- packets posted and waiting to be sent, in order, with whether each is an untagged completion -/
  tx : List (Bool × List Byte) := []
  /-- tick from which the line is free, and the packets the last step put on it (R447, R449) -/
  lineFree : Nat := 0
  line : List (List Byte) := []
  deriving DecidableEq, Repr

/-- A tether frame that an end has put on the line. -/
structure SentFrame where
  ftype : Byte
  cls : BitVec 2
  seq : Nat
  payload : List Byte
  tag : List Byte
  /-- the fabric request or reply that a REQUEST or REPLY frame carries -/
  request : Option FabricReq := none
  reply : Option (Nat × FabReply) := none
  deriving DecidableEq, Repr

/-- The states of the tether (R419). -/
inductive LinkState where
  | disabled | down | handshake | up | suspect | lost | rejoining
  deriving DecidableEq, Repr

/-- The code of a tether state (R419). -/
def LinkState.code : LinkState → Nat
  | .disabled => 0 | .down => 1 | .handshake => 2 | .up => 3 | .suspect => 4 | .lost => 5 | .rejoining => 6

/-- A tether transaction this package originated (R36, R423): its number, sender and opcode. -/
structure Transaction where
  id : Nat
  src : Source
  opcode : Byte
  tile : Nat
  deriving DecidableEq, Repr

/-- Session, supervision and timebase of the tether (R415 to R425). -/
structure Session where
  /-- session key, empty before the session has one -/
  key : List Byte := []
  ownNonce : List Byte := []
  farNonce : List Byte := []
  /-- tile count in the other end's HELLO -/
  peerTiles : Nat := 0
  /-- frames sent, and the last counter accepted plus 1 (R415) -/
  sent : Nat := 0
  last : Nat := 0
  helloAt : Option Nat := none
  gotHello : Bool := false
  sentHello : Bool := false
  /-- a frame under the session key has come, so that the other end has this end's HELLO (R416) -/
  proven : Bool := false
  lastValidAt : Nat := 0
  lastSentAt : Nat := 0
  exchanges : Nat := 0
  within20 : Nat := 0
  stepped : Bool := false
  /-- TIME frames sent, the tick of the last one (or of the start of the session), and the last one received with its arrival
  (R421) -/
  timesSent : Nat := 0
  lastTimeSent : Nat := 0
  lastTimeGot : Nat := 0
  lastTimeGotAt : Nat := 0
  /-- ANNOUNCE sent and received in this session (R425) -/
  announceSent : Bool := false
  announced : Bool := false
  /-- resync reads not yet returned, by the tile that reads and handle (R425) -/
  resync : List (Nat × Handle) := []
  /-- tiles of the other package that have answered in this session, with whether they are in service (R412, R425) -/
  heard : List (Nat × Bool) := []
  deriving DecidableEq, Repr

/-- Status and counters of the tether (R419). -/
structure LinkStatus where
  farTiles : Nat := 0
  farSeen : Bool := false
  farOnline : BitVec 8 := 0
  farInc : Tbl Byte := []
  timeLocked : Bool := false
  sessions : Word := 0
  losses : Word := 0
  framesOk : Word := 0
  badFrames : Word := 0
  replays : Word := 0
  offsetNs : Int := 0
  rttNs : Nat := 0
  deriving DecidableEq, Repr

/-- A pairing under way (R417): own private and public key, the command, and when it began. -/
structure Pairing where
  priv : List Byte
  pub : List Byte
  ctx : Option Ctx
  startAt : Nat
  deriving DecidableEq, Repr

/-- The tether (R411 to R425). -/
structure Tether where
  cfg : BitVec 128 := 1
  pairKey : Option (List Byte) := none
  state : LinkState := .down
  session : Session := {}
  status : LinkStatus := {}
  bulkShare : Byte := 0
  pairing : Option Pairing := none
  /-- a TETHER_PAIR that waits for the session -/
  pairWait : Option Ctx := none
  /-- tick of a CLOSE with reason 1 of the other end: nothing is sent until it is heard (R424) -/
  silent : Option Nat := none
  transactions : List Transaction := []
  /-- fabric requests of the own tiles that have crossed the link, by number (R414) -/
  requests : List (Nat × FabricReq) := []
  /-- numbers of the requests received in this session that are still being served (R423) -/
  serving : List Nat := []
  nextId : Nat := 0
  /-- frames that wait for the line (R420); counter and tag come as they leave -/
  queue : List SentFrame := []
  /-- tick from which the line is free, and the ticks that class 3 frames of the last 10 ms began and ended (R414, R420) -/
  lineFree : Nat := 0
  bulkUse : List (Nat × Nat) := []
  /-- frames the last step put on the line -/
  tx : List SentFrame := []
  deriving DecidableEq, Repr

/-- A Modbus server request being served (R436, R437), under the register map of its start (R263). -/
structure Serving where
  frame : List Byte
  map : List Byte
  until_ : Nat
  /-- reads that are out: request and map entry; records that have come back, by entry -/
  reads : List (Nat × Nat) := []
  got : Tbl Rec := []
  /-- the exception of the first read that failed (R437) -/
  failed : Option Byte := none
  /-- the write that is out, and those that follow -/
  writing : Option Nat := none
  todo : List (Handle × Word) := []
  deriving DecidableEq, Repr

/-- A Modbus client transaction under way (R439, R440), with its item as it was at the start (R263). -/
structure Polling where
  item : Nat
  bytes : List Byte
  /-- the read of its source is out -/
  asking : Option Nat := none
  /-- attempts made, the value a write item sends, the request, and the end of the response time -/
  attempts : Nat := 0
  value : Word := 0
  frame : List Byte := []
  deadline : Option Nat := none
  deriving DecidableEq, Repr

/-- The counters and faults of a bus port (R444). -/
structure BusStatus where
  faults : BitVec 16 := 0
  rxOk : Word := 0
  txCount : Word := 0
  rxErr : Word := 0
  abandoned : Word := 0
  dropped : Word := 0
  specA : Word := 0
  specB : Word := 0
  errAt : List Nat := []
  deriving DecidableEq, Repr

/-- What an MS/TP master node is doing (R429): idle, sending with the token, waiting for the reply of a station (R430), passing the
token on, or polling for a master. -/
inductive MstpPhase where
  | idle
  | using
  | waiting (station : Byte)
  | passing
  | polling
  deriving DecidableEq, Repr

/-- An MS/TP master node (R429). -/
structure MstpNode where
  phase : MstpPhase := .idle
  /-- frames that this token still lets leave -/
  left : Nat := 0
  /-- the next station and the station polled last -/
  next : Nat := 0
  poll : Nat := 0
  /-- tokens since the last poll for a new master -/
  count : Nat := 50
  sole : Bool := false
  retry : Nat := 0
  /-- end of the wait for a reply, a token user, or an answer to a poll -/
  until_ : Option Nat := none
  deriving DecidableEq, Repr

/-- An RS-485 port (R426 to R446). -/
structure RsState where
  cfg : BitVec 224 := 0
  mode : Byte := 0
  running : Bool := false
  status : BusStatus := {}
  /-- BUS_SEND frames queued, oldest first (R430) -/
  queue : List (Ctx × List Byte) := []
  /-- the frame leaving the port, with its BUS_SEND when it has one -/
  sending : Option (Option Ctx × List Byte) := none
  mstp : MstpNode := {}
  /-- reply pending for a station until WAIT (R431) -/
  reply : Option (Byte × Nat) := none
  serving : Option Serving := none
  polling : Option Polling := none
  /-- items due, items now failing, and the tick at which each last fell due (R440) -/
  due : List Nat := []
  failing : List Nat := []
  dueAt : Tbl Nat := []
  /-- source value last seen by a write item with ON_CHANGE (R440) -/
  seen : Tbl (Word × Quality) := []
  /-- the line has been silent for 3.5 characters since the last frame -/
  silent : Bool := false
  deriving DecidableEq, Repr

/-- PLCA reconciliation of the T1S port (R441): the transmit opportunity under way and the tick at which it began, or the BEACON
that a coordinator is sending. -/
structure Plca where
  beacon : Bool := false
  id : Nat := 0
  at_ : Nat := 0
  /-- frames that the burst of this port may still add, and the end of its burst timer -/
  burst : Nat := 0
  burstEnd : Nat := 0
  /-- BEACONs sent since the port started -/
  beacons : Nat := 0
  deriving DecidableEq, Repr

/-- The 10BASE-T1S port (R441 to R446). -/
structure T1sState where
  cfg : BitVec 224 := 0
  running : Bool := false
  status : BusStatus := {}
  filters : Tbl (BitVec 48) := []
  queue : List (Ctx × List Byte) := []
  sending : Option (Ctx × List Byte) := none
  collisions : Nat := 0
  fallback : Bool := false
  plca : Plca := {}
  deriving DecidableEq, Repr

/-- The pad CRACK_A (R489, R498): at high impedance, at ground, or excited at 1 mA for a check. -/
inductive CrackPad where
  | highZ | ground | excited
  deriving DecidableEq, Repr

/-- The panel (R480 to R489, R497). -/
structure Panel where
  cfg : BitVec 128 := 0
  rails : Bool := false
  everPresent : Bool := false
  discharged : Bool := false
  /-- the discharge switches hold the electrodes at ground (R480, R487, R498) -/
  switches : Bool := true
  /-- the discharge switches have released, VHOLD below 2.5 V (R487) -/
  released : Bool := false
  crackA : CrackPad := .ground
  /-- the verdict of the crack loop (R489): intact while CRACK_EN is clear -/
  cracked : Bool := false
  ohms : Word := 0
  shown : BitVec 40 := 0
  unknown : BitVec 40 := BitVec.allOnes 40
  /-- PANEL_UPDATE running: command, states, waveform, phase, tick of the next phase -/
  running : Option (Ctx × BitVec 40 × List Byte × Nat × Nat) := none
  /-- the waveform index of the running update (R483) -/
  runWave : Nat := 0
  /-- PANEL_UPDATE taken and waiting for its crack check or start -/
  waiting : Option (Ctx × BitVec 40 × Byte × Bool) := none
  /-- the tick since which the waiting update needs no check (R484) -/
  readyAt : Nat := 0
  /-- a PANEL_CONFIG ends the running update at the next phase boundary (R482) -/
  stopAtPhase : Bool := false
  /-- level codes of the segments, ground where none is listed, and of the top plane (R480) -/
  levels : Tbl Nat := []
  top : Nat := 0
  deriving DecidableEq, Repr

/-- A rotary encoder (R495): raw levels and the ticks of their last change, levels that count, quarter-steps, count. -/
structure Encoder where
  rawA : Bool := false
  rawB : Bool := false
  atA : Nat := 0
  atB : Nat := 0
  a : Bool := false
  b : Bool := false
  quarter : Int := 0
  count : Word := 0
  deriving DecidableEq, Repr

/-- The key scanner and encoders (R490 to R496). -/
structure Keys where
  cfg : BitVec 64 := 0
  accepted : BitVec 16 := 0
  masked : BitVec 16 := 0
  /-- debounce counts by key, tick of acceptance of each press -/
  counts : Tbl Nat := []
  pressedAt : Tbl Nat := []
  ghost : Bool := false
  clearScans : Nat := 0
  /-- accepted changes whose key entry and event have not been written (R492): key, entry type, accepted state after it -/
  changes : List (Nat × Nat × BitVec 16) := []
  enc0 : Encoder := {}
  enc1 : Encoder := {}
  /-- an input of an encoder has changed level in this darkroom (R378, R498) -/
  darkEdge : Bool := false
  deriving DecidableEq, Repr

/-- The permits of the package and the lead's copies for their terms (R264, R265, R374). -/
structure Permits where
  permits : Tbl Permit := []
  health : Bool := false
  /-- tick at which each copied handle was last refreshed -/
  copyAt : Tbl Nat := []
  /-- tick of the last evaluation -/
  evalAt : Option Nat := none
  deriving DecidableEq, Repr

/-- The real-time clock (R56). -/
structure Rtc where
  secs : Word := 0
  valid : Bool := false
  sub : Nat := 0
  deriving DecidableEq, Repr

/-- The thermal budget manager (R153): tick of its last sum, and the sums of the last 100 ms by tile in nW, newest
first. -/
structure Thermal where
  at_ : Option Nat := none
  sums : List (Tbl Nat) := []
  deriving DecidableEq, Repr

/-- Darkroom (R376 to R380). -/
structure Darkroom where
  dark : Bool := false
  waking : Bool := false
  lastWake : Nat := 0
  wakeSrc : Nat := 0
  wakeSecs : Word := 0
  /-- the wake has happened at least once -/
  woken : Bool := false
  deriving DecidableEq, Repr

/-- What the package does with an image (R468). -/
inductive UpdState where
  | idle | downloading | staged | activating | window | fallingBack | restoring
  deriving DecidableEq, Repr

/-- The code of UPDATE_STATUS STATE (R468). -/
def UpdState.code : UpdState → Nat
  | .idle => 0 | .downloading => 1 | .staged => 2 | .activating => 3 | .window => 4 | .fallingBack => 5
  | .restoring => 6

/-- Updates of the package (R453 to R468). -/
structure Update where
  state : UpdState := .idle
  result : Nat := 0
  tilesNew : BitVec 8 := 0
  rejectTile : Byte := 0xFF
  received : Nat := 0
  length : Word := 0
  /-- the download: header and data bytes received, and the UPDATE_DATA commands still writing, each with the offset of its data
  and the tiles that have not written it -/
  image : List Byte := []
  erasing : Option (Ctx × List Byte) := none
  writing : List (Ctx × Nat × List Nat) := []
  /-- the UPDATE_END that waits for the chunks before it to be written -/
  ending : Option (Ctx × Word) := none
  /-- activation or fallback: command, tiles still to restart, tile restarting, when the last one came online -/
  ctx : Option Ctx := none
  order : List Nat := []
  busy : Option Nat := none
  onlineAt : Nat := 0
  tries : Nat := 0
  retryAt : Option Nat := none
  confirmHost : Bool := false
  windowSecs : Nat := 0
  windowStart : Nat := 0
  windowEnd : Nat := 0
  /-- a fallback recovery is under way (R506) -/
  recovery : Bool := false
  /-- what tile resets of this window have taken from the record of R463: event 127 raised, tick of the last overrun -/
  faulted : Bool := false
  overrunAt : Option Nat := none
  /-- FIX has been taken in the window (R463), and the reason word of the last refusal (R130) -/
  fixed : Bool := false
  reason : Word := 0
  deriving DecidableEq, Repr

end Sys2Proof.Machine
end

