-- ==== Sys2Proof/Machine/State.lean ====
section
/-!
DEFINITION. The state of one LX8: its tiles, its package-wide units, its host port and the queue of commands that wait;
the outcomes of a step; and the state at reset.
-/

namespace Sys2Proof.Machine

/-- Why the machine stops. -/
inductive Fault where
  /-- an event names a tile that the variant does not have (R6). Raised by every row with a tile operand. Safe: the
  spec gives such a tile no existence, so no part ever takes that step. -/
  | absentTile (tile : Nat)
  deriving DecidableEq, Repr

/-- Why the machine has no meaning for a row. -/
inductive Refusal where
  /-- the row named has no meaning yet. Raised by its own arm only. Safe: nothing is claimed of it. -/
  | notModelled (mnemonic : String)
  deriving DecidableEq, Repr

/-- One tile (R13 to R51). -/
structure Tile where
  boot : Boot := {}
  fabric : Fabric := {}
  points : Tbl Rec := []
  overrides : List Key := []
  claims : List Claim := []
  events : Events := {}
  rings : Rings := {}
  chans : Tbl Chan := []
  conv : Converters := {}
  slots : Tbl Slot := []
  groups : Tbl Group := []
  gov : Governor := {}
  tables : Tables := {}
  machines : Tbl MachineSt := []
  /-- TMR points that count down (R254) -/
  counting : List (Nat × Nat) := []
  /-- when the loop engine and the table engine last ended an evaluation (R59) -/
  loopFree : Nat := 0
  tableFree : Nat := 0
  pred : Predictor := {}
  programs : Tbl (List Word) := []
  engines : Tbl Engine := []
  trackers : Tbl Tracker := []
  steppers : Tbl Stepper := []
  fans : Tbl Fan := []
  supply : Supply := {}
  monitors : Tbl Monitor := []
  counters : Counters := {}
  policies : Tbl Policy := []
  entropy : Entropy := {}
  flash : Flash := {}
  /-- per group of eight channels, the tick at which the group budget last acted (R149) -/
  budgetAt : Tbl Nat := []
  images : Slots := {}
  deriving DecidableEq, Repr

/-- A tile before the first reset release. -/
def Tile.reset : Tile := {}

/-- The three variants (R3). -/
inductive Variant where
  | lx82 | lx84 | lx88
  deriving DecidableEq, Repr

/-- What the fuses and mask of a part say (R3, R5, R116, R460). -/
structure Ident where
  variant : Variant := .lx88
  unitId : BitVec 64 := 0
  grade : Byte := 0x49
  /-- SHA-256 of the OEM key when its fuses are programmed -/
  oemHash : Option (List Byte) := none
  deriving DecidableEq, Repr

/-- A policy that every tile has written and that switches at the next whole millisecond (R474). -/
structure PendPolicy where
  port : Nat
  policy : Policy
  at_ : Nat
  ctx : Ctx
  deriving DecidableEq, Repr

/-- The package-wide units (R18 to R22, R264, R363 to R380, R411 to R498). -/
structure Shared where
  lead : Nat := 0
  /-- the shared balls are driven by the lead: its host port answers (R21, R22, R365) -/
  driven : Bool := false
  handover : Option Handover := none
  permits : Permits := {}
  planner : Planner := {}
  rtc : Rtc := {}
  thermal : Thermal := {}
  dark : Darkroom := {}
  tether : Tether := {}
  bus0 : RsState := {}
  bus1 : RsState := {}
  t1s : T1sState := {}
  panel : Panel := {}
  keys : Keys := {}
  update : Update := {}
  policyPend : List PendPolicy := []
  service : Service := {}
  /-- bulk buffers that hold data (R96) -/
  bulk : Tbl Bulk := []
  /-- commands that wait for a free bulk buffer, oldest first -/
  bulkWaits : List BulkWait := []
  counts : PkgCounts := {}
  /-- unplanned losses of the host port and of the service port, and the tick of the last loss of a lead (R21, R451) -/
  hostEra : Nat := 0
  serviceEra : Nat := 0
  leadLostAt : Nat := 0
  /-- what the chained data registers of the TAPs hold, the bit that leaves TDO first at the front (R528) -/
  tapChain : List Bool := []
  /-- tick at which the last handover cut off the frames on the bus ports (R446) -/
  busCut : Option Nat := none
  deriving DecidableEq, Repr

/-- One package (R6). -/
structure Pkg where
  ident : Ident := {}
  /-- package time in ticks of 31.25 ns (R52) -/
  now : Nat := 0
  /-- in package reset (R363), and the causes and straps of the last one -/
  inReset : Bool := true
  resetCause : Nat := 0
  straps : BitVec 5 := 0
  everReleased : Bool := false
  tiles : Tbl Tile := []
  sh : Shared := {}
  /-- number of the next free value -/
  freeCtr : Nat := 0
  /-- completions of the step under way, oldest first; empty between steps -/
  outbox : List Completion := []
  deriving DecidableEq, Repr

/-- A package before its first reset release. -/
def Pkg.reset : Pkg := {}

/-- The rings of the host port and their indices (R89 to R95). -/
structure HpRings where
  subMem : List Host.Cell := []
  compMem : List Host.Cell := []
  subProd : Word := 0
  /-- values that SUB_PROD held before writes which may not have reached the mirror tile (R92), newest first, with the
  ticks of those writes -/
  unmirrored : List (Word × Nat) := []
  subCons : Word := 0
  compProd : Word := 0
  compCons : Word := 0
  halted : Bool := false
  /-- completions that wait for ring space, as packets, oldest first (R94) -/
  held : List (List Byte) := []
  deriving DecidableEq, Repr

/-- The host port (R76 to R106). -/
structure HostPort where
  rings : HpRings := {}
  dummy : BitVec 4 := 8
  scratch : Word := 0
  counts : HpCounts := {}
  tags : List OutTag := []
  nextOrder : Nat := 0
  /-- the contact sheet as it was last written, by offset (R85, R86), and the tick of that refresh -/
  sheet : List Host.Cell := (List.range 8).map (fun i => (0xD0 + i, 0xFF))
  generation : Word := 0
  refreshedAt : Option Nat := none
  lastPoll : Nat := 0
  absent : Bool := false
  /-- the bytes the last read returned (R82, R87) -/
  readData : List Byte := []
  deriving DecidableEq, Repr

/-- The host port at package reset. -/
def HostPort.reset : HostPort := {}

/-- The machine: host port, package, and the commands that wait, first in, first out. -/
structure State where
  hp : HostPort := {}
  pkg : Pkg := {}
  pending : List Instr := []
  deriving DecidableEq, Repr

/-- The machine at power-up, in reset, before the first reset release: every register at its reset value. -/
def State.reset : State := {}

end Sys2Proof.Machine
end

