-- ==== Sys2Proof/Machine/Ops.lean ====
section
/-!
DEFINITION. Access to the parts of a package, status codes, completions, and free values.
-/

namespace Sys2Proof.Machine

/-- Tiles of a variant (R3). -/
def Variant.tiles : Variant → Nat
  | .lx82 => 2 | .lx84 => 4 | .lx88 => 8

/-- Tile count of the package. -/
def Pkg.n (p : Pkg) : Nat := p.ident.variant.tiles

/-- Tile `t` of the package. -/
def Pkg.tile (p : Pkg) (t : Nat) : Tile := p.tiles.getD t Tile.reset

/-- Tile `t` changed by `f`. -/
def onTile (t : Nat) (f : Tile → Tile) (p : Pkg) : Pkg := { p with tiles := p.tiles.set t (f (p.tile t)) }

/-- Every tile of the package changed by `f`. -/
def onTiles (f : Nat → Tile → Tile) (p : Pkg) : Pkg :=
  (List.range p.n).foldl (fun q t => onTile t (f t) q) p

/-- The shared units changed by `f`. -/
def onShared (f : Shared → Shared) (p : Pkg) : Pkg := { p with sh := f p.sh }

/-- Each element of a list in turn. -/
def forAll {α : Type} (l : List α) (f : α → Pkg → Pkg) (p : Pkg) : Pkg := l.foldl (fun q a => f a q) p

/-- Tile `t` is online (R42). -/
def online (p : Pkg) (t : Nat) : Bool := t < p.n && (p.tile t).boot.state == .online

/-- The lead tile (R18). -/
def Pkg.lead (p : Pkg) : Nat := p.sh.lead

/-- The END_SEL and TET_EN straps make this package a far end, a near end with tether, or neither (R364, R411). -/
def isFar (p : Pkg) : Bool := p.straps.getLsbD 0 && p.straps.getLsbD 3
def hasTether (p : Pkg) : Bool := p.straps.getLsbD 3

/-- The number by which handles and packets name tile `t` of this package: 8 + t on the far package (R6, R24). -/
def ownNo (p : Pkg) (t : Nat) : Nat := if isFar p then t + 8 else t

/-- The tile of this package that a tile number names, if it names one (R6). -/
def localOf (p : Pkg) (n : Nat) : Option Nat :=
  if isFar p then (if 8 ≤ n && n < 8 + p.n then some (n - 8) else none) else (if n < p.n then some n else none)

/-- The package booted in service-hold (R366). -/
def serviceHold (p : Pkg) : Bool := p.straps.getLsbD 1

/-- The tick at which the last break of a pad is over (R158). -/
def ChanDrive.breakUntil (d : ChanDrive) : Nat := (d.breaks.head?.map (· + 10 * usTicks)).getD 0

/-- The pad of a channel breaks at tick `now` (R158); the last 32 breaks are kept for the entries under way (R170). -/
def ChanDrive.breakAt (now : Nat) (d : ChanDrive) : ChanDrive := { d with breaks := now :: d.breaks.take 31 }

def Tile.chan (t : Tile) (c : Nat) : Chan := t.chans.getD c Chan.reset
def Tile.onChan (c : Nat) (f : Chan → Chan) (t : Tile) : Tile := { t with chans := t.chans.modify c Chan.reset f }
def Tile.slot (t : Tile) (s : Nat) : Slot := t.slots.getD s Slot.reset
def Tile.onSlot (s : Nat) (f : Slot → Slot) (t : Tile) : Tile := { t with slots := t.slots.modify s Slot.reset f }
def Tile.group (t : Tile) (g : Nat) : Group := t.groups.getD g Group.reset
def Tile.onGroup (g : Nat) (f : Group → Group) (t : Tile) : Tile := { t with groups := t.groups.modify g Group.reset f }
def Tile.machine (t : Tile) (m : Nat) : MachineSt := t.machines.getD m MachineSt.reset
def Tile.onMachine (m : Nat) (f : MachineSt → MachineSt) (t : Tile) : Tile :=
  { t with machines := t.machines.modify m MachineSt.reset f }
def Tile.engine (t : Tile) (e : Nat) : Engine := t.engines.getD e Engine.reset
def Tile.onEngine (e : Nat) (f : Engine → Engine) (t : Tile) : Tile :=
  { t with engines := t.engines.modify e Engine.reset f }
def Tile.tracker (t : Tile) (k : Nat) : Tracker := t.trackers.getD k Tracker.reset
def Tile.onTracker (k : Nat) (f : Tracker → Tracker) (t : Tile) : Tile :=
  { t with trackers := t.trackers.modify k Tracker.reset f }
def Tile.stepper (t : Tile) (u : Nat) : Stepper := t.steppers.getD u Stepper.reset
def Tile.onStepper (u : Nat) (f : Stepper → Stepper) (t : Tile) : Tile :=
  { t with steppers := t.steppers.modify u Stepper.reset f }
def Tile.fan (t : Tile) (u : Nat) : Fan := t.fans.getD u Fan.reset
def Tile.onFan (u : Nat) (f : Fan → Fan) (t : Tile) : Tile := { t with fans := t.fans.modify u Fan.reset f }
def Tile.node (t : Tile) (n : Nat) : Node := t.pred.nodes.getD n Node.reset
def Tile.zone (t : Tile) (z : Nat) : Zone := t.pred.zones.getD z Zone.reset
def Tile.ctr (t : Tile) (n : Nat) : Ctr := t.counters.ctrs.getD n Ctr.reset
def Tile.policy (t : Tile) (port : Nat) : Policy := t.policies.getD port (shippedPolicy port)
def Tile.adc (t : Tile) (b : Bool) : Adc := if b then t.conv.b else t.conv.a
def Tile.onAdc (b : Bool) (f : Adc → Adc) (t : Tile) : Tile :=
  if b then { t with conv := { t.conv with b := f t.conv.b } } else { t with conv := { t.conv with a := f t.conv.a } }

/-- The active table of a kind and index, empty when there is none (R231). -/
def Tile.table (t : Tile) (kind idx : Nat) : List Byte := t.tables.active.getD (kind * 1024 + idx) []
def Tile.shadow? (t : Tile) (kind idx : Nat) : Option (List Byte) := t.tables.shadow.find? (kind * 1024 + idx)

/-- A tile has a valid seal (R266). -/
def sealOk (tl : Tile) : Bool :=
  let s := tl.table 3 48
  s.length == 8 && leAt s 4 2 == tl.images.print.epoch.toNat

/-- The seal of tile `t` is valid, and the package is not in service-hold (R157, R267, R366). -/
def sealedTile (p : Pkg) (t : Nat) : Bool := !serviceHold p && sealOk (p.tile t)

/-- The status codes (R101). -/
def stOk : Byte := 0x00
def stAccepted : Byte := 0x01
def stDelayed : Byte := 0x02
def stBadOpcode : Byte := 0x10
def stBadLength : Byte := 0x11
def stBadParam : Byte := 0x12
def stBadHandle : Byte := 0x13
def stBadCheck : Byte := 0x14
def stBadState : Byte := 0x15
def stCapacity : Byte := 0x20
def stPolicy : Byte := 0x21
def stPolicyChanged : Byte := 0x22
def stRefusedState : Byte := 0x23
def stNotReady : Byte := 0x24
def stTileOffline : Byte := 0x30
def stStaleInc : Byte := 0x31
def stTetherLost : Byte := 0x32
def stSupplyLow : Byte := 0x40
def stTempWindow : Byte := 0x41
def stNvWorn : Byte := 0x42
def stRetracted : Byte := 0x50
def stSuperseded : Byte := 0x51
def stInternalFault : Byte := 0xFF

/-- A completion joins the outbox of the step. -/
def emit (c : Completion) (p : Pkg) : Pkg := { p with outbox := p.outbox ++ [c] }

/-- A request of class `cls` was refused for capacity (R40, R85). -/
def countRefused (cls : Nat) (p : Pkg) : Pkg :=
  onShared (fun s => { s with counts :=
    match cls with
    | 1 => { s.counts with refused1 := incSat s.counts.refused1 }
    | 2 => { s.counts with refused2 := incSat s.counts.refused2 }
    | 3 => { s.counts with refused3 := incSat s.counts.refused3 }
    | _ => s.counts }) p

/-- The final completion of a command, with its reply payload; REFUSED_CAPACITY is counted by class (R85). -/
def finishWith (c : Ctx) (op st : Byte) (t : Nat) (pl : List Byte) (p : Pkg) : Pkg :=
  emit { src := c.src, opcode := op, status := st, tile := ownNo p t, final := true, payload := pl }
    (if st = stCapacity then countRefused c.cls.toNat p else p)

/-- The final completion of a command, without a payload. -/
def finish (c : Ctx) (op st : Byte) (t : Nat) (p : Pkg) : Pkg := finishWith c op st t [] p

/-- OK with a reply payload. -/
def reply (c : Ctx) (op : Byte) (t : Nat) (pl : List Byte) (p : Pkg) : Pkg := finishWith c op stOk t pl p

/-- ACCEPTED, which is not final (R101, R112). -/
def accept (c : Ctx) (op : Byte) (t : Nat) (p : Pkg) : Pkg :=
  emit { src := c.src, opcode := op, status := stAccepted, tile := ownNo p t, final := false } p

/-- The next free value: a word the spec leaves open. -/
def takeFree (p : Pkg) : Word × Pkg := (Config.freeWord p.freeCtr, { p with freeCtr := p.freeCtr + 1 })

/-- A value as a word in Q16.16; outside the range of the format (R10) the spec states no result. -/
def q16Word (x : Int) (p : Pkg) : Word × Pkg :=
  if -2147483648 ≤ x && x ≤ 2147483647 then (wordOf x, p) else takeFree p

/-- Bits of a channel configuration record (R162). -/
def Chan.mode (c : Chan) : Nat := bits c.cfg 7 0
def Chan.option (c : Chan) : Nat := bits c.cfg 15 8
def Chan.temp (c : Chan) : Bool := bit c.cfg 16
def Chan.cmpSrc (c : Chan) : Nat := bits c.cfg 26 24
def Chan.threshold (c : Chan) : Nat := bits c.cfg 41 32
def Chan.hysteresis (c : Chan) : Nat := bits c.cfg 55 48
def Chan.blanking (c : Chan) : Nat := bits c.cfg 63 56
def Chan.limit (c : Chan) : Nat := bits c.cfg 79 64
def Chan.retryInterval (c : Chan) : Nat := bits c.cfg 87 80
def Chan.retries (c : Chan) : Nat := bits c.cfg 95 88
def Chan.faultLo (c : Chan) : Nat := bits c.cfg 111 96
def Chan.faultHi (c : Chan) : Nat := bits c.cfg 127 112
def Chan.curve (c : Chan) : Nat := bits c.cfg 143 128
def Chan.filter (c : Chan) : Nat := bits c.cfg 159 144
def Chan.pwmFreq (c : Chan) : Nat := bits c.cfg 191 160

/-- The mode has a drive command (R25, R133). -/
def driveMode (m : Nat) : Bool := m == 0x08 || m == 0x09 || m == 0x11 || m == 0x13 || m == 0x18

/-- The sense modes 0x01 to 0x05 (R133). -/
def senseMode (m : Nat) : Bool := 0x01 ≤ m && m ≤ 0x05

/-- Fields of a slot descriptor (R199). -/
def dLaw (d : BitVec 512) : Nat := bits d 7 0
def dGroup (d : BitVec 512) : Nat := bits d 10 8
def dMode (d : BitVec 512) : Nat := bits d 13 12
def dBadAction (d : BitVec 512) : Nat := bits d 15 14
def dIn (d : BitVec 512) (i : Nat) : Handle := d.extractLsb' (32 + 32 * i) 32
def dDst (d : BitVec 512) : Handle := d.extractLsb' 160 32
def dDst2 (d : BitVec 512) : Handle := d.extractLsb' 192 32
def dOutLo (d : BitVec 512) : Int := (d.extractLsb' 224 32).toInt
def dOutHi (d : BitVec 512) : Int := (d.extractLsb' 256 32).toInt
def dMan (d : BitVec 512) : Word := d.extractLsb' 288 32
def dGain (d : BitVec 512) : Nat := bits d 335 320
def dP (d : BitVec 512) (i : Nat) : Word := d.extractLsb' (352 + 32 * i) 32

/-- A slot is assigned: it has a law and is not off (R196). -/
def Slot.assigned (s : Slot) : Bool := dLaw s.desc != 0 && dMode s.desc != 3

/-- Period of a group in ticks (R57). -/
def Group.period (g : Group) : Nat := 1000 * g.n.toNat

/-- Slots of tile `t` that are assigned to group `g`, in index order (R197). -/
def groupSlots (t : Tile) (g : Nat) : List Nat :=
  (t.slots.filter (fun q => q.2.assigned && dGroup q.2.desc == g)).map (·.1)

/-- Group of a machine image (R245). -/
def machineGroup (img : List Byte) : Nat := leAt img 3 1 % 8

/-- Machines of tile `t` in group `g`, in index order. -/
def groupMachines (t : Tile) (g : Nat) : List Nat :=
  (t.machines.filter (fun q => !q.2.image.isEmpty && machineGroup q.2.image == g)).map (·.1)

/-- A group is idle while it is not enabled, or has no slots and no machines (R57). -/
def groupIdle (t : Tile) (g : Nat) : Bool :=
  !(t.group g).enabled || ((groupSlots t g).isEmpty && (groupMachines t g).isEmpty)

/-- The lowest slack of group `g` over the last second, as SYS 8 + g reads (R75). -/
def slackOf (now : Nat) (t : Tile) (g : Nat) : Nat :=
  let gr := t.group g
  if groupIdle t g then 1000
  else
    let recent := (gr.slacks.filter (fun q => now < q.1 + secTicks)).map (·.2)
    match recent with
    | [] => gr.lastSlack.getD 1000
    | x :: r => r.foldl Nat.min x

/-- The lowest of SYS 8 to 15 (SYS 4). -/
def lowestSlack (now : Nat) (t : Tile) : Nat :=
  (List.range 8).foldl (fun m g => Nat.min m (slackOf now t g)) 1000

end Sys2Proof.Machine
end

