-- ==== Sys2Proof/Machine/Points.lean ====
section
/-!
DEFINITION. Point handles and the reading of points (R24 to R33, R75, R357, R404, R497, R508).
-/

namespace Sys2Proof.Machine

/-- A number as a word, cut to 32 bits. -/
def w32 (n : Nat) : Word := BitVec.ofNat 32 n

/-- The zone is hosted on the tile (R278). -/
def zoneHosted (t : Tile) (z : Nat) : Bool := bit (t.zone z).rc 16

/-- The node is in use: its capacity is greater than 0 (R268). -/
def nodeInUse (n : Node) : Bool := (n.rc.extractLsb' 0 32) != 0#32

/-- Class and index of `k` are valid on tile `t` (R25). -/
def keyValid (p : Pkg) (t : Nat) (k : Key) : Bool :=
  let i := keyIdx k
  match keyClass k with
  | 0x0 => i ≤ 255
  | 0x1 => i ≤ 255 && i % 8 ≤ 5
  | 0x2 => i ≤ 255 && i % 8 ≤ 5
  | 0x3 => i ≤ 19 || (32 ≤ i && i ≤ 51)
  | 0x4 => i ≤ 4095
  | 0x5 => i ≤ 1023
  | 0x6 => i ≤ 1023
  | 0x7 => i ≤ 4095
  | 0x8 => i ≤ 1023
  | 0x9 => i ≤ 2047 && zoneHosted (p.tile t) (i / 8)
  | 0xA => i ≤ 287
  | 0xB => i ≤ 1023 && t == p.lead
  | 0xC => i ≤ 4095
  | 0xD => i ≤ 127
  | 0xE => i ≤ 255
  | _ => false

/-- A tile number of the other package, whose tile count its HELLO has told (R6, R414). -/
def farNamed (p : Pkg) (t : Nat) : Bool := (8 ≤ t) != isFar p && t % 8 < p.sh.tether.status.farTiles

/-- A tile number of the other package that has been seen (R6, R412). -/
def farPresent (p : Pkg) (t : Nat) : Bool := p.sh.tether.status.farSeen && farNamed p t

/-- The handle names a valid class and index, as far as its layout alone says (R25). -/
def classIdxValid (h : Handle) : Bool :=
  let i := handleIdx h
  match handleClass h with
  | 0x1 | 0x2 => i ≤ 255 && i % 8 ≤ 5
  | 0x0 | 0xE => i ≤ 255
  | 0x3 => i ≤ 19 || (32 ≤ i && i ≤ 51)
  | 0x4 | 0x7 | 0xC => i ≤ 4095
  | 0x5 | 0x6 | 0x8 | 0xB => i ≤ 1023
  | 0x9 => i ≤ 2047
  | 0xA => i ≤ 287
  | 0xD => i ≤ 127
  | _ => false

/-- What is wrong with a handle: reserved bits set, or an absent tile, class or index (R24). -/
def handleError (p : Pkg) (h : Handle) : Option Byte :=
  if bits h 31 24 != 0 then some stBadParam
  else
    match localOf p (handleTile h) with
    | some t => if keyValid p t (handleKey h) then none else some stBadHandle
    | none => if farPresent p (handleTile h) && classIdxValid h then none else some stBadHandle

/-- Sub 3 of CHR and CHE are one drive command (R25): the key under which it is owned and overridden. -/
def ownKey (k : Key) : Key :=
  if keyClass k == 2 && keyIdx k % 8 == 3 then key 1 (keyIdx k) else k

/-- The claimer that owns a point, none when the host port does (R31). -/
def ownerOf (t : Tile) (k : Key) : Option Claimer :=
  match t.claims.find? (fun c => c.key == ownKey k && !c.pending) with
  | some c => some c.who
  | none => none

/-- The point is owned or reserved by a claimer other than `who` (R31). -/
def claimedByOther (t : Tile) (k : Key) (who : Claimer) : Bool :=
  t.claims.any (fun c => c.key == ownKey k && c.who != who)

/-- An override is in force on the point (R32). -/
def overridden (t : Tile) (k : Key) : Bool := t.overrides.contains (ownKey k)

/-- The maximum of the drive command of a mode in CHR units (R133). -/
def driveMax (m : Nat) : Nat :=
  match m with
  | 0x08 => 10500 | 0x09 => 24000 | 0x13 => 65536 | _ => 1

/-- The drive command in CHR units from the CHE form, both within range (R133, R342). -/
def engToRaw (m : Nat) (v : Int) : Int :=
  match m with
  | 0x08 | 0x09 => divRound (v * 1000) 65536
  | 0x13 => divRound v 100
  | _ => if v ≥ 0x8000 then 1 else 0

/-- The drive command in CHE units from the CHR form (R133). -/
def rawToEng (m : Nat) (v : Int) : Int :=
  match m with
  | 0x08 | 0x09 => divRound (v * 65536) 1000
  | 0x13 => v * 100
  | _ => if v ≥ 1 then 65536 else 0

/-- A written drive command clamped to the range of its form (R133). -/
def clampDrive (m : Nat) (eng : Bool) (v : Word) : Word :=
  if eng then
    let hi := rawToEng m (driveMax m)
    let x := clampInt 0 hi v.toInt
    wordOf (if m == 0x11 || m == 0x18 then (if x ≥ 0x8000 then 65536 else 0) else x)
  else w32 (Nat.min v.toNat (driveMax m))

/-- The drive command of a channel in CHR units. -/
def driveRaw (c : Chan) : Int :=
  if c.drive.eng then engToRaw c.mode c.drive.cmd.toInt else c.drive.cmd.toNat

/-- The record of CHR sub 3 (`eng` false) or CHE sub 3 (R133); HELD while the output is in Hold (R29). -/
def driveRec (c : Chan) (eng : Bool) : Rec :=
  if !driveMode c.mode then {}
  else
    let v : Word := if c.drive.eng == eng then c.drive.cmd
      else if eng then wordOf (rawToEng c.mode c.drive.cmd.toNat) else wordOf (engToRaw c.mode c.drive.cmd.toInt)
    { value := v, time := c.drive.time
      q := if c.out == .hold && c.drive.q != .offline then .held else c.drive.q }

/-- Sub 4 of a channel (R140). -/
def chanState (now : Nat) (c : Chan) : Nat :=
  b2n c.drive.cmp + 2 * b2n c.prot.atLimit + 4 * b2n (now < c.prot.blankUntil) + 8 * b2n c.prot.isolated
    + 16 * b2n c.prot.tripped

/-- A record read live, GOOD, at the instant of the read (R28). -/
def liveRec (p : Pkg) (v : Word) : Rec := { value := v, time := stamp p.now, q := .good }

/-- The supply flags, SYS 39 (R357). -/
def supplyFlags (p : Pkg) (t : Nat) : Nat :=
  let s := (p.tile t).supply
  b2n s.powerFail + 2 * b2n s.stopBath + 4 * b2n s.holdCharged + 8 * b2n s.vhvLow
    + 16 * b2n (t == 0 && p.sh.panel.rails) + 32 * b2n s.rtcLost + 64 * b2n s.holdup

/-- 32 bits, one for each rate-of-rise monitor from `from_` on (SYS 40, 41, 48, 49). -/
def monitorBits (t : Tile) (from_ : Nat) (f : Monitor → Bool) : Nat :=
  (List.range 32).foldl (fun a i => a + 2 ^ i * b2n (f (t.monitors.getD (from_ + i) Monitor.reset))) 0

/-- SYS 56 to 63 of tile 0 (R497). -/
def panelSys (p : Pkg) (i : Nat) : Word :=
  let pa := p.sh.panel
  let ks := p.sh.keys
  match i with
  | 56 => w32 (b2n (bit pa.cfg 0) + 2 * b2n pa.cracked + 4 * b2n (pa.running.isSome || pa.waiting.isSome)
      + 8 * b2n pa.discharged + 16 * b2n (bit ks.cfg 0) + 32 * b2n ks.ghost)
  | 57 => pa.ohms
  | 58 => w32 (ks.accepted.toNat + 65536 * ks.masked.toNat)
  | 59 => ks.enc0.count
  | 60 => ks.enc1.count
  | 61 => pa.shown.extractLsb' 0 32
  | 62 => w32 (bits pa.shown 39 32 + 256 * bits pa.unknown 39 32)
  | _ => pa.unknown.extractLsb' 0 32

/-- The incarnation of a tile as others show it: 0 for one that the variant does not have (R85). -/
def incarnationOf (p : Pkg) (t : Nat) : Byte := if t < p.n then (p.tile t).boot.incarnation else 0

/-- Bits in the entropy pool (SYS 55). -/
def poolBits (e : Entropy) : Nat := 8 * e.pool.length

/-- A SYS point (R26, R28, R75, R357, R400, R452, R497); an index that no chapter gives is read live too, as 0 with OFFLINE. -/
def sysRec (p : Pkg) (t i : Nat) : Rec :=
  let tl := p.tile t
  let live (n : Nat) : Rec := liveRec p (w32 n)
  let none_ : Rec := { time := stamp p.now }
  if 32 ≤ i && i ≤ 38 then tl.points.getD (key 0 i) {}
  else if 8 ≤ i && i ≤ 15 then live (slackOf p.now tl (i - 8))
  else if 16 ≤ i && i ≤ 23 then liveRec p (tl.group (i - 16)).overruns
  else if 56 ≤ i && i ≤ 63 then (if t == 0 then liveRec p (panelSys p i) else none_)
  else match i with
  | 0 => live tl.boot.incarnation.toNat
  | 1 => live tl.boot.state.code
  | 2 => live p.lead
  | 3 => live tl.gov.vcore.toNat
  | 4 => live (lowestSlack p.now tl)
  | 5 => live tl.fabric.flights.length
  | 6 => liveRec p tl.fabric.repeats
  | 7 => liveRec p tl.fabric.discarded
  | 24 => live tl.gov.ceil.toNat
  | 25 => live tl.gov.floor.toNat
  | 26 => live tl.gov.slackFloor.toNat
  | 27 => liveRec p tl.gov.overrides
  | 28 => if tl.pred.nodes.any (fun q => nodeInUse q.2) then liveRec p tl.gov.planSlack else live 1000
  | 29 => liveRec p p.sh.rtc.secs
  | 30 => live (b2n p.sh.rtc.valid)
  | 31 => liveRec p (stamp32 p.now)
  | 39 => live (supplyFlags p t)
  | 40 => live (monitorBits tl 0 (·.exceeded))
  | 41 => live (monitorBits tl 32 (·.exceeded))
  | 42 => live p.straps.toNat
  | 43 => live tl.boot.resetCause
  | 44 => liveRec p tl.supply.lowCount
  | 45 => liveRec p tl.supply.tempCount
  | 46 => live p.sh.dark.wakeSrc
  | 47 => liveRec p tl.boot.bootMs
  | 48 => live (monitorBits tl 0 (·.invalid))
  | 49 => live (monitorBits tl 32 (·.invalid))
  | 50 => live tl.rings.kib
  | 51 => liveRec p tl.rings.written
  | 52 => liveRec p tl.rings.lostWrites
  | 53 => liveRec p tl.fabric.svcDropped
  | 54 => liveRec p tl.fabric.policyRefused
  | 55 => live (poolBits tl.entropy)
  | _ => none_

/-- An EVT point (R404). -/
def evtRec (tl : Tile) (i : Nat) : Rec :=
  let e := tl.events
  let raised := e.raised.getLsbD i
  { value := w32 (e.counts.getD i 0 + 65536 * b2n (e.pending.getLsbD i) + 131072 * b2n (e.masked.getLsbD i))
    time := if raised then stamp (e.lastAt.getD i 0) else 0
    q := if raised then .good else .offline }

/-- The port of a bandwidth counter is held on the other tile of the pair (R504). -/
def portAway (p : Pkg) (t src : Nat) : Bool := 0x10 ≤ src && t != p.lead

/-- The flags word of a counter of tile `t` (R507). -/
def ctrFlags (p : Pkg) (t : Nat) (c : Ctr) : Nat :=
  b2n c.wrap + 2 * b2n c.chained + 4 * b2n c.valid + 8 * b2n (c.mode == 2 && portAway p t c.src.toNat)

/-- A PRF point (R508). -/
def prfRec (p : Pkg) (t i : Nat) : Rec :=
  let cs := (p.tile t).counters
  let ofCtr (c : Ctr) (v : Nat) : Rec :=
    { value := w32 v, q := .good
      time := if c.mode == 2 && c.valid then stamp c.windowAt else stamp p.now }
  if i == 0 then liveRec p (w32 (bits cs.fixed 31 0))
  else if i == 1 then liveRec p (w32 (bits cs.fixed 63 32))
  else if i ≤ 17 then
    let c := (p.tile t).ctr ((i - 2) / 2)
    ofCtr c (if i % 2 == 0 then bits c.value 31 0 else bits c.value 47 32)
  else if i ≤ 25 then let c := (p.tile t).ctr (i - 18); ofCtr c (ctrFlags p t c)
  else if i ≤ 33 then
    let c := (p.tile t).ctr (i - 26)
    liveRec p (w32 (c.mode.toNat + 256 * c.src.toNat + 65536 * c.sel.toNat))
  else if i == 34 then liveRec p (w32 cs.held.length)
  else if i == 35 then liveRec p cs.taken
  else { time := stamp p.now }

/-- The record of point `k` of tile `t` of this package (R27 to R30). -/
def readPoint (p : Pkg) (t : Nat) (k : Key) : Rec :=
  let tl := p.tile t
  let i := keyIdx k
  match keyClass k with
  | 0x0 => sysRec p t i
  | 0x1 => if i % 8 == 3 then driveRec (tl.chan (i / 8)) false else tl.points.getD k {}
  | 0x2 => if i % 8 == 3 then driveRec (tl.chan (i / 8)) true else tl.points.getD k {}
  | 0xD => evtRec tl i
  | 0xE => prfRec p t i
  | _ => tl.points.getD k {}

/-- The copy that tile `t` holds of a remote point (R533). -/
def copyOf (p : Pkg) (t : Nat) (h : Handle) : Rec := (p.tile t).fabric.copies.getD (bits h 23 0) {}

/-- A copy that has stopped being refreshed (R533): STALE when its last record was usable, else as it was. -/
def staleForm (r : Rec) : Rec :=
  match r.q with
  | .good | .overridden | .held | .latent => { r with q := .stale }
  | _ => r

/-- The record tile `t` sees under handle `h`: its own point read live, another tile's through its copy. -/
def seen (p : Pkg) (t : Nat) (h : Handle) : Rec :=
  if handleTile h == ownNo p t then readPoint p t (handleKey h) else copyOf p t h

/-- The point record of 12 bytes (R27). -/
def pointBytes (r : Rec) : List Byte := le 4 r.value.toNat ++ le 6 r.time.toNat ++ le 1 r.q.code ++ [0]

/-- The quality of a code (R29). -/
def qualityOf (code : Nat) : Quality :=
  ([.good, .overridden, .held, .latent, .badOpen, .badShort, .badRange, .stale, .offline].find? (fun q => q.code == code)).getD .offline

/-- The record that a point record of 12 bytes spells (R27). -/
def recOfPoint (b : List Byte) : Rec :=
  { value := w32 (leAt b 0 4), time := BitVec.ofNat 48 (leAt b 4 6), q := qualityOf (leAt b 10 1) }

/-- A quality is usable, with LATENT_OK and STALE_OK (R204). -/
def usable (q : Quality) (latentOk staleOk : Bool) : Bool :=
  match q with
  | .good | .overridden | .held => true
  | .latent => latentOk
  | .stale => staleOk
  | _ => false

end Sys2Proof.Machine
end

