-- ==== Sys2Proof/Machine/Rings.lean ====
section
/-!
DEFINITION. Rings, their entries and storage, and the raising of events (R381 to R410); the issue of a fabric request
(R46).
-/

namespace Sys2Proof.Machine

/-- Tile `t` issues a fabric request (R46): it carries the incarnation that its source last learned. -/
def issue (t dest cls : Nat) (purpose : Purpose) (op : FabricOp) (limit : Nat) (p : Pkg) : Pkg :=
  onTile t (fun tl =>
    let f := tl.fabric
    let r : FabricReq := { id := f.nextId, origin := t, tile := BitVec.ofNat 4 dest, cls := BitVec.ofNat 2 cls
                           inc := f.learned.getD dest 0, purpose := purpose, op := op }
    { tl with fabric := { f with nextId := f.nextId + 1
                                 out := f.out ++ [{ req := r, sentAt := p.now, limit := limit }] } }) p

/-- The sequence number after `s` (R395). -/
def nextSeqOf (s : Nat) : Nat := if s ≥ 0xFFFFFFFE then 1 else s + 1

/-- Fields of a ring descriptor (R384). -/
def Ring.trigger (r : Ring) : Nat := bits r.desc 7 0
def Ring.stop (r : Ring) : Bool := bit r.desc 8
def Ring.cap (r : Ring) : Nat := 2 ^ bits r.desc 23 16
def Ring.source (r : Ring) : Handle := r.desc.extractLsb' 32 32
def Ring.param (r : Ring) : Word := r.desc.extractLsb' 64 32

/-- One entry is stored, with the overflow rule of R392. The flag says whether it was stored. -/
def Ring.push (b : BitVec 64) (us : Nat) (r : Ring) : Ring × Bool :=
  if r.entries.length < r.cap then
    ({ r with entries := r.entries ++ [{ seq := r.nextSeq, bits := b, time := us }], nextSeq := nextSeqOf r.nextSeq }, true)
  else if r.stop then ({ r with overflows := incSat r.overflows }, false)
  else
    ({ r with entries := r.entries.drop 1 ++ [{ seq := r.nextSeq, bits := b, time := us }]
              nextSeq := nextSeqOf r.nextSeq, overflows := incSat r.overflows }, true)

/-- The bytes of an entry (R387). -/
def entryBits (value : Word) (delta kind : Nat) : BitVec 64 :=
  BitVec.ofNat 64 (value.toNat + 4294967296 * (delta % 16777216) + 72057594037927936 * (kind % 256))

/-- The bytes of an anchor (R387). -/
def anchorBits (us flags : Nat) : BitVec 64 :=
  BitVec.ofNat 64 (us % 281474976710656 + 281474976710656 * flags + 72057594037927936 * 0xFF)

/-- The bits of a frame data entry (R387). -/
def dataBits (g : List Byte) : BitVec 64 := BitVec.ofNat 64 (leNat (g ++ zeros (7 - g.length)) + 72057594037927936 * 0x91)

/-- The default size of a system ring (R381), as SIZE_LOG2; none where the tile does not hold it. -/
def systemSize (t idx : Nat) : Option Nat :=
  match idx with
  | 0 => some 10
  | 1 => if t == 0 then some 8 else none
  | 2 | 3 | 4 => if t ≤ 1 then some 12 else none
  | _ => none

/-- Size of the entry pool of a tile in bytes (R400, R401). -/
def poolSize (t kib : Nat) : Nat :=
  let used := if t ≤ 1 then 0x680000 else 0x100000
  kib * 1024 - used

/-- The lowest free block of `size` bytes in the entry pool of a tile (R401). -/
def findBlock (used : List (Nat × Nat)) (pool size : Nat) : Nat → Nat → Option Nat
  | 0, _ => none
  | fuel + 1, off =>
    if off + size > pool then none
    else if used.any (fun b => off < b.1 + b.2 && b.1 < off + size) then findBlock used pool size fuel (off + size)
    else some off

/-- The block for a ring of 2^`log` entries on tile `t`, not counting ring `skip` (R401, R402). -/
def allocBlock (t : Nat) (tl : Tile) (skip log : Nat) : Option Nat :=
  let size := 8 * 2 ^ log
  if tl.rings.kib < 8192 then none
  else
    let used := (tl.rings.rings.filter (fun q => q.1 != skip)).map (fun q => (q.2.block, 8 * q.2.cap))
    findBlock used (poolSize t tl.rings.kib) size (poolSize t tl.rings.kib / size + 1) 0

/-- A tile whose PSRAM does not answer or is smaller than 8 MiB (R402). -/
def psramShort (tl : Tile) : Bool := tl.rings.kib < 8192

/-- The system rings of a tile at tile reset (R382, R402). -/
def systemRings (t : Nat) (tl : Tile) : Tile :=
  let base := { tl with rings := { tl.rings with rings := [], seqs := [], waits := [], written := 0, lostWrites := 0 } }
  if psramShort tl then base
  else
    (List.range 5).foldl (fun a i =>
      match systemSize t i with
      | none => a
      | some log =>
        let d := BitVec.ofNat 128 (0x80 + 65536 * log + 4294967296 * 0x00FFFFFF)
        let r : Ring := { desc := d, block := (allocBlock t a i log).getD 0 }
        { a with rings := { a.rings with rings := a.rings.rings.set i r } }) base

/-- The ring with index `i`, if it is configured. -/
def Tile.ring? (tl : Tile) (i : Nat) : Option Ring := tl.rings.rings.find? i

/-- Sequence numbers from `a` to `b`, modulo their span (R395). -/
def seqDist (a b : Nat) : Nat := (b + 0xFFFFFFFE - a) % 0xFFFFFFFE

/-- The write queue of a tile at tick `now` (R393): its guaranteed rates drain 2.0 million entries per second, 1.5 million with a bulk
read under way. -/
def drainQueue (bulk : Bool) (now : Nat) (r : Rings) : Rings :=
  { r with queued := r.queued - (now - r.queuedAt) * (if bulk then 9 else 12), queuedAt := now }

/-- An entry joins the write queue of tile `t` (R393). Where the guaranteed rates leave it no room, whether the memory port has
been faster is open. -/
def admitEntry (t now : Nat) (bulk : Bool) (r : Rings) : Rings × Bool :=
  let q := drainQueue bulk now r
  if q.queued + 192 ≤ 1024 * 192 then ({ q with queued := q.queued + 192 }, true)
  else ({ q with fullCtr := q.fullCtr + 1 }, !Config.queueLoses t q.fullCtr)

/-- An entry of ring `i` of tile `t` passes the write queue (R392, R393): it is stored, counted in SYS 51, or lost, counted in LOST and
in SYS 52. The flag says whether it is stored; the list names the ring when OVERFLOWS or LOST has left zero. -/
def writeEntry (t i : Nat) (b : BitVec 64) (us : Nat) (p : Pkg) : (Pkg × Bool) × List Nat :=
  match (p.tile t).ring? i with
  | none => ((p, false), [])
  | some r =>
    let (rs, room) := admitEntry t p.now (p.sh.bulkWaits.any (fun w => w.tile == t)) (p.tile t).rings
    let (r', stored) := if room then r.push b us else ({ r with lost := incSat r.lost }, false)
    ((onTile t (fun tl => { tl with rings := { rs with
        rings := rs.rings.set i r'
        written := if stored then incSat rs.written else rs.written
        lostWrites := if room then rs.lostWrites else incSat rs.lostWrites } }) p, stored),
     if (r.overflows == 0#32 && r'.overflows != 0#32) || (r.lost == 0#32 && r'.lost != 0#32) then [i] else [])

/-- Ring `i` of tile `t` becomes `f` of it. -/
def onRing (t i : Nat) (f : Ring → Ring) (p : Pkg) : Pkg :=
  match (p.tile t).ring? i with
  | none => p
  | some r => onTile t (fun tl => { tl with rings := { tl.rings with rings := tl.rings.rings.set i (f r) } }) p

/-- One entry with a DELTA is written, after a stored anchor where R388 asks for one. -/
def putEntry (t i us : Nat) (value : Word) (kind : Nat) (p : Pkg) : (Pkg × Bool) × List Nat :=
  match (p.tile t).ring? i with
  | none => ((p, false), [])
  | some r =>
    let anchor := r.anchor || us - r.lastUs > 0xFFFFFF
    let ((p1, _), o1) := if anchor then writeEntry t i (anchorBits us 0) us p else ((p, true), [])
    let ((p2, stored), o2) := writeEntry t i (entryBits value (if anchor then 0 else us - r.lastUs) kind) us p1
    ((if stored then onRing t i (fun x => { x with anchor := false, lastUs := us }) p2 else p2, stored), o1 ++ o2)

/-- A point sample of the record `x` is written to ring `i` (R387, R390), at the instant `at_`. -/
def recordPoint (t i : Nat) (x : Rec) (at_ : Nat) (p : Pkg) : Pkg × List Nat :=
  let ((q, stored), o) := putEntry t i (at_ / 32) x.value x.q.code p
  (if stored then onRing t i (fun r => { r with lastRec := some (x.value, x.q) }) q else q, o)

/-- An on-event ring fires (R390): a source on the own tile is recorded at once, another is read in class 3. -/
def fireEventRing (t i : Nat) (p : Pkg) : Pkg × List Nat :=
  match (p.tile t).ring? i with
  | none => (p, [])
  | some r =>
    if handleTile r.source == ownNo p t then recordPoint t i (readPoint p t (handleKey r.source)) p.now p
    else
      (issue t (handleTile r.source) 3 (.ringSource t i) (.read r.source) (p.now + 1000 * msTicks)
        (onTile t (fun tl => { tl with rings := { tl.rings with
            waits := tl.rings.waits ++ [{ ring := i, at_ := p.now, limit := p.now + 100 * msTicks }] } }) p), [])

/-- Triggers fire only while the tile is online (R410). -/
def onlineRings (p : Pkg) (t : Nat) (f : Ring → Bool) : List Nat :=
  if online p t then ((p.tile t).rings.rings.filter (fun q => f q.2)).map (·.1) else []

/-- The Q16.16 reading of a record's value for comparison: binary32 classes are compared converted (R390). -/
def changeOf (conv : Word → Int) (cls : Nat) (v : Word) : Int := if cls == 8 || cls == 9 then conv v else v.toInt

/-- The on-change rings of a tile on its own point `k`. -/
def snoopers (p : Pkg) (t : Nat) (k : Key) : List Nat :=
  onlineRings p t (fun r => r.trigger == 1 && handleKey r.source == k && handleTile r.source == ownNo p t)

/-- An on-change ring meets a write to its source `k` (R390): one that differs enough from the last entry is recorded. -/
def snoopRing (conv : Word → Int) (t i : Nat) (k : Key) (p : Pkg) : Pkg × List Nat :=
  match (p.tile t).ring? i with
  | none => (p, [])
  | some r =>
    let x := readPoint p t k
    let cls := keyClass k
    let fire := match r.lastRec with
      | none => true
      | some (v, ql) => ql != x.q ||
          (if r.param == 0#32 then v != x.value
           else (changeOf conv cls x.value - changeOf conv cls v).natAbs > r.param.toInt.toNat)
    if fire then recordPoint t i x p.now p else (p, [])

/-- PENDING, count and time of a raise (R403, R404), and EVENT_SINCE of every machine and of the permits. -/
def markEvent (now ev : Nat) (tl : Tile) : Tile :=
  let e := tl.events
  let one : BitVec 128 := 1#128 <<< ev
  { tl with
    events := { e with pending := e.pending ||| one, raised := e.raised ||| one
                       permitSince := e.permitSince ||| one
                       counts := e.counts.set ev (Nat.min 65535 (e.counts.getD ev 0 + 1))
                       lastAt := e.lastAt.set ev now }
    machines := tl.machines.mapVals (fun _ m => { m with since := m.since ||| one }) }

/-- The raise may be written to ring 0: not masked, and not within 1 ms of the last such write (R406). -/
def ringZeroAllows (now ev : Nat) (tl : Tile) : Bool :=
  !tl.events.masked.getLsbD ev &&
    (match tl.events.ringAt.find? ev with
     | none => true
     | some last => now ≥ last + msTicks)

/-- Raise of event `ev` on tile `t`, with event 93 for each ring whose count leaves zero (R392, R403). It writes the event's EVT point,
which on-change rings see (R390, R404). Nothing is written to a ring while the tile restarts (R410). -/
def raiseAux : Nat → Nat → Nat → Nat → Pkg → Pkg
  | 0, _, _, _, p => p
  | fuel + 1, t, ev, detail, p =>
    let allow := ringZeroAllows p.now ev (p.tile t) && (online p t || (p.tile t).boot.fromReset)
    let p1 := onTile t (markEvent p.now ev) p
    let (p2, o1) :=
      if allow then
        let v := w32 (ev + 256 * ((p.tile t).boot.incarnation.toNat) + 65536 * (detail % 65536))
        let ((q, stored), o) := putEntry t 0 (p.now / 32) v 0x80 p1
        (if stored then onTile t (fun tl => { tl with events := { tl.events with ringAt := tl.events.ringAt.set ev p.now } }) q else q, o)
      else (p1, [])
    let (p2, o1) := (snoopers p2 t (key 0xD ev)).foldl (fun a i => let (q, o) := snoopRing (·.toInt) t i (key 0xD ev) a.1; (q, a.2 ++ o)) (p2, o1)
    let rings := onlineRings p t (fun r => r.trigger == 3 && bits r.param 6 0 == ev)
    let (p3, o2) := rings.foldl (fun a i => let (q, o) := fireEventRing t i a.1; (q, a.2 ++ o)) (p2, ([] : List Nat))
    (o1 ++ o2).foldl (fun q i => raiseAux fuel t 93 i q) p3

/-- Raise of local event `ev` on tile `t` with a detail word (R389, R403). -/
def raiseWith (t ev detail : Nat) (p : Pkg) : Pkg := raiseAux ((p.tile t).rings.rings.length + 2) t ev detail p

/-- Raise of local event `ev` on tile `t`. -/
def raise (t ev : Nat) (p : Pkg) : Pkg := raiseWith t ev 0 p

/-- Event 93 for each ring listed. -/
def overflowed (t : Nat) (l : List Nat) (p : Pkg) : Pkg := l.foldl (fun q i => raiseWith t 93 i q) p

/-- A raise on every tile of the package. -/
def raiseAll (ev : Nat) (p : Pkg) : Pkg := (List.range p.n).foldl (fun q t => raise t ev q) p

/-- The on-change triggers of a tile snoop a write to point `k` (R390). `conv` is the conversion of R202. -/
def snoopWith (conv : Word → Int) (t : Nat) (k : Key) (p : Pkg) : Pkg :=
  (snoopers p t k).foldl (fun q i => let (q', o) := snoopRing conv t i k q; overflowed t o q') p

end Sys2Proof.Machine
end

