-- ==== Sys2Proof/Machine/Fabric.lean ====
section
/-!
DEFINITION. Routes over the bridges, and the flight tables and admission queues of the tiles (R14 to R17, R34 to R40).
-/

namespace Sys2Proof.Machine

/-- The tiles that share a bridge with `t`, in the order that breaks ties: chord, then t + 1, then t − 1 (R14, R17). -/
def bridges (n t : Nat) : List Nat :=
  match n with
  | 2 => [1 - t]
  | 4 => [(t + 1) % 4, (t + 3) % 4]
  | _ => [(t + 4) % 8, (t + 1) % 8, (t + 7) % 8]

/-- The next hop of R15 from `t` towards `d`. -/
def nextHop (n t d : Nat) : Nat :=
  let k := (d + n - t % n) % n
  match n with
  | 2 => 1 - t
  | 4 => if k == 3 then (t + 3) % 4 else (t + 1) % 4
  | _ => match k with
    | 2 => (t + 1) % 8
    | 6 => (t + 7) % 8
    | 3 | 5 => (t + 4) % 8
    | _ => d

/-- The bridge between two tiles is up (R17). -/
def bridgeUp (p : Pkg) (a b : Nat) : Bool := !(p.tile a).fabric.down.contains b && !(p.tile b).fabric.down.contains a

/-- A tile may carry traffic between others: it is online (R48). -/
def mayCarry (p : Pkg) (t d : Nat) : Bool := t == d || online p t

/-- The path of R15 from `t` to `d`, when each of its bridges is up and each tile on it may carry. -/
def tablePath (p : Pkg) (d : Nat) : Nat → Nat → Option (List Nat)
  | 0, t => if t == d then some [t] else none
  | fuel + 1, t =>
    if t == d then some [t]
    else
      let h := nextHop p.n t d
      if bridgeUp p t h && mayCarry p h d then (tablePath p d fuel h).map (t :: ·) else none

/-- A path of at most `fuel` hops over the bridges that are up, ties broken by R17. -/
def anyPath (p : Pkg) (d : Nat) : Nat → Nat → Option (List Nat)
  | 0, t => if t == d then some [t] else none
  | fuel + 1, t =>
    if t == d then some [t]
    else ((bridges p.n t).filter (fun h => bridgeUp p t h && mayCarry p h d)).findSome?
      (fun h => (anyPath p d fuel h).map (t :: ·))

/-- The path from tile `a` to tile `b` (R15), or the shortest one that is left (R17, R48). -/
def route (p : Pkg) (a b : Nat) : Option (List Nat) :=
  match tablePath p b 4 a with
  | some l => some l
  | none => (List.range 8).findSome? (fun k => anyPath p b k a)

/-- A self test of kind `bit` runs on a tile: 2 its converters, 3 its bridges (R129, R132). -/
def testing (bit : Nat) (tl : Tile) : Bool := tl.counters.tests.any (fun q => q.2.getLsbD bit)

/-- The tile that answers for tile `t` out of service: the one before it on the path from `a` (R48). -/
def answerTile (p : Pkg) (a t : Nat) : Nat :=
  match route p a t with
  | some l => (l.dropLast.getLast?).getD a
  | none => a

/-- The partitions that a class may take an entry of, in order (R34). -/
def partOrder (cls : Nat) : List Nat :=
  match cls with
  | 0 => [0, 3, 2, 1]
  | 1 => [1, 3, 2]
  | 2 => [2, 3]
  | _ => [3]

/-- Entries of a partition (R34). -/
def partSize (part : Nat) : Nat :=
  match part with
  | 1 => 768
  | 2 => 768
  | _ => 256

/-- Entries of a partition in use. -/
def partUsed (fl : List Flight) (part : Nat) : Nat := (fl.filter (fun f => f.part == part)).length

/-- The partition that a request of class `cls` takes an entry of, if any is free (R35). -/
def freePart (fl : List Flight) (cls : Nat) : Option Nat :=
  (partOrder cls).find? (fun part => partUsed fl part < partSize part)

/-- What becomes of an arriving request (R37). -/
inductive Admission where
  | served | delayed | refused
  deriving DecidableEq, Repr

/-- Requests of class `cls` that wait at tile `t` (R37): those of its admission queue, and in class 3 the commands that wait for
a bulk buffer (R96). -/
def waitingAt (p : Pkg) (t cls : Nat) : Nat :=
  ((p.tile t).fabric.queue.filter (fun q => q.cls == cls)).length
    + (if cls == 3 then (p.sh.bulkWaits.filter (fun w => w.tile == t)).length else 0)

/-- What a RING_READ latches when it is admitted: the next sequence number of its ring, where that is configured (R396). -/
def ringLatch (tl : Tile) (w : Work) : Option Nat :=
  match w with
  | .command (.ringRead _ id _ _) => (tl.ring? (bits id 14 0)).map (·.nextSeq)
  | _ => none

/-- What work under way on a tile latched when it was admitted. -/
def latchedSeq (tl : Tile) (w : Work) : Option Nat := (tl.fabric.flights.find? (fun f => f.started && f.work == w)).bind (·.latch)

/-- A request arrives at tile `t` (R35, R37): it takes an entry, joins the queue of its class until `limit`, or is
refused. One of class 0 is served in any case (R39). -/
def arrive (w : Work) (t cls limit : Nat) (p : Pkg) : Pkg × Admission :=
  let f := (p.tile t).fabric
  match freePart f.flights cls with
  | some part =>
    (onTile t (fun tl => { tl with fabric := { tl.fabric with
        flights := tl.fabric.flights ++ [{ work := w, cls := cls, part := part, order := tl.fabric.nextOrder
                                           latch := ringLatch tl w }]
        nextOrder := tl.fabric.nextOrder + 1 } }) p, .served)
  | none =>
    if cls == 0 then (p, .served)
    else if waitingAt p t cls < 64 then
      (onTile t (fun tl => { tl with fabric := { tl.fabric with
          queue := tl.fabric.queue ++ [{ work := w, cls := cls, limit := limit, order := tl.fabric.nextOrder }]
          nextOrder := tl.fabric.nextOrder + 1 } }) p, .delayed)
    else (countRefused cls p, .refused)

/-- Ticks that a request of a class may wait (R38), where no rate group originated it. -/
def admissionTicks (cls : Nat) : Nat :=
  match cls with
  | 1 => 10 * msTicks
  | 2 => 100 * msTicks
  | _ => 1000 * msTicks

/-- The first request of class `cls` in a queue. -/
def firstOf (cls : Nat) (q : List Waiting) : Option Waiting := q.find? (fun w => w.cls == cls)

/-- The waiting request that takes a free entry: the first of class 1 that may, else of class 2, else of class 3
(R40). -/
def nextAdmitted (f : Fabric) : Option (Waiting × Nat) :=
  [1, 2, 3].findSome? (fun cls =>
    match firstOf cls f.queue, freePart f.flights cls with
    | some w, some part => some (w, part)
    | _, _ => none)

/-- One waiting request is admitted, if one may be (R40). -/
def admitOne (tl : Tile) : Tile :=
  match nextAdmitted tl.fabric with
  | none => tl
  | some (w, part) =>
    { tl with fabric := { tl.fabric with
        queue := tl.fabric.queue.filter (fun q => q.order != w.order)
        flights := tl.fabric.flights ++ [{ work := w.work, cls := w.cls, part := part, order := w.order
                                           latch := ringLatch tl w.work }] } }

/-- The entries that `f` selects on tile `t` are freed, and the queue is offered as many (R35, R40). -/
def freeFlights (t : Nat) (f : Work → Bool) (p : Pkg) : Pkg :=
  let fl := (p.tile t).fabric.flights
  let gone := (fl.filter (fun x => f x.work)).length
  onTile t (fun tl =>
    (List.range gone).foldl (fun a _ => admitOne a)
      { tl with fabric := { tl.fabric with flights := tl.fabric.flights.filter (fun x => !f x.work) } }) p

/-- The command of `w` came from `src`. -/
def workFrom (src : Source) (w : Work) : Bool :=
  match w with
  | .command i => match commandParts i with
    | some (c, _, _) => c.src == src
    | none => false
  | .request _ => false

/-- The entries of a command that has posted its final completion are freed in every tile. -/
def freeCommand (src : Source) (p : Pkg) : Pkg :=
  (List.range p.n).foldl (fun q t =>
    if (q.tile t).fabric.flights.any (fun x => workFrom src x.work) then freeFlights t (workFrom src) q else q) p

/-- A reply is discarded and counted in SYS 7 of tile `t` (R48). -/
def countDiscarded (t : Nat) (p : Pkg) : Pkg :=
  onTile t (fun tl => { tl with fabric := { tl.fabric with discarded := incSat tl.fabric.discarded } }) p

end Sys2Proof.Machine
end

