-- ==== Sys2Proof/Machine/Operands.lean ====
section
/-!
DEFINITION. The operand forms that commands share (R97, R109 to R111, R116 to R129): classes, targets, expected
incarnations, reserved fields, and the reads that are pure.
-/

namespace Sys2Proof.Machine

/-- The priority classes that an opcode admits, as bits (R109, R116 to R129). -/
def classMask (op : Byte) : Nat :=
  match op with
  | 0x00 | 0x10 | 0x12 | 0x21 | 0x2A | 0x54 | 0x63 | 0x6D | 0x74 | 0x83 | 0x8A | 0xC5 | 0xF1 => 0b1110
  | 0x04 | 0x11 | 0x13 | 0x29 | 0x32 | 0x43 | 0x61 | 0x62 | 0x65 | 0x69 | 0x6A => 0b0110
  | 0x31 | 0x40 | 0x42 | 0x51 | 0x72 | 0x81 | 0xA1 | 0xC1 => 0b1100
  | 0x71 | 0xA3 => 0b1000
  | _ => 0b0100

/-- The opcode admits the class (R109). -/
def classAdmitted (op : Byte) (cls : BitVec 2) : Bool := (classMask op).testBit cls.toNat

/-- Package commands (R110). -/
def packageCommand (op : Byte) : Bool :=
  op == 0x03 || op == 0x05 || op == 0x08 || (0x80 ≤ op && op ≤ 0x8A) || (0xB0 ≤ op && op ≤ 0xB2) || (0xC0 ≤ op && op ≤ 0xC5)

/-- Panel commands (R110). -/
def panelCommand (op : Byte) : Bool := op == 0x90 || op == 0x91 || op == 0x92

/-- The TILE of a command is one that its opcode may name (R110): tile `t` of its own package. ENTROPY_READ is of the policy family,
and takes its bytes from the tile that it names (R479). -/
def targetAdmitted (op : Byte) (t : Nat) : Bool :=
  if packageCommand op || op == 0xB3 then t < 2 else if panelCommand op then t == 0 else true

/-- Where a payload carries its expected incarnation (R111). -/
def eiOffset (op : Byte) : Option Nat :=
  match op with
  | 0x02 => some 1
  | 0x11 | 0x14 => some 8
  | 0x13 => some 0
  | 0x15 => some 4
  | 0x20 | 0x22 | 0x62 | 0x64 | 0x68 | 0x69 | 0x6A | 0x6B | 0x6C | 0x6E => some 1
  | 0x30 | 0x61 => some 2
  | 0x32 | 0x33 | 0x43 => some 3
  | _ => none

/-- The expected incarnation that a payload carries; 0 makes no check (R46, R111). -/
def eiOf (op : Byte) (pl : List Byte) : Nat :=
  match eiOffset op with
  | some o => leAt pl o 1
  | none => 0

/-- Reserved bytes of a payload, as offset and length (R9, R116 to R129). -/
def reservedSpans (op : Byte) : List (Nat × Nat) :=
  match op with
  | 0x02 | 0x07 | 0x20 | 0x2B | 0x31 | 0x34 | 0x54 | 0x60 | 0x62 | 0x64 | 0x65 | 0x68 | 0x69 | 0x6A | 0x6C | 0x6E
  | 0xA2 | 0xB3 | 0xF1 => [(2, 2)]
  | 0x06 => [(7, 1)]
  | 0x11 | 0x14 => [(9, 3)]
  | 0x13 | 0x21 | 0x2A | 0x63 | 0x6D | 0x73 | 0x80 | 0x83 | 0x89 | 0xA1 | 0xB1 | 0xB2 => [(1, 3)]
  | 0x15 => [(5, 3)]
  | 0x28 | 0x30 | 0x52 | 0x61 | 0x6B => [(3, 1)]
  | 0x40 | 0x41 | 0x81 | 0xB0 | 0xC3 => [(1, 1)]
  | 0x50 | 0x51 => [(1, 1), (6, 2)]
  | 0x90 => [(1, 3), (9, 3)]
  | _ => []

/-- Every reserved byte of the payload is zero, and the reserved flag bits of GOVERNOR too (R9, R118). -/
def reservedOk (op : Byte) (pl : List Byte) : Bool :=
  (reservedSpans op).all (fun s => leAt pl s.1 s.2 == 0) && (op != 0x06 || leAt pl 6 1 < 2)

/-- Pure reads (R472): commands whose only effect is their reply. -/
def pureRead (op : Byte) (pl : List Byte) : Bool :=
  match op with
  | 0x01 | 0x04 | 0x10 | 0x12 | 0x21 | 0x2A | 0x31 | 0x42 | 0x51 | 0x54 | 0x63 | 0x6D | 0x71 | 0x83 | 0x8A | 0xA1 | 0xA3
  | 0xB1 | 0xC5 => true
  | 0x02 => leAt pl 0 1 == 0
  | 0x06 => leAt pl 6 1 % 2 == 1
  | _ => false

/-- The point handles that a command of the point family names (R116). -/
def commandHandles (op : Byte) (pl : List Byte) : List Handle :=
  match op with
  | 0x10 | 0x11 | 0x14 | 0x15 => [fld pl 0 4]
  | 0x12 => (groups 4 pl).map (fun g => fld g 0 4)
  | 0x13 => (groups 8 (pl.drop 4)).map (fun g => fld g 0 4)
  | _ => []

end Sys2Proof.Machine
end

