-- ==== Sys2Proof/Machine/Rights.lean ====
section
/-!
DEFINITION. Access policy (R469 to R475): the rights of a port to points and commands, and the record of a refusal.
-/

namespace Sys2Proof.Machine

/-- The bit of an opcode's family (R470). -/
def familyBit (op : Byte) : Nat :=
  let n := op.toNat
  if n < 0x10 then 0 else if n < 0x20 then 1 else if n < 0x28 then 2 else if n < 0x30 then 3 else if n < 0x40 then 4
  else if n < 0x50 then 5 else if n < 0x60 then 6 else if n < 0x68 then 7 else if n < 0x6C then 8 else if n < 0x70 then 9
  else if n < 0x80 then 10 else if n < 0x88 then 11 else if n < 0x90 then 12 else if n < 0xA0 then 13
  else if n < 0xB0 then 14 else if n < 0xC0 then 15 else if n < 0xD0 then 16 else 17

/-- The rights (READ 1, WRITE 2, OVERRIDE 4) that one rule gives to a handle (R470, R471). -/
def ruleRights (r : BitVec 64) (h : Handle) : Nat :=
  let cls := bits r 7 0
  let i := handleIdx h
  if (cls == 0xFF || cls == handleClass h) && bit r (16 + handleTile h) && bits r 47 32 ≤ i && i ≤ bits r 63 48 then
    bits r 10 8
  else 0

/-- The rights of a policy to a handle: the union of its rules (R471). -/
def policyRights (pol : Policy) (h : Handle) : Nat := pol.rules.foldl (fun a r => a ||| ruleRights r h) 0

/-- The right that a point command needs (R471). -/
def neededRight (op : Byte) : Nat :=
  match op with
  | 0x10 | 0x12 => 1
  | 0x11 | 0x13 => 2
  | 0x14 | 0x15 => 4
  | _ => 0

/-- The policy grants all of `need` to the handle. -/
def granted (pol : Policy) (need : Nat) (h : Handle) : Bool := policyRights pol h &&& need == need

/-- Ports in the order of POLICY_LOAD (R127). -/
def portHost : Nat := 0
def portService : Nat := 1
def portBus0 : Nat := 2
def portBus1 : Nat := 3
def portTether : Nat := 5

/-- The port that governs a command of a source; a machine's own actions come by no port (R469). -/
def sourcePort (s : Source) : Option Nat :=
  match s with
  | .host .. => some portHost
  | .service .. => some portService
  | .machine .. => none
  | .far _ => some portTether

/-- The policy of a port allows a command (R471): its family, where the port has families, and the right to each of its
points. The service port always has counters, policy and update. A read of PRF points needs the COUNTERS right at the host port,
and no access to them crosses the tether (R512). -/
def commandAllowed (pol : Policy) (port : Nat) (op : Byte) (pl : List Byte) : Bool :=
  let fam := familyBit op
  let family := port == portTether || pol.commands.getLsbD fam
    || (port == portService && (fam == 14 || fam == 15 || fam == 16))
  let prf := (commandHandles op pl).any (fun h => handleClass h == 0xE)
  let counters := !prf || port == portService || (port == portHost && (neededRight op != 1 || pol.commands.getLsbD 14))
  family && counters && (commandHandles op pl).all (granted pol (neededRight op))

/-- The source may issue a command under the present policies of tile `t` (R471). -/
def allowedAt (p : Pkg) (t : Nat) (s : Source) (op : Byte) (pl : List Byte) : Bool :=
  match sourcePort s with
  | none => true
  | some port => commandAllowed ((p.tile t).policy port) port op pl

/-- The epoch of the policy that governs a source on tile `t`. -/
def policyEpoch (p : Pkg) (t : Nat) (s : Source) : BitVec 16 :=
  match sourcePort s with
  | none => 0
  | some port => ((p.tile t).policy port).epoch

/-- A refusal by policy on tile `t`: event 86 and SYS 54 (R472). -/
def refusedByPolicy (t : Nat) (p : Pkg) : Pkg :=
  raise t 86 (onTile t (fun tl => { tl with fabric := { tl.fabric with policyRefused := incSat tl.fabric.policyRefused } }) p)

/-- The commit check of R472: the epoch has moved since the command was checked and the new rules deny it. -/
def policyMoved (p : Pkg) (t : Nat) (c : Ctx) (op : Byte) (pl : List Byte) : Bool :=
  (sourcePort c.src).isSome && policyEpoch p t c.src != c.epoch && !allowedAt p t c.src op pl

/-- A command that posted ACCEPTED, or that waits, is denied at its commit instant on tile `t` (R472). The rights to points are those
of point commands only, so its payload plays no part. -/
def deniedNow (p : Pkg) (t : Nat) (op : Byte) (c : Ctx) : Bool := policyMoved p t c op []

/-- A command denied at its commit instant completes POLICY_CHANGED, and is not performed in any part (R472). -/
def denyCommit (t : Nat) (op : Byte) (c : Ctx) (p : Pkg) : Pkg := finish c op stPolicyChanged t (refusedByPolicy t p)

/-- The owner lock of the package (R475). -/
def ownerLocked (p : Pkg) : Bool := (p.tile p.lead).flash.ownerLock

end Sys2Proof.Machine
end

