-- ==== Sys2Proof/Machine/Crypto.lean ====
section
/-!
DEFINITION. The check and cipher functions the spec names: CRC-32C (R98), SHA-256 and SHA-512 (FIPS 180-4),
HMAC-SHA-256 (R415), X25519 (RFC 7748, R417) and the verification of pure Ed25519 signatures (RFC 8032, R455).
-/

namespace Sys2Proof.Machine

/-- One bit of the reflected CRC-32C (R98). -/
def crcBit (c : BitVec 32) : BitVec 32 := if c.getLsbD 0 then (c >>> 1) ^^^ 0x82F63B78#32 else c >>> 1

/-- One byte of the reflected CRC-32C. -/
def crcByte (c : BitVec 32) (b : Byte) : BitVec 32 :=
  crcBit (crcBit (crcBit (crcBit (crcBit (crcBit (crcBit (crcBit (c ^^^ b.setWidth 32))))))))

/-- CRC-32C over bytes (R98). -/
def crc32c (bs : List Byte) : BitVec 32 := bs.foldl crcByte 0xFFFFFFFF#32 ^^^ 0xFFFFFFFF#32

/-- The number that big-endian bytes spell. -/
def beNat (bs : List Byte) : Nat := bs.foldl (fun a b => a * 256 + b.toNat) 0

/-- The `n` big-endian bytes of `v`. -/
def be (n v : Nat) : List Byte := (le n v).reverse

/-- Lists of `k` bytes each, `n` of them. -/
def blocks (k : Nat) : Nat → List Byte → List (List Byte)
  | 0, _ => []
  | n + 1, bs => bs.take k :: blocks k n (bs.drop k)

/-- Constants of SHA-256. -/
def sha256K : List Nat :=
  [0x428A2F98, 0x71374491, 0xB5C0FBCF, 0xE9B5DBA5, 0x3956C25B, 0x59F111F1, 0x923F82A4, 0xAB1C5ED5] ++
  [0xD807AA98, 0x12835B01, 0x243185BE, 0x550C7DC3, 0x72BE5D74, 0x80DEB1FE, 0x9BDC06A7, 0xC19BF174] ++
  [0xE49B69C1, 0xEFBE4786, 0xFC19DC6, 0x240CA1CC, 0x2DE92C6F, 0x4A7484AA, 0x5CB0A9DC, 0x76F988DA] ++
  [0x983E5152, 0xA831C66D, 0xB00327C8, 0xBF597FC7, 0xC6E00BF3, 0xD5A79147, 0x6CA6351, 0x14292967] ++
  [0x27B70A85, 0x2E1B2138, 0x4D2C6DFC, 0x53380D13, 0x650A7354, 0x766A0ABB, 0x81C2C92E, 0x92722C85] ++
  [0xA2BFE8A1, 0xA81A664B, 0xC24B8B70, 0xC76C51A3, 0xD192E819, 0xD6990624, 0xF40E3585, 0x106AA070] ++
  [0x19A4C116, 0x1E376C08, 0x2748774C, 0x34B0BCB5, 0x391C0CB3, 0x4ED8AA4A, 0x5B9CCA4F, 0x682E6FF3] ++
  [0x748F82EE, 0x78A5636F, 0x84C87814, 0x8CC70208, 0x90BEFFFA, 0xA4506CEB, 0xBEF9A3F7, 0xC67178F2]

/-- Initial hash of SHA-256. -/
def sha256H : List Nat :=
  [0x6A09E667, 0xBB67AE85, 0x3C6EF372, 0xA54FF53A, 0x510E527F, 0x9B05688C, 0x1F83D9AB, 0x5BE0CD19]

/-- Constants of SHA-512. -/
def sha512K : List Nat :=
  [0x428A2F98D728AE22, 0x7137449123EF65CD, 0xB5C0FBCFEC4D3B2F, 0xE9B5DBA58189DBBC] ++
  [0x3956C25BF348B538, 0x59F111F1B605D019, 0x923F82A4AF194F9B, 0xAB1C5ED5DA6D8118] ++
  [0xD807AA98A3030242, 0x12835B0145706FBE, 0x243185BE4EE4B28C, 0x550C7DC3D5FFB4E2] ++
  [0x72BE5D74F27B896F, 0x80DEB1FE3B1696B1, 0x9BDC06A725C71235, 0xC19BF174CF692694] ++
  [0xE49B69C19EF14AD2, 0xEFBE4786384F25E3, 0xFC19DC68B8CD5B5, 0x240CA1CC77AC9C65] ++
  [0x2DE92C6F592B0275, 0x4A7484AA6EA6E483, 0x5CB0A9DCBD41FBD4, 0x76F988DA831153B5] ++
  [0x983E5152EE66DFAB, 0xA831C66D2DB43210, 0xB00327C898FB213F, 0xBF597FC7BEEF0EE4] ++
  [0xC6E00BF33DA88FC2, 0xD5A79147930AA725, 0x6CA6351E003826F, 0x142929670A0E6E70] ++
  [0x27B70A8546D22FFC, 0x2E1B21385C26C926, 0x4D2C6DFC5AC42AED, 0x53380D139D95B3DF] ++
  [0x650A73548BAF63DE, 0x766A0ABB3C77B2A8, 0x81C2C92E47EDAEE6, 0x92722C851482353B] ++
  [0xA2BFE8A14CF10364, 0xA81A664BBC423001, 0xC24B8B70D0F89791, 0xC76C51A30654BE30] ++
  [0xD192E819D6EF5218, 0xD69906245565A910, 0xF40E35855771202A, 0x106AA07032BBD1B8] ++
  [0x19A4C116B8D2D0C8, 0x1E376C085141AB53, 0x2748774CDF8EEB99, 0x34B0BCB5E19B48A8] ++
  [0x391C0CB3C5C95A63, 0x4ED8AA4AE3418ACB, 0x5B9CCA4F7763E373, 0x682E6FF3D6B2B8A3] ++
  [0x748F82EE5DEFB2FC, 0x78A5636F43172F60, 0x84C87814A1F0AB72, 0x8CC702081A6439EC] ++
  [0x90BEFFFA23631E28, 0xA4506CEBDE82BDE9, 0xBEF9A3F7B2C67915, 0xC67178F2E372532B] ++
  [0xCA273ECEEA26619C, 0xD186B8C721C0C207, 0xEADA7DD6CDE0EB1E, 0xF57D4F7FEE6ED178] ++
  [0x6F067AA72176FBA, 0xA637DC5A2C898A6, 0x113F9804BEF90DAE, 0x1B710B35131C471B] ++
  [0x28DB77F523047D84, 0x32CAAB7B40C72493, 0x3C9EBE0A15C9BEBC, 0x431D67C49C100D4C] ++
  [0x4CC5D4BECB3E42B6, 0x597F299CFC657E2A, 0x5FCB6FAB3AD6FAEC, 0x6C44198C4A475817]

/-- Initial hash of SHA-512. -/
def sha512H : List Nat :=
  [0x6A09E667F3BCC908, 0xBB67AE8584CAA73B, 0x3C6EF372FE94F82B, 0xA54FF53A5F1D36F1] ++
  [0x510E527FADE682D1, 0x9B05688C2B3E6C1F, 0x1F83D9ABFB41BD6B, 0x5BE0CD19137E2179]

/-- Rotations of one of the two hash functions: word width, message schedule and round functions. -/
structure ShaForm where
  w : Nat
  rounds : Nat
  s0 : Nat × Nat × Nat
  s1 : Nat × Nat × Nat
  b0 : Nat × Nat × Nat
  b1 : Nat × Nat × Nat
  deriving DecidableEq, Repr

def sha256Form : ShaForm :=
  { w := 32, rounds := 64, s0 := (7, 18, 3), s1 := (17, 19, 10), b0 := (2, 13, 22), b1 := (6, 11, 25) }
def sha512Form : ShaForm :=
  { w := 64, rounds := 80, s0 := (1, 8, 7), s1 := (19, 61, 6), b0 := (28, 34, 39), b1 := (14, 18, 41) }

/-- Rotate right in `w` bits. -/
def rotr (w x n : Nat) : Nat := (x >>> n) ||| ((x <<< (w - n)) % 2 ^ w)

def shaSmall (w : Nat) (r : Nat × Nat × Nat) (x : Nat) : Nat := rotr w x r.1 ^^^ rotr w x r.2.1 ^^^ (x >>> r.2.2)
def shaBig (w : Nat) (r : Nat × Nat × Nat) (x : Nat) : Nat := rotr w x r.1 ^^^ rotr w x r.2.1 ^^^ rotr w x r.2.2

/-- The message schedule, newest word first, extended by `n` words. -/
def shaSchedule (f : ShaForm) : Nat → List Nat → List Nat
  | 0, ws => ws
  | n + 1, ws =>
    let x := (shaSmall f.w f.s1 (ws.getD 1 0) + ws.getD 6 0 + shaSmall f.w f.s0 (ws.getD 14 0) + ws.getD 15 0) % 2 ^ f.w
    shaSchedule f n (x :: ws)

/-- One round over the eight working words. -/
def shaRound (f : ShaForm) (s : List Nat) (kw : Nat × Nat) : List Nat :=
  match s with
  | [a, b, c, d, e, g, h, i] =>
    let ch := (e &&& g) ^^^ ((2 ^ f.w - 1 - e) &&& h)
    let maj := (a &&& b) ^^^ (a &&& c) ^^^ (b &&& c)
    let t1 := i + shaBig f.w f.b1 e + ch + kw.1 + kw.2
    let t2 := shaBig f.w f.b0 a + maj
    [(t1 + t2) % 2 ^ f.w, a, b, c, (d + t1) % 2 ^ f.w, e, g, h]
  | _ => s

/-- One block. -/
def shaBlock (f : ShaForm) (ks : List Nat) (h : List Nat) (block : List Byte) : List Nat :=
  let ws := ((blocks (f.w / 8) 16 block).map beNat).reverse
  let sched := (shaSchedule f (f.rounds - 16) ws).reverse
  let out := (ks.zip sched).foldl (shaRound f) h
  (h.zip out).map (fun q => (q.1 + q.2) % 2 ^ f.w)

/-- A hash of FIPS 180-4. -/
def sha (f : ShaForm) (ks h0 : List Nat) (bs : List Byte) : List Byte :=
  let bb := f.w * 2
  let lb := f.w / 4
  let n := bs.length
  let padded := (n + 1 + lb + bb - 1) / bb * bb
  let msg := bs ++ [0x80] ++ zeros (padded - n - 1 - lb) ++ be lb (8 * n)
  ((blocks bb (padded / bb) msg).foldl (shaBlock f ks) h0).flatMap (be (f.w / 8))

/-- SHA-256 (FIPS 180-4). -/
def sha256 (bs : List Byte) : List Byte := sha sha256Form sha256K sha256H bs

/-- SHA-512 (FIPS 180-4). -/
def sha512 (bs : List Byte) : List Byte := sha sha512Form sha512K sha512H bs

/-- HMAC-SHA-256 (FIPS 198-1) with a key of at most 64 bytes. -/
def hmac (k msg : List Byte) : List Byte :=
  let k0 := k ++ zeros (64 - k.length)
  sha256 (k0.map (· ^^^ 0x5C) ++ sha256 (k0.map (· ^^^ 0x36) ++ msg))

/-- The field prime 2^255 − 19. -/
def p25519 : Nat := 2 ^ 255 - 19

/-- `b ^ e mod m`, over the `n` low bits of `e`. -/
def powMod (m : Nat) : Nat → Nat → Nat → Nat
  | 0, _, _ => 1
  | n + 1, b, e =>
    let r := powMod m n (b * b % m) (e / 2)
    if e % 2 == 1 then b * r % m else r

/-- Inverse in the field. -/
def inv25519 (x : Nat) : Nat := powMod p25519 255 x (p25519 - 2)

/-- Difference in the field. -/
def subP (a b : Nat) : Nat := (a + p25519 - b % p25519) % p25519

/-- The Montgomery ladder of RFC 7748 over `n` bits of `k`, from the highest. -/
def ladder (u k : Nat) : Nat → Nat × Nat × Nat × Nat → Nat × Nat × Nat × Nat
  | 0, s => s
  | n + 1, (x2, z2, x3, z3) =>
    let kt := k >>> n &&& 1
    let (x2, z2, x3, z3) := if kt == 1 then (x3, z3, x2, z2) else (x2, z2, x3, z3)
    let a := (x2 + z2) % p25519
    let aa := a * a % p25519
    let b := subP x2 z2
    let bb := b * b % p25519
    let e := subP aa bb
    let c := (x3 + z3) % p25519
    let d := subP x3 z3
    let da := d * a % p25519
    let cb := c * b % p25519
    let x3' := (da + cb) * (da + cb) % p25519
    let df := subP da cb
    let z3' := u * (df * df % p25519) % p25519
    let x2' := aa * bb % p25519
    let z2' := e * ((aa + 121665 * e) % p25519) % p25519
    ladder u k n (if kt == 1 then (x3', z3', x2', z2') else (x2', z2', x3', z3'))

/-- X25519 (RFC 7748): scalar and u-coordinate as 32 bytes. -/
def x25519 (k u : List Byte) : List Byte :=
  let kn := leNat k
  let kc := (kn % 2 ^ 254) / 8 * 8 + 2 ^ 254
  let un := leNat u % 2 ^ 255 % p25519
  let (x2, z2, _, _) := ladder un kc 255 (1, 0, un, 1)
  le 32 (x2 * inv25519 z2 % p25519)

/-- The curve constant and base point of Ed25519 (RFC 8032). -/
def edD : Nat := (p25519 - 121665 * inv25519 121666 % p25519) % p25519
def edL : Nat := 2 ^ 252 + 27742317777372353535851937790883648493

/-- x of a point with the given y and sign bit, when there is one. -/
def edRecover (y sign : Nat) : Option Nat :=
  if y ≥ p25519 then none
  else
    let y2 := y * y % p25519
    let x2 := subP y2 1 * inv25519 ((edD * y2 + 1) % p25519) % p25519
    if x2 == 0 then (if sign == 1 then none else some 0)
    else
      let x := powMod p25519 255 x2 ((p25519 + 3) / 8)
      let x := if subP (x * x) x2 == 0 then x else x * powMod p25519 255 2 ((p25519 - 1) / 4) % p25519
      if subP (x * x) x2 != 0 then none
      else some (if x % 2 != sign then p25519 - x else x)

/-- Sum of two points in extended coordinates. -/
def edAdd (a b : Nat × Nat × Nat × Nat) : Nat × Nat × Nat × Nat :=
  match a, b with
  | (x1, y1, z1, t1), (x2, y2, z2, t2) =>
    let p := p25519
    let aa := subP y1 x1 * subP y2 x2 % p
    let bb := (y1 + x1) * (y2 + x2) % p
    let cc := 2 * t1 * t2 * edD % p
    let dd := 2 * z1 * z2 % p
    let e := subP bb aa
    let f := subP dd cc
    let g := (dd + cc) % p
    let h := (bb + aa) % p
    (e * f % p, g * h % p, f * g % p, e * h % p)

/-- `s` times a point, over `n` bits. -/
def edMul : Nat → Nat → Nat × Nat × Nat × Nat → Nat × Nat × Nat × Nat
  | 0, _, _ => (0, 1, 1, 0)
  | n + 1, s, a =>
    let r := edMul n (s / 2) (edAdd a a)
    if s % 2 == 1 then edAdd a r else r

/-- Equality of two points. -/
def edEq (a b : Nat × Nat × Nat × Nat) : Bool :=
  subP (a.1 * b.2.2.1) (b.1 * a.2.2.1 % p25519) == 0 && subP (a.2.1 * b.2.2.1) (b.2.1 * a.2.2.1 % p25519) == 0

/-- A point from its 32 bytes. -/
def edDecode (bs : List Byte) : Option (Nat × Nat × Nat × Nat) :=
  let v := leNat bs
  let y := v % 2 ^ 255
  match edRecover y (v / 2 ^ 255) with
  | none => none
  | some x => some (x, y, 1, x * y % p25519)

/-- The base point. -/
def edBase : Nat × Nat × Nat × Nat :=
  let y := 4 * inv25519 5 % p25519
  let x := (edRecover y 0).getD 0
  (x, y, 1, x * y % p25519)

/-- Verification of a pure Ed25519 signature (RFC 8032). -/
def edVerify (pub msg sig : List Byte) : Bool :=
  match edDecode pub, edDecode (sig.take 32) with
  | some a, some r =>
    let s := leNat (sig.drop 32)
    let k := leNat (sha512 (sig.take 32 ++ pub ++ msg)) % edL
    sig.length == 64 && s < edL && edEq (edMul 253 s edBase) (edAdd r (edMul 253 k a))
  | _, _ => false

end Sys2Proof.Machine
end

