-- ==== Sys2Proof/Machine/PortCount.lean ====
section
/-!
DEFINITION. The bytes that cross the ports of the lead tile, as its bandwidth counters count them (R504).
-/

namespace Sys2Proof.Machine

/-- The number of the window of a bandwidth counter that a tick falls in (R504). -/
def Ctr.windowNo (now : Nat) (c : Ctr) : Nat := now / (c.window.toNat * usTicks)

/-- Bytes cross the port of a bandwidth counter at tick `now` (R504). -/
def Ctr.count (now received sent : Nat) (c : Ctr) : Ctr :=
  let same := c.windowNo now == c.winNo
  { c with winNo := c.windowNo now, bytesIn := (if same then c.bytesIn else 0) + received, bytesOut := (if same then c.bytesOut else 0) + sent }

/-- Bytes cross a port that the lead tile holds at tick `at_` (R504): 0x10 host, 0x11 service, 0x12 tether, 0x13 BUS0,
0x14 BUS1, 0x15 T1S. -/
def countPort (src at_ received sent : Nat) (p : Pkg) : Pkg :=
  if p.sh.dark.dark then p
  else onTile p.lead (fun tl => { tl with counters := { tl.counters with ctrs := tl.counters.ctrs.mapVals (fun _ c =>
    if c.mode == 2 && c.src.toNat == src then c.count at_ received sent else c) } }) p

end Sys2Proof.Machine
end

