-- ==== Sys2Proof/Machine/TetherFrames.lean ====
section
/-!
DEFINITION. The sending of tether frames and their tags (R414, R415).
-/

namespace Sys2Proof.Machine

/-- Frame types (R414). -/
def ftHello : Byte := 0x01
def ftIdle : Byte := 0x02
def ftTime : Byte := 0x03
def ftClose : Byte := 0x04
def ftRequest : Byte := 0x10
def ftReply : Byte := 0x11
def ftAnnounce : Byte := 0x12
def ftPair : Byte := 0x20

/-- The tether changed by `f`. -/
def onTether (f : Tether → Tether) (p : Pkg) : Pkg := onShared (fun s => { s with tether := f s.tether }) p

/-- The key that tags a frame of a type: the session key, the pairing key for HELLO, zeros for PAIR (R415). -/
def frameKey (te : Tether) (ftype : Byte) : List Byte :=
  if ftype == ftPair then zeros 32
  else if ftype == ftHello then te.pairKey.getD (zeros 32)
  else te.session.key

/-- The tag of a frame (R415): direction, 64-bit counter, then bytes 2 onwards of the frame up to the end of the
payload. -/
def frameTag (key : List Byte) (fromFar : Bool) (counter : Nat) (ftype : Byte) (cls : BitVec 2) (payload : List Byte) :
    List Byte :=
  (hmac key (le 1 (b2n fromFar) ++ le 8 counter ++ [ftype] ++ le 1 cls.toNat ++ le 2 payload.length
    ++ le 4 counter ++ payload)).take 8

/-- How long a frame of `len` payload bytes lasts, in whole ticks (R414). -/
def frameTicks (len : Nat) : Nat := (2048 * (18 + len) + 99) / 100

/-- The ticks in which BULK_SHARE looks back, and the most of them that class 3 may have used (R418, R420). -/
def shareWindow : Nat := 10 * msTicks
def shareTicks (share : Byte) : Nat := shareWindow * (if share == 0 then 50 else share.toNat) / 100

/-- The first tick at which no more than `excess` fewer of the used ticks after `base` still count, oldest first (R420). -/
def shareBack (t base : Nat) : Nat → List (Nat × Nat) → Nat
  | 0, _ => t
  | _, [] => t
  | excess + 1, u :: us =>
    let d := u.2 - Nat.max u.1 base
    if excess + 1 ≤ d then Nat.max u.1 base + (excess + 1) + shareWindow else shareBack t base (excess + 1 - d) us

/-- The first tick from `t` at which a class 3 frame is not held back (R420). -/
def bulkMay (te : Tether) (t : Nat) : Nat :=
  let base := t - shareWindow
  let used := te.bulkUse.foldl (fun a u => a + (u.2 - Nat.max u.1 base)) 0
  shareBack t base (used - shareTicks te.bulkShare) te.bulkUse

/-- The frame that leaves next, and when (R420): class order, and arrival order within a class. -/
def nextOut (te : Tether) : Option (Nat × SentFrame) :=
  match [0, 1, 2].findSome? (fun k => te.queue.find? (fun f => f.cls.toNat == k)) with
  | some f => some (te.lineFree, f)
  | none => te.queue.head?.map (fun f => (bulkMay te te.lineFree, f))

/-- A frame leaves at tick `at_` with its counter and tag, and is counted (R415, R416, R504). A TIME frame carries the instants
that it then knows (R414, R421). -/
def departFrame (at_ : Nat) (f : SentFrame) (p : Pkg) : Pkg :=
  let te := p.sh.tether
  let s := te.session
  let payload := if f.ftype == ftTime then le 8 at_ ++ le 8 s.lastTimeGot ++ le 8 s.lastTimeGotAt else f.payload
  let ends := at_ + frameTicks payload.length
  let sent := { f with seq := s.sent, payload := payload, tag := frameTag (frameKey te f.ftype) (isFar p) s.sent f.ftype f.cls payload }
  countPort 0x12 at_ 0 (18 + payload.length) (onTether (fun t => { t with
    tx := t.tx ++ [sent]
    queue := t.queue.erase f
    lineFree := ends
    bulkUse := if f.cls == 3 then t.bulkUse.filter (fun u => at_ < u.2 + shareWindow) ++ [(at_, ends)] else t.bulkUse
    session := { t.session with sent := t.session.sent + 1, lastSentAt := at_ } }) p)

/-- The frames that the line has taken by now, of at most `fuel`. -/
def runLine : Nat → Pkg → Pkg
  | 0, p => p
  | fuel + 1, p =>
    match nextOut p.sh.tether with
    | none => p
    | some (at_, f) => if p.now < at_ then p else runLine fuel (departFrame at_ f p)

/-- The line up to now (R420): frames are sent whole, one after the other. -/
def catchLine (p : Pkg) : Pkg := runLine p.sh.tether.queue.length p

/-- A frame joins those that wait for the line, and leaves at once where nothing holds it (R420). -/
def lineFrame (f : SentFrame) (p : Pkg) : Pkg :=
  let p1 := catchLine p
  catchLine (onTether (fun te => { te with queue := te.queue ++ [f], lineFree := Nat.max te.lineFree p1.now }) p1)

/-- A frame that leaves before all that wait: nothing of this session follows it (R417, R418). -/
def lastFrame (f : SentFrame) (p : Pkg) : Pkg :=
  let p1 := catchLine p
  departFrame (Nat.max p1.sh.tether.lineFree p1.now) f p1

/-- A frame that carries no request or reply, as it waits. -/
def plainFrame (ftype : Byte) (payload : List Byte) : SentFrame := { ftype := ftype, cls := 0, seq := 0, payload := payload, tag := [] }

/-- This end sends a frame that carries no request or reply. -/
def tetherSend (ftype : Byte) (payload : List Byte) (p : Pkg) : Pkg := lineFrame (plainFrame ftype payload) p

/-- The payloads of the frames that carry `bytes` (R414): at most 128 bytes each, in whole words. -/
def framePieces : Nat → List Byte → List (List Byte)
  | 0, _ => []
  | fuel + 1, b =>
    if b.length ≤ 128 then [b ++ zeros ((4 - b.length % 4) % 4)] else b.take 128 :: framePieces fuel (b.drop 128)

/-- The frames that carry content of a class (R414): the last one completes it. -/
def contentFrames (ftype : Byte) (cls : BitVec 2) (bytes : List Byte) (whole : SentFrame → SentFrame) : List SentFrame :=
  let fs := (framePieces (bytes.length + 1) bytes).map (fun b => { plainFrame ftype b with cls := cls })
  fs.dropLast ++ (fs.getLast?.map whole).toList

/-- The REQUEST frames of a request, in the class of its content (R414). -/
def requestFrames (r : FabricReq) : List SentFrame :=
  contentFrames ftRequest r.cls (Config.requestBytes r) (fun f => { f with request := some r })

/-- This end sends a request. -/
def sendRequest (r : FabricReq) (p : Pkg) : Pkg := forAll (requestFrames r) lineFrame p

/-- This end sends a reply, in the class of the request. -/
def sendReply (cls : BitVec 2) (id : Nat) (rep : FabReply) (p : Pkg) : Pkg :=
  forAll (contentFrames ftReply cls (Config.replyBytes id rep) (fun f => { f with reply := some (id, rep) })) lineFrame p

/-- The link carries requests: up, suspect, or rejoining (R422, R425). -/
def linkOpen (te : Tether) : Bool :=
  te.state == .up || te.state == .suspect || te.state == .rejoining

/-- The session key (R415). -/
def sessionKey (pairKey nearNonce farNonce : List Byte) : List Byte :=
  hmac pairKey ([0x4C, 0x58, 0x38, 0x54] ++ nearNonce ++ farNonce)

end Sys2Proof.Machine
end

