-- ==== Sys2Proof/Machine/Deliver.lean ====
section
/-!
DEFINITION. The way of a completion to its sender (R93, R94, R97, R101, R449, R450), and the step that a meaning on the
package makes of the whole machine.
-/

namespace Sys2Proof.Machine

/-- A reply payload as a packet carries it (R97): whole words, at most 1,016 bytes. -/
def replyPayload (pl : List Byte) : List Byte := (pl ++ zeros ((4 - pl.length % 4) % 4)).take 1016

/-- A reply packet (R97, R98). -/
def replyPacket (c : Completion) (tag : BitVec 16) : List Byte :=
  let pl := replyPayload c.payload
  let body := [c.opcode, c.status] ++ le 2 tag.toNat ++ le 2 pl.length
    ++ [BitVec.ofNat 8 (c.tile % 16 + 16 * b2n c.final + 32 * b2n c.untagged), 0] ++ pl
  body ++ le 4 (crc32c body).toNat

/-- Bytes in use of the completion ring (R90). -/
def HpRings.compUsed (r : HpRings) : Nat := (r.compProd - r.compCons).toNat

/-- A packet fits the free space of the completion ring (R94). -/
def HpRings.fits (r : HpRings) (pkt : List Byte) : Bool := r.compUsed + pkt.length ≤ 65536

/-- A packet written whole into the completion ring, whose producer index then moves past it (R93). -/
def HpRings.write (pkt : List Byte) (r : HpRings) : HpRings :=
  { r with compMem := ringPut r.compMem r.compProd.toNat pkt, compProd := r.compProd + BitVec.ofNat 32 pkt.length }

/-- Held completions are posted in order while they fit (R94). -/
def HpRings.flush : List (List Byte) → HpRings → HpRings
  | [], r => { r with held := [] }
  | pkt :: rest, r => if r.fits pkt then HpRings.flush rest (r.write pkt) else { r with held := pkt :: rest }

/-- A completion packet is posted at once (R94). -/
def HpRings.posts (r : HpRings) (pkt : List Byte) : Bool := r.held.isEmpty && r.fits pkt

/-- A completion packet is posted, or held behind those that wait (R94). -/
def HpRings.post (pkt : List Byte) (r : HpRings) : HpRings :=
  if r.posts pkt then r.write pkt else { r with held := r.held ++ [pkt] }

/-- COMP_HELD (R94): at 4,096 no further command is taken; what those taken before still complete waits in its tile, behind the
4,096. -/
def HpRings.heldCount (r : HpRings) : Nat := Nat.min r.held.length 4096

/-- A reply packet ends the tag: it carries it, is final, and is not untagged (R97, R100). -/
def endsTag (tag : BitVec 16) (pkt : List Byte) : Bool :=
  (pkt.getD 6 0).getLsbD 4 && !(pkt.getD 6 0).getLsbD 5 && leAt pkt 2 2 == tag.toNat

/-- Packets have been posted: the tags that they end are outstanding no more (R104). -/
def HostPort.endTags (l : List (List Byte)) (h : HostPort) : HostPort :=
  { h with tags := h.tags.filter (fun o => !l.any (endsTag o.tag)) }

/-- A completion reaches the completion ring: a final, tagged one ends its tag when it is posted (R95, R100, R104). -/
def HostPort.complete (c : Completion) (tag : BitVec 16) (h : HostPort) : HostPort :=
  { h with rings := h.rings.post (replyPacket c tag)
           tags := if c.final && !c.untagged && h.rings.posts (replyPacket c tag) then h.tags.filter (fun o => o.tag != tag)
             else h.tags }

/-- The packets that leave the held list when its front is posted (R94). -/
def HpRings.leaving (r : HpRings) : List (List Byte) := r.held.take (r.held.length - (r.flush r.held).held.length)

/-- Held completions take the free space, and end their tags as they are posted (R94, R95, R104). -/
def HostPort.flushHeld (h : HostPort) : HostPort := ({ h with rings := h.rings.flush h.rings.held }).endTags h.rings.leaving

/-- The service port changed by `f`. -/
def onService (f : Service → Service) (p : Pkg) : Pkg := onShared (fun s => { s with service := f s.service }) p

/-- A service port packet discarded or dropped counts on the lead tile (R449, R452). -/
def countSvcDropped (p : Pkg) : Pkg :=
  onTile p.lead (fun tl => { tl with fabric := { tl.fabric with svcDropped := incSat tl.fabric.svcDropped } }) p

/-- The service port has no room for this completion: 16 untagged ones wait to be sent (R449). -/
def Service.full (s : Service) (c : Completion) : Bool := s.attached && c.untagged && 16 ≤ (s.tx.filter (·.1)).length

/-- How long `n` characters last on the service port, in whole ticks (R447, R448): 10 bits each. -/
def svcTicks (rate n : Nat) : Nat := (10 * n * secTicks + rate - 1) / rate

/-- The packets that the line has begun to send by tick `now`, of those that wait: whole, in order (R449). -/
def Service.leave (now : Nat) : List (Bool × List Byte) → Service → Service
  | [], s => { s with tx := [] }
  | x :: xs, s =>
    if s.lineFree ≤ now then
      Service.leave now xs { s with line := s.line ++ [x.2], lineFree := s.lineFree + svcTicks s.rate x.2.length }
    else { s with tx := x :: xs }

/-- The service line up to now, with the characters that it has begun to send counted (R449, R504). -/
def catchService (p : Pkg) : Pkg :=
  let s := p.sh.service
  let s1 := if p.sh.driven then Service.leave p.now s.tx s else s
  let n := (s1.line.drop s.line.length).flatten.length
  let p1 := onService (fun _ => s1) p
  if n == 0 then p1 else countPort 0x11 p.now 0 n p1

/-- A completion joins the service port's packets (R449, R450): untagged ones beyond 16 that wait are dropped, and with
no cable attached, or from commands taken before it was detached, all are discarded (R451). -/
def postService (c : Completion) (tag : BitVec 16) (p0 : Pkg) : Pkg :=
  let p := catchService p0
  let full := p.sh.service.full c
  let p1 := onService (fun s =>
    let ends := c.final && !c.untagged
    let s1 := { s with tags := if ends then s.tags.filter (fun o => o.tag != tag) else s.tags
                       orphans := if ends then s.orphans.filter (· != tag) else s.orphans }
    if !s.attached || full || (s.orphans.contains tag && !c.untagged) then s1
    else { s1 with tx := s1.tx ++ [(c.untagged, [0xA5, 0x5A] ++ replyPacket c tag)], lineFree := Nat.max s1.lineFree p.now }) p
  catchService (if full then countSvcDropped p1 else p1)

/-- A command of a machine action was refused: ACTION_REFUSED (R252, R255). -/
def noteMachine (t m : Nat) (st : Byte) (p : Pkg) : Pkg :=
  if st == stOk || st == stAccepted || st == stDelayed || st == stSuperseded then p
  else onTile t (Tile.onMachine m (fun x => { x with refused := true })) p

/-- A reply to a request that came over the tether goes back over it (R414); after a loss it is discarded (R423). A final one
ends the request. -/
def replyFar (id : Nat) (final : Bool) (rep : FabReply) (p : Pkg) : Pkg :=
  let mine (o : Outstanding) : Bool := (match o.req.purpose with | .far n _ => n == id | _ => false)
  let cls := ((p.tiles.findSome? (fun q => q.2.fabric.out.find? mine)).map (fun o => o.req.cls)).getD 1
  let p1 := if linkOpen p.sh.tether && p.sh.tether.serving.contains id then sendReply cls id rep p else p
  if final then
    onTether (fun te => { te with serving := te.serving.filter (· != id) })
      (onTiles (fun _ tl => { tl with fabric := { tl.fabric with out := tl.fabric.out.filter (fun o => !mine o) } }) p1)
  else p1

/-- A completion is the answer to an outstanding tag, or untagged: each command has one final completion (R48, R100, R104). -/
def answersTag (tags : List OutTag) (c : Completion) (tag : BitVec 16) : Bool := c.untagged || tags.any (fun o => o.tag == tag)

/-- The host port takes a completion: the tag is outstanding, and no final completion of it waits to be posted (R94, R104). -/
def HostPort.takes (h : HostPort) (c : Completion) (tag : BitVec 16) : Bool :=
  answersTag h.tags c tag && (c.untagged || !h.rings.held.any (endsTag tag))

/-- A reply to a port whose lead was lost since is discarded, and counted in the tile that produced it (R21, R48). -/
def countLate (c : Completion) (p : Pkg) : Pkg :=
  match localOf p c.tile with
  | some t => countDiscarded t p
  | none => p

/-- One completion reaches its sender; a final one frees the entry of its command (R35, R40). -/
def deliver (s : State) (c : Completion) : State :=
  let s1 : State := match c.src with
    | .host tag era =>
      if era != s.pkg.sh.hostEra then { s with pkg := countLate c s.pkg }
      else if s.hp.takes c tag then { s with hp := s.hp.complete c tag } else s
    | .service tag era =>
      if era != s.pkg.sh.serviceEra then { s with pkg := countLate c s.pkg }
      else if !answersTag s.pkg.sh.service.tags c tag then s
      else { s with pkg := postService c tag s.pkg }
    | .machine t m => { s with pkg := noteMachine t m c.status s.pkg }
    | .far id => { s with pkg := replyFar id c.final { status := c.status, payload := c.payload, tile := BitVec.ofNat 4 c.tile } s.pkg }
  if c.final && !c.untagged then { s1 with pkg := freeCommand c.src s1.pkg } else s1

/-- The completions of the step reach their senders, in order (R102). -/
def drain (s : State) : State := s.pkg.outbox.foldl deliver { s with pkg := { s.pkg with outbox := [] } }

/-- What the last step put on the tether and on the service line is gone when the next one begins, and both lines have gone on
up to now (R420, R449). -/
def clearLine (p : Pkg) : Pkg :=
  catchService (catchLine (onService (fun s => { s with line := [] }) (onTether (fun t => { t with tx := [] }) p)))

/-- The step that a meaning on the package makes of the machine. -/
def lift (f : Pkg → Pkg) (s : State) : Host.Outcome State Fault Refusal :=
  .next (drain { s with pkg := f (clearLine s.pkg) })

/-- The step of an event on tile `t`: a tile that the variant does not have stops the machine (R6). -/
def liftTile (t : TileId) (f : Nat → Pkg → Pkg) (s : State) : Host.Outcome State Fault Refusal :=
  if t.toNat < s.pkg.n then lift (f t.toNat) s else .fault (.absentTile t.toNat)

/-- The step of a meaning on the whole machine. -/
def liftAll (f : State → State) (s : State) : Host.Outcome State Fault Refusal :=
  .next (drain (f { s with pkg := clearLine s.pkg }))

end Sys2Proof.Machine
end

