-- ==== Sys2Proof/Machine/F32.lean ====
section
/-!
DEFINITION. IEEE 754 binary32 on its patterns, as the predictor computes (R10, R271): round to nearest even,
subnormals kept, no fused multiply-add; the conversions to and from Q16.16 (R202); exp correctly rounded (R271).
-/

namespace Sys2Proof.Machine

/-- A binary32 value: not a number, an infinity, or sign, significand and exponent of `m × 2^e`. -/
inductive F32 where
  | nan
  | inf (neg : Bool)
  | fin (neg : Bool) (m : Nat) (e : Int)
  deriving DecidableEq, Repr

/-- The value of a pattern. -/
def f32Of (w : Word) : F32 :=
  let ex := bits w 30 23
  let fr := bits w 22 0
  let neg := bit w 31
  if ex == 255 then (if fr == 0 then .inf neg else .nan)
  else if ex == 0 then .fin neg fr (-149)
  else .fin neg (fr + 8388608) ((ex : Int) - 150)

/-- The pattern of a NaN that an operation produces. -/
def f32Nan : Word := 0x7FC00000#32 ||| (Config.nanPayload.setWidth 32)

/-- The sign bit. -/
def f32Sign (neg : Bool) : Word := if neg then 0x80000000 else 0

/-- `m × 2^e`, and a little more when `sticky`, rounded to nearest even. A sticky `m` has at least 26 bits. -/
def f32Round (neg : Bool) (m : Nat) (e : Int) (sticky : Bool) : Word :=
  if m == 0 then f32Sign neg
  else
    let top : Int := e + (Nat.log2 m : Nat)
    let q : Int := if top - 23 < -149 then -149 else top - 23
    let sh := q - e
    let m1 : Nat :=
      if sh ≤ 0 then m * 2 ^ (-sh).toNat
      else
        let k := sh.toNat
        let hi := m / 2 ^ k
        let rem := m % 2 ^ k
        let half := 2 ^ (k - 1)
        if rem > half || (rem == half && (sticky || hi % 2 == 1)) then hi + 1 else hi
    let (m2, q2) := if m1 == 16777216 then (8388608, q + 1) else (m1, q)
    let body : Nat := if m2 < 8388608 then m2 else ((q2 + 150).toNat) * 8388608 + (m2 - 8388608)
    if body ≥ 0x7F800000 then f32Sign neg ||| 0x7F800000 else f32Sign neg ||| BitVec.ofNat 32 body

/-- A dyadic rational `i × 2^e`, rounded; an exact zero takes the sign `zneg`. -/
def f32OfInt (i e : Int) (zneg : Bool) : Word :=
  if i == 0 then f32Sign zneg else f32Round (i < 0) i.natAbs e false

/-- Sum. -/
def f32Add (a b : Word) : Word :=
  match f32Of a, f32Of b with
  | .nan, _ => f32Nan
  | _, .nan => f32Nan
  | .inf x, .inf y => if x == y then a else f32Nan
  | .inf _, _ => a
  | _, .inf _ => b
  | .fin nx mx ex, .fin ny my ey =>
    let e := if ex < ey then ex else ey
    let ix : Int := (if nx then -1 else 1) * (mx * 2 ^ (ex - e).toNat : Nat)
    let iy : Int := (if ny then -1 else 1) * (my * 2 ^ (ey - e).toNat : Nat)
    f32OfInt (ix + iy) e (nx && ny)

/-- Negation. -/
def f32Neg (a : Word) : Word := a ^^^ 0x80000000

/-- Difference. -/
def f32Sub (a b : Word) : Word := f32Add a (f32Neg b)

/-- Product. -/
def f32Mul (a b : Word) : Word :=
  match f32Of a, f32Of b with
  | .nan, _ => f32Nan
  | _, .nan => f32Nan
  | .inf x, .inf y => f32Sign (x != y) ||| 0x7F800000
  | .inf x, .fin y m _ => if m == 0 then f32Nan else f32Sign (x != y) ||| 0x7F800000
  | .fin y m _, .inf x => if m == 0 then f32Nan else f32Sign (x != y) ||| 0x7F800000
  | .fin nx mx ex, .fin ny my ey => f32Round (nx != ny) (mx * my) (ex + ey) false

/-- Quotient. -/
def f32Div (a b : Word) : Word :=
  match f32Of a, f32Of b with
  | .nan, _ => f32Nan
  | _, .nan => f32Nan
  | .inf _, .inf _ => f32Nan
  | .inf x, .fin y _ _ => f32Sign (x != y) ||| 0x7F800000
  | .fin x _ _, .inf y => f32Sign (x != y)
  | .fin nx mx ex, .fin ny my ey =>
    if my == 0 then (if mx == 0 then f32Nan else f32Sign (nx != ny) ||| 0x7F800000)
    else
      let num := mx * 2 ^ 80
      f32Round (nx != ny) (num / my) (ex - ey - 80) (num % my != 0)

/-- `a < b`; false with a NaN. -/
def f32Lt (a b : Word) : Bool :=
  match f32Of a, f32Of b with
  | .nan, _ => false
  | _, .nan => false
  | .inf x, .inf y => x && !y
  | .inf x, .fin _ _ _ => x
  | .fin _ _ _, .inf y => !y
  | .fin nx mx ex, .fin ny my ey =>
    let e := if ex < ey then ex else ey
    let ix : Int := (if nx then -1 else 1) * (mx * 2 ^ (ex - e).toNat : Nat)
    let iy : Int := (if ny then -1 else 1) * (my * 2 ^ (ey - e).toNat : Nat)
    ix < iy

/-- Not a number. -/
def f32IsNan (a : Word) : Bool := match f32Of a with | .nan => true | _ => false

/-- Finite. -/
def f32Finite (a : Word) : Bool := match f32Of a with | .fin _ _ _ => true | _ => false

/-- Zero of either sign. -/
def f32IsZero (a : Word) : Bool := match f32Of a with | .fin _ 0 _ => true | _ => false

/-- `a ≤ b`; false with a NaN. -/
def f32Le (a b : Word) : Bool := !f32IsNan a && !f32IsNan b && !f32Lt b a

/-- Finite and at least 0. -/
def f32NonNeg (a : Word) : Bool := f32Finite a && f32Le 0 a

/-- The greater and the lesser of two values, as fmaxf and fminf take them: the other one of a NaN (R275, R296). -/
def f32Max (a b : Word) : Word := if f32IsNan a || f32Lt a b then b else a
def f32Min (a b : Word) : Word := if f32IsNan a || f32Lt b a then b else a

/-- clampf of R275. -/
def f32Clamp (x lo hi : Word) : Word := if f32Lt x lo then lo else if f32Lt hi x then hi else x

/-- Binary32 to Q16.16 (R202): × 2^16, half away from zero, saturated; none for a NaN. -/
def f32ToQ (a : Word) : Option Int :=
  match f32Of a with
  | .nan => none
  | .inf neg => some (if neg then -2147483648 else 2147483647)
  | .fin neg m e =>
    let sh := e + 16
    let v : Nat :=
      if sh ≥ 0 then m * 2 ^ (if sh > 40 then 40 else sh.toNat)
      else let k := (-sh).toNat; (m + 2 ^ (k - 1)) / 2 ^ k
    some (sat32 (if neg then -(v : Int) else v))

/-- The Q16.16 reading that a comparison takes of a binary32 value; a NaN reads 0 where no rule uses it. -/
def f32ToQD (a : Word) : Int := (f32ToQ a).getD 0

/-- Q16.16, or any whole number over 2^`frac`, to the nearest binary32. -/
def f32FromInt (i : Int) (frac : Nat) : Word := f32OfInt i (-(frac : Int)) false

/-- A small whole number as binary32. -/
def f32Nat (n : Nat) : Word := f32FromInt n 0

/-- Fraction bits of the exponential. -/
abbrev expBits : Nat := 320

/-- Sum of the Taylor terms of exp at `y` (over 2^expBits), from term `k` on. -/
def expTaylor (y : Int) : Nat → Nat → Int → Int → Int
  | 0, _, _, acc => acc
  | n + 1, k, term, acc =>
    let t := Int.tdiv (term * y) ((2 : Int) ^ expBits * (k : Int))
    expTaylor y n (k + 1) t (acc + t)

/-- `n` squarings over 2^expBits. -/
def expSquare : Nat → Int → Int
  | 0, v => v
  | n + 1, v => expSquare n (v * v / (2 : Int) ^ expBits)

/-- exp_cr (R271): exp correctly rounded. Exact to more than 200 bits before the one rounding. -/
def f32Exp (a : Word) : Word :=
  match f32Of a with
  | .nan => f32Nan
  | .inf neg => if neg then 0 else 0x7F800000
  | .fin neg m e =>
    if m == 0 || (e + (Nat.log2 m : Nat)) < -40 then 0x3F800000
    else if e + (Nat.log2 m : Nat) ≥ 7 then (if neg then 0 else 0x7F800000)
    else
      let x : Int := (if neg then -1 else 1) * (m * 2 ^ (e + 310).toNat : Nat)
      let y := expTaylor x 60 1 ((2 : Int) ^ expBits) ((2 : Int) ^ expBits)
      f32Round false (expSquare 10 y).toNat (-(expBits : Int)) true

end Sys2Proof.Machine
end

