-- ==== Sys2Proof/Machine/Writes.lean ====
section
/-!
DEFINITION. The writing of points (R28 to R33): ring snooping, rate-of-rise words, TMR points, and the drive command of a
channel with what a write does to its output state (R147, R156).
-/

namespace Sys2Proof.Machine

/-- The on-change triggers snoop a write (R390). -/
def snoop (t : Nat) (k : Key) (p : Pkg) : Pkg := snoopWith f32ToQD t k p

/-- Words of a rate-of-rise monitor: a write clears its history at its next sample, and word +0 unlatches (R372). -/
def touchMonitor (k : Key) (tl : Tile) : Tile :=
  if keyClass k == 0xC && 3840 ≤ keyIdx k && keyIdx k < 4096 then
    let m := (keyIdx k - 3840) / 4
    let mo := tl.monitors.getD m Monitor.reset
    { tl with monitors := tl.monitors.set m { mo with dirty := true, unlatch := mo.unlatch || (keyIdx k - 3840) % 4 == 0 } }
  else tl

/-- A record is stored under a key of the tile, and its rings see the write. -/
def putRec (t : Nat) (k : Key) (r : Rec) (p : Pkg) : Pkg :=
  snoop t k (onTile t (fun tl => touchMonitor k { tl with points := tl.points.set k r }) p)

/-- A value and quality written now (R28). -/
def putNow (t : Nat) (k : Key) (v : Word) (q : Quality) (p : Pkg) : Pkg :=
  putRec t k { value := v, time := stamp p.now, q := q } p

/-- The points a channel's sub 4 and sub 5 show, written when they change (R140, R143). -/
def syncChan (t c : Nat) (p : Pkg) : Pkg :=
  let ch := (p.tile t).chan c
  let upd (sub v : Nat) (p : Pkg) : Pkg :=
    if ((p.tile t).points.getD (key 1 (c * 8 + sub)) {}).value == w32 v then p
    else putNow t (key 2 (c * 8 + sub)) (w32 v) .good (putNow t (key 1 (c * 8 + sub)) (w32 v) .good p)
  upd 5 ch.prot.faults.toNat (upd 4 (chanState p.now ch) p)

/-- The mode in which the drive stage of a channel works in its output state, 0 for none (R154, R160). -/
def effMode (c : Chan) : Nat :=
  match c.out with
  | .run | .hold => if driveMode c.mode then c.mode else 0
  | .safelight =>
    (match bits c.safe 7 0 with
     | 1 => 0x08 | 2 => 0x09 | 3 => 0x11 | 4 => 0x13 | 5 => 0x18 | _ => 0)
  | .off => 0

/-- The modes that VHV supplies (R133, R145). -/
def vhvMode (m : Nat) : Bool := m == 0x08 || m == 0x09 || m == 0x18

/-- The drive stage of a channel is on: it drives and no trip, isolation or low VHV holds it off. -/
def stageOn (c : Chan) : Bool :=
  effMode c != 0 && !c.prot.tripped && !c.prot.isolated && !(c.prot.vhvOff && vhvMode (effMode c))

/-- The time of drive without a turn-off starts anew as a drive stage comes on (R150). -/
def countsDrive (now : Nat) (was c : Chan) : Chan :=
  if stageOn c && !stageOn was then { c with prot := { c.prot with onAt := now } } else c

/-- A channel changed by `f`, with its sub 4 and sub 5. -/
def onChan (t c : Nat) (f : Chan → Chan) (p : Pkg) : Pkg :=
  syncChan t c (onTile t (Tile.onChan c (fun x => countsDrive p.now x (f x))) p)

/-- A fault flag of a channel is set: the transition from 0 to 1 raises event `c` (R143). -/
def setFault (t c flag : Nat) (p : Pkg) : Pkg :=
  if ((p.tile t).chan c).prot.faults.getLsbD flag then p
  else
    let p1 := onChan t c (fun ch =>
      { ch with prot := { ch.prot with faults := ch.prot.faults ||| (1#10 <<< flag), faultTime := stamp32 p.now } }) p
    raiseWith t c ((p1.tile t).chan c).prot.faults.toNat p1

/-- The drive stage starts: the blanking window opens (R147). In Safelight it is 1 ms (R160). -/
def startDrive (now : Nat) (c : Chan) : Chan :=
  let units := if c.out == .safelight then 20 else c.blanking
  { c with prot := { c.prot with blankUntil := now + units * 50 * usTicks, startAt := now, tripped := false, thermal := false } }

/-- The drive command of a channel in a unit that both of its forms are whole multiples of, and the range of a mode in it (R133): the
comparison with one eighth of the range rounds nothing. -/
def driveExact (c : Chan) : Int :=
  match c.mode with
  | 0x08 | 0x09 => if c.drive.eng then c.drive.cmd.toInt * 1000 else c.drive.cmd.toNat * 65536
  | 0x13 => if c.drive.eng then c.drive.cmd.toInt else c.drive.cmd.toNat * 100
  | _ => if c.drive.eng then c.drive.cmd.toInt else c.drive.cmd.toNat * 65536
def driveFull (m : Nat) : Int :=
  match m with
  | 0x13 => 6553600
  | _ => (driveMax m * 65536 : Nat)

/-- A write takes the drive command up by more than one eighth of the range of its mode (R147). -/
def raisesDrive (was c : Chan) : Bool := driveFull c.mode < 8 * (driveExact c - driveExact was)

/-- A channel of tile `t` may leave Safelight (R156, R157): the tile is online with its tables sealed. -/
def mayRun (p : Pkg) (t : Nat) : Bool := online p t && sealedTile p t

/-- The drive command of a channel takes a value, clamped (R133). -/
def setDrive (now : Nat) (eng : Bool) (v : Word) (q : Quality) (c : Chan) : Chan :=
  { c with drive := { c.drive with eng := eng, cmd := clampDrive c.mode eng v, time := stamp now, q := q } }

/-- The drive command is written with quality `q` (R133, R147, R156): clamped, with a start where it enters Run or rises
by more than one eighth of the range. A channel kept in Safelight takes no write (R157, R229); one in Off only keeps it.
The flag says whether the write took effect on the pad. -/
def writeDrive (t c : Nat) (eng : Bool) (v : Word) (q : Quality) (p : Pkg) : Pkg × Bool :=
  let ch := (p.tile t).chan c
  let held := (ch.out == .safelight || ch.out == .hold) && !(ch.configured && mayRun p t)
  if !driveMode ch.mode || held then (p, false)
  else if ch.out == .off then
    (snoop t (key 2 (c * 8 + 3)) (snoop t (key 1 (c * 8 + 3)) (onChan t c (setDrive p.now eng v q) p)), false)
  else
    let ch1 := { setDrive p.now eng v q ch with out := .run }
    let starts := if ch.out == .run then raisesDrive ch ch1 else driveExact ch1 != 0
    let p1 := onChan t c (fun _ => if starts && !ch.prot.tripped then startDrive p.now ch1 else ch1) p
    (snoop t (key 2 (c * 8 + 3)) (snoop t (key 1 (c * 8 + 3)) p1), true)

/-- A write discarded by an override is counted in the point's tile (R32). -/
def countOverridden (t : Nat) (p : Pkg) : Pkg :=
  onTile t (fun tl => { tl with fabric := { tl.fabric with overridden := incSat tl.fabric.overridden } }) p

/-- A write to the storage of a point, whoever makes it: a drive command, a TMR point (which stops it, R254), item 0 of a
node without MEAS (R270), or a plain record. A node not in use takes none: its items read 0, OFFLINE (R268). -/
def applyWrite (t : Nat) (k : Key) (v : Word) (q : Quality) (p : Pkg) : Pkg :=
  let i := keyIdx k
  match keyClass k with
  | 0x1 => if i % 8 == 3 then (writeDrive t (i / 8) false v q p).1 else putNow t k v q p
  | 0x2 => if i % 8 == 3 then (writeDrive t (i / 8) true v q p).1 else putNow t k v q p
  | 0x6 => putNow t k v q (onTile t (fun tl => { tl with counting := tl.counting.filter (·.1 != i) }) p)
  | 0x8 =>
    if !nodeInUse ((p.tile t).node (i / 8)) then p else
    putNow t k v q (onTile t (fun tl =>
      { tl with pred := { tl.pred with nodes := tl.pred.nodes.modify (i / 8) Node.reset (fun n => { n with hostTemp := some (tl.pred.loads, v) }) } }) p)
  | _ => putNow t k v q p

/-- A write by the owner of a point, discarded and counted while an override is in force (R32). -/
def ownerWrite (t : Nat) (k : Key) (v : Word) (q : Quality) (p : Pkg) : Pkg :=
  if overridden (p.tile t) k then countOverridden t p else applyWrite t k v q p

/-- The value of an override (R32): a drive command without a change of output state (R33), with a start where it raises a
drive in Run (R147); any other point takes it as it is. -/
def overrideWrite (t : Nat) (k : Key) (v : Word) (p : Pkg) : Pkg :=
  let c := keyIdx k / 8
  let ch := (p.tile t).chan c
  if (keyClass k == 1 || keyClass k == 2) && keyIdx k % 8 == 3 then
    let ch1 := setDrive p.now (keyClass k == 2) v .overridden ch
    let starts := ch.out == .run && !ch.prot.tripped && raisesDrive ch ch1
    snoop t (key 2 (c * 8 + 3)) (snoop t (key 1 (c * 8 + 3)) (onChan t c (fun _ => if starts then startDrive p.now ch1 else ch1) p))
  else putNow t k v .overridden p

/-- The claims of `who` are released (R31). -/
def releaseClaims (who : Claimer) (tl : Tile) : Tile := { tl with claims := tl.claims.filter (fun c => c.who != who) }

/-- Pending claims of `who` are dropped. -/
def dropPending (who : Claimer) (tl : Tile) : Tile :=
  { tl with claims := tl.claims.filter (fun c => !(c.who == who && c.pending)) }

/-- `who` claims points, reserved while the change waits (R31). -/
def addClaims (who : Claimer) (pending : Bool) (ks : List Key) (tl : Tile) : Tile :=
  { tl with claims := tl.claims ++ ks.map (fun k => { key := ownKey k, who := who, pending := pending }) }

/-- The claims of `who` become exactly `ks`, in force (R31). -/
def setClaims (who : Claimer) (ks : List Key) (tl : Tile) : Tile := addClaims who false ks (releaseClaims who tl)

/-- Why a POINT_WRITE or POINT_OVERRIDE to a point is refused by its class (R25, R226, R270): BAD_HANDLE. -/
def notWritable (p : Pkg) (t : Nat) (k : Key) : Bool :=
  let tl := p.tile t
  let i := keyIdx k
  match keyClass k with
  | 0x1 | 0x2 => !(i % 8 == 3 && driveMode (tl.chan (i / 8)).mode)
  | 0x4 =>
    let d := (tl.slot (i / 8)).desc
    !((i % 8 == 1 && dIn d 1 == mkHandle (ownNo p t) k) || (i % 8 == 2 && dIn d 2 == mkHandle (ownNo p t) k))
  | 0x6 | 0x7 | 0xC | 0xB => false
  | 0x8 => i % 8 != 0
  | _ => true

/-- The host port does not own the point (R31, R157, R270): REFUSED_STATE. -/
def notHostOwned (p : Pkg) (t : Nat) (k : Key) : Bool :=
  let tl := p.tile t
  (ownerOf tl k).isSome ||
    (keyClass k == 0x8 && (tl.node (keyIdx k / 8)).rc.extractLsb' 64 32 != noHandle) ||
    ((keyClass k == 1 || keyClass k == 2) && !sealedTile p t)

end Sys2Proof.Machine
end

