-- ==== Sys2Proof/Machine/Command.lean ====
section
/-!
DEFINITION. What every command shares: its checks at its target (R46, R48, R109 to R111, R472), its way to the other
package (R16, R36, R425), and the check of flash writes (R359).
-/

namespace Sys2Proof.Machine

/-- The package answers commands: it is out of reset and awake. -/
def awake (p : Pkg) : Bool := !p.inReset && !p.sh.dark.dark

/-- The tile that performs a command that names tile `t` of this package: either tile of the pair serves a package
command, and the lead does (R110). -/
def servingTile (p : Pkg) (op : Byte) (t : Nat) : Nat := if packageCommand op then p.lead else t

/-- The number of a request to the other package is taken, and the request leaves as a REQUEST frame (R16, R414). -/
def sendCommand (c : Ctx) (op : Byte) (pl : List Byte) (p : Pkg) : Pkg :=
  let id := p.sh.tether.nextId
  let r : FabricReq := { id := id, origin := p.lead, tile := c.tile, cls := c.cls, inc := BitVec.ofNat 8 (eiOf op pl)
                         purpose := .far id, op := .command c.cls op pl }
  sendRequest r
    (onTether (fun t => { t with nextId := id + 1
                                 transactions := t.transactions ++ [{ id := id, src := c.src, opcode := op, tile := c.tile.toNat }] }) p)

/-- A command to the other package (R412, R423, R425). -/
def farCommand (c : Ctx) (op : Byte) (pl : List Byte) (p : Pkg) : Pkg :=
  if !farPresent p c.tile.toNat then finish c op stBadParam p.lead p
  else if !linkOpen p.sh.tether then finish c op stTetherLost p.lead p
  else if p.sh.tether.state == .rejoining && !pureRead op pl then finish c op stRefusedState p.lead p
  else sendCommand c op pl p

/-- Commands that act on a tile that stops, or is out of service (R117): TILE_STATE actions 1 and 2. -/
def actsOnStopped (op : Byte) (pl : List Byte) : Bool := op == 0x02 && (leAt pl 0 1 == 1 || leAt pl 0 1 == 2)

/-- The tile of an LX8-2 that its only bridge no longer reaches (R17): it stays Offline until the next package reset. -/
def cutOff (p : Pkg) (t : Nat) : Bool := p.n == 2 && t != p.lead && !bridgeUp p 0 1

/-- The command carries another incarnation than that of the tile that performs it (R46). -/
def staleFor (p : Pkg) (op : Byte) (pl : List Byte) (t : Nat) : Bool :=
  eiOf op pl != 0 && eiOf op pl != (p.tile t).boot.incarnation.toNat

/-- What a command's target finds wrong with it before the command's own effect, as the status it then completes with:
class (R109), target (R110), standing (R48), incarnation (R46), length (R99), reserved fields (R9), policy (R472). -/
def targetError (p : Pkg) (c : Ctx) (op : Byte) (pl : List Byte) (named : Nat) : Option Byte :=
  let t := servingTile p op named
  if !classAdmitted op c.cls then some stBadParam
  else if !targetAdmitted op named then some stBadParam
  else if !online p t && (!actsOnStopped op pl || cutOff p t) then some stTileOffline
  else if staleFor p op pl t then some stStaleInc
  else if !lengthOk op pl then some stBadLength
  else if !reservedOk op pl then some stBadParam
  else if !pureRead op pl && policyMoved p t c op pl then some stPolicyChanged
  else none

/-- The tile that answers a command with a target error: for a tile out of service the one before it on the path from
the lead (R48). -/
def errorTile (p : Pkg) (t : Nat) (st : Byte) : Nat := if st = stTileOffline then answerTile p p.lead t else t

/-- A refusal by policy at the commit instant is recorded at the tile that refuses (R472). -/
def noteError (t : Nat) (st : Byte) (p : Pkg) : Pkg := if st = stPolicyChanged then refusedByPolicy t p else p

/-- A command at its target: its shared checks, then its effect `f` on the tile that performs it. -/
def command (i : Instr) (f : Nat → Pkg → Pkg) (p : Pkg) : Pkg :=
  match commandParts i with
  | none => p
  | some (c, op, pl) =>
    if !awake p then p
    else match localOf p c.tile.toNat with
      | none => farCommand c op pl p
      | some named =>
        let t := servingTile p op named
        match targetError p c op pl named with
        | some st => finish c op st (errorTile p t st) (noteError t st p)
        | none => f t p

/-- A die sensor reading lies outside the flash window of −30 °C to +105 °C (R371). -/
def outsideWindow (w : Word) : Bool := w.toInt < -1966080 || 6881280 < w.toInt

/-- A measurement of the four die sensors (R370): SYS 32 to 35 are written, and event 68 marks the first one outside
the window (R371). -/
def measureDie (t : Nat) (p : Pkg) : Pkg :=
  let die := (p.tile t).supply.die
  let p1 := (List.range 4).foldl (fun q i => putNow t (key 0 (32 + i)) (die.getD i 0) .good q) p
  let out := die.any outsideWindow
  let p2 := onTile t (fun tl => { tl with supply := { tl.supply with outside := out } }) p1
  if out && !(p.tile t).supply.outside then raise t 68 p2 else p2

/-- VIO is below the stop-bath threshold, or VHOLD is not charged (R359). -/
def supplyLow (p : Pkg) (t : Nat) : Bool := (p.tile t).supply.stopBath || !(p.tile t).supply.holdCharged

/-- A sector of the tile's flash is at its endurance limit (R101): never before its first write. -/
def flashWorn (p : Pkg) (t : Nat) : Bool :=
  let n := (p.tile t).flash.writes
  n != 0 && Config.flashWorn t n

/-- A refusal of a flash write counts in SYS 44 or SYS 45 of the tile that refuses (R359, R371). -/
def countLow (t : Nat) (p : Pkg) : Pkg := onTile t (fun tl => { tl with supply := { tl.supply with lowCount := incSat tl.supply.lowCount } }) p
def countHot (t : Nat) (p : Pkg) : Pkg := onTile t (fun tl => { tl with supply := { tl.supply with tempCount := incSat tl.supply.tempCount } }) p

/-- A flash write of a tile wears its flash. -/
def countWrite (t : Nat) (p : Pkg) : Pkg := onTile t (fun tl => { tl with flash := { tl.flash with writes := tl.flash.writes + 1 } }) p

/-- The checks before a flash write on each of these tiles (R112, R359): every tile checks for itself, and each refusal counts. The
first in order is the status: SUPPLY_LOW, TEMP_WINDOW, NV_WORN; none when every tile may write. -/
def flashCheck (tiles : List Nat) (p : Pkg) : Option Byte × Pkg :=
  let low := tiles.filter (supplyLow p)
  let rest := tiles.filter (fun t => !supplyLow p t)
  let p1 := forAll rest measureDie (forAll low countLow p)
  let hot := rest.filter (fun t => (p1.tile t).supply.outside)
  let p2 := forAll hot countHot p1
  if !low.isEmpty then (some stSupplyLow, p2)
  else if !hot.isEmpty then (some stTempWindow, p2)
  else if tiles.any (flashWorn p2) then (some stNvWorn, p2)
  else (none, forAll tiles countWrite p2)

/-- The tiles of the pair that are in service: package-wide settings and format tables are written on both (R359). -/
def onlinePair (p : Pkg) : List Nat := [0, 1].filter (online p)

/-- A command that writes flash on these tiles: its refusal, or its effect (R359). -/
def withFlash (c : Ctx) (op : Byte) (t : Nat) (tiles : List Nat) (f : Pkg → Pkg) (p : Pkg) : Pkg :=
  match flashCheck tiles p with
  | (some st, q) => finish c op st t q
  | (none, q) => f q

end Sys2Proof.Machine
end

