-- ==== Sys2Proof/Machine/Time.lean ====
section
/-!
DEFINITION. The passing of package time (R52): the real-time clock (R56), the fixed time counter (R499) and the census
counters (R502) run with it.
-/

namespace Sys2Proof.Machine

/-- The loop engine of a tile awaits a request (R503): no slot is due, but for those that wait for their remote inputs, and none is
still under way after its deadline. -/
def loopAwaits (tl : Tile) : Bool :=
  !tl.slots.any (fun q => q.2.late || (q.2.due && q.2.result.isNone && (tl.group (dGroup q.2.desc)).awaited.isEmpty))

/-- The phase of a census stage at a tick (R502, R503): the loop engine awaits a request just where `awaits` says so. -/
def stagePhase (awaits : Bool) (src t tick : Nat) : Nat :=
  let f := Config.censusPhase src t tick
  if src == 1 then (if awaits then 1 else [0, 2, 3].getD (f % 3) 0) else f % 4

/-- The ticks of `k` from tick `now` on that a census stage spends in a phase (R502). -/
def ticksInPhase (awaits : Bool) (src t sel now k : Nat) : Nat :=
  (List.range k).foldl (fun a i => a + b2n (stagePhase awaits src t (now + i) == sel)) 0

/-- `k` is added to counter `n` of a tile; past 2^48 − 1 its wrap waits for COUNTER_WRAP, with the phase that it falls in (R505,
R506). -/
def addCount (chain : Bool) (n k : Nat) (tl : Tile) : Tile :=
  if k == 0 then tl
  else
    let c := tl.ctr n
    let v := c.value.toNat + k
    let cs := tl.counters
    { tl with counters := { cs with ctrs := cs.ctrs.set n { c with value := BitVec.ofNat 48 v }
                                    carries := if v < 2 ^ 48 then cs.carries else cs.carries ++ [(n, chain)] } }

/-- Counter `n` of a tile changed by `f`. -/
def onCtr (n : Nat) (f : Ctr → Ctr) (tl : Tile) : Tile :=
  { tl with counters := { tl.counters with ctrs := tl.counters.ctrs.modify n Ctr.reset f } }

/-- What a census counter of tile `t` does over `k` ticks from tick `now` on (R502, R503): it adds the ticks in its phase, or the
tokens that leave the tile processor; for selector 4 it follows the evaluating ticks of the token under way. The loop engine's
tokens are counted where they leave. -/
def censusOver (awaits chain : Bool) (t n : Nat) (c : Ctr) (now k : Nat) (tl : Tile) : Tile :=
  if c.mode != 1 then tl
  else if c.sel.toNat < 4 then addCount chain n (ticksInPhase awaits c.src.toNat t c.sel.toNat now k) tl
  else if c.sel == 4 then onCtr n (fun x => { x with part := x.part + ticksInPhase awaits c.src.toNat t 0 now k }) tl
  else if c.src == 0 && c.sel == 5 then addCount chain n ((List.range k).foldl (fun a i => a + Config.processorTokens t (now + i)) 0) tl
  else tl

/-- Tokens of a census stage of a tile leave it: `used` of them used, `spoiled` spoiled with the evaluating ticks `ticks`, at most
those counted since tokens last left (R502). -/
def tokensLeave (chain : Bool) (src used spoiled : Nat) (ticks : Nat → Nat) (tl : Tile) : Tile :=
  tl.counters.ctrs.foldl (fun a q =>
    if q.2.mode == 1 && q.2.src.toNat == src then
      match q.2.sel with
      | 4 => addCount chain q.1 (if spoiled == 0 then 0 else ticks q.2.part) (onCtr q.1 (fun x => { x with part := 0 }) a)
      | 5 => addCount chain q.1 used a
      | 6 => addCount chain q.1 spoiled a
      | _ => a
    else a) tl

/-- The census counters of tile `t` over `k` ticks (R502). -/
def runCensus (chain : Bool) (t now k : Nat) (tl : Tile) : Tile :=
  tl.counters.ctrs.foldl (fun a q => censusOver (loopAwaits tl) chain t q.1 q.2 now k a) tl

/-- A phase of chained counting (R506): a boot, from the release or the offline mark on, a self test, or a fallback recovery. -/
def chainPhase (p : Pkg) (t : Nat) : Bool :=
  let b := (p.tile t).boot
  (b.state != .online && !b.marking && !p.inReset) || !(p.tile t).counters.tests.isEmpty || p.sh.update.recovery

/-- A loupe sample (R511) of source `src`. -/
def loupeBits (src : Nat) (spoiled chain : Bool) (addr latency time : Nat) : BitVec 112 :=
  BitVec.ofNat 112 (src + 2 * b2n spoiled + 4 * b2n chain + 65536 * (addr % 4294967296)
    + 281474976710656 * satNat 32 latency + 281474976710656 * 4294967296 * (time % 4294967296))

/-- The loupe takes a sample; the buffer holds the last 256 (R510). -/
def holdSample (b : BitVec 112) (cs : Counters) : Counters :=
  let held := cs.held ++ [{ no := cs.nextNo, bits := b }]
  { cs with nextNo := cs.nextNo + 1, taken := incSat cs.taken, held := held.drop (held.length - 256) }

/-- `m` tokens of the tile processor leave at tick `at_`: the loupe records every 2^k-th (R510, R511). -/
def processorLoupe (chain : Bool) (t at_ m : Nat) (tl : Tile) : Tile :=
  let cs := tl.counters
  let every := 2 ^ cs.loupeK.toNat
  let k := (cs.tokens + m) / every - cs.tokens / every
  let cs1 := (List.range k).foldl (fun a _ =>
    let x := Config.tokenSample t a.taken.toNat
    holdSample (loupeBits 0 false chain (bits x 31 0) (bits x 63 32) (at_ / 32)) a) cs
  { tl with counters := { cs1 with tokens := cs.tokens + m } }

/-- Tokens of the tile processor over `k` ticks from `now` on, where its loupe watches them. -/
def processorRun (chain : Bool) (t now k : Nat) (tl : Tile) : Tile :=
  if tl.counters.loupeSrc != 0 then tl
  else (List.range k).foldl (fun a i => processorLoupe chain t (now + i) (Config.processorTokens t (now + i)) a) tl

/-- The sample is of the tile processor, and its token left since tick `from_`. -/
def Sample.since (from_ now : Nat) (s : Sample) : Bool :=
  !s.bits.getLsbD 0 && ((stamp32 now) - s.bits.extractLsb' 80 32).toNat ≤ (now - from_) / usTicks

/-- The firmware of tile `t` abandons the work that it began at tick `from_` before it has any effect (R503): its tokens are spoiled,
and held loupe samples of them say so (R511). -/
def spoilWork (chain : Bool) (t from_ now : Nat) (tl : Tile) : Tile :=
  let n := tl.counters.abandons
  let hit (s : Sample) : Bool := s.since from_ now && Config.spoiledSample t n s.no.toNat
  let tl1 := tokensLeave chain 0 0 (Config.spoiledTokens t n + (tl.counters.held.filter hit).length)
    (fun part => Nat.min part (Config.spoiledTicks t n)) tl
  { tl1 with counters := { tl1.counters with
      abandons := n + 1
      held := tl1.counters.held.map (fun s => if hit s then { s with bits := s.bits ||| 2 } else s) } }

/-- The counters of a tile over `k` ticks: the fixed one always counts (R499); in darkroom the others hold (R501). -/
def runCounters (dark chain : Bool) (t now k : Nat) (tl : Tile) : Tile :=
  let tl1 := { tl with counters := { tl.counters with fixed := tl.counters.fixed + BitVec.ofNat 64 k } }
  if dark then tl1 else processorRun chain t now k (runCensus chain t now k tl1)

/-- The real-time clock over `k` ticks (R56). -/
def runRtc (k : Nat) (r : Rtc) : Rtc :=
  let n := r.sub + k
  { r with secs := r.secs + BitVec.ofNat 32 (n / secTicks), sub := n % secTicks }

/-- Package time passes by `k` ticks. -/
def advance (k : Nat) (p : Pkg) : Pkg :=
  if k == 0 then p
  else
    let p1 := { p with now := (p.now + k) % 2 ^ 64 }
    let p2 := onShared (fun s => { s with rtc := runRtc k s.rtc }) p1
    onTiles (fun t => runCounters p.sh.dark.dark (chainPhase p t) t p.now k) p2

/-- Package time passes up to tick `at_`, for an event that falls at that instant; it never steps back (R52). -/
def advanceTo (at_ : Nat) (p : Pkg) : Pkg := advance (at_ - p.now) p

/-- The first tick at or after `now` that is a whole multiple of `period`. -/
def nextMultiple (period now : Nat) : Nat := (now + period - 1) / period * period

/-- The next whole multiple of `period` at or after the present instant is reached. -/
def advanceToMultiple (period : Nat) (p : Pkg) : Pkg := advanceTo (nextMultiple period p.now) p

end Sys2Proof.Machine
end

