-- ==== Sys2Proof/Machine/BulkOps.lean ====
section
/-!
DEFINITION. Bulk buffers (R96, R114) and the counters and loupe of a tile (R499 to R511).
-/

namespace Sys2Proof.Machine

/-- The lowest bulk buffer that holds nothing (R96). -/
def freeBulk (p : Pkg) : Option Nat := (List.range 16).find? (fun b => (p.sh.bulk.find? b).isNone)

/-- The bulk reply record (R114). -/
def bulkRecord (buffer bytes entries next : Nat) : List Byte := le 1 buffer ++ zeros 3 ++ le 4 bytes ++ le 4 entries ++ le 4 next

/-- A bulk buffer is filled; it stays valid for 10 s (R96). -/
def fillBulk (b : Nat) (data : List Byte) (p : Pkg) : Pkg :=
  onShared (fun s => { s with bulk := s.bulk.set b { data := data, until_ := p.now + 10 * secTicks } }) p

/-- The bulk buffer that a reply packet delivers (R96, R97, R114): that of a bulk command with data. -/
def bulkNamed (pkt : List Byte) : Option Nat :=
  if (leAt pkt 0 1 == 0x71 || leAt pkt 0 1 == 0xA3) && leAt pkt 1 1 == 0 && 16 ≤ leAt pkt 4 2 && leAt pkt 12 4 != 0 then some (leAt pkt 8 1)
  else none

/-- The 10 s of a bulk buffer begin now: its reply has been posted (R96). -/
def restartBulk (b : Nat) (p : Pkg) : Pkg :=
  match p.sh.bulk.find? b with
  | some x => fillBulk b x.data p
  | none => p

/-- Work that finds no free buffer joins those that wait on tile `t`, up to 1,000 ms, and posts DELAYED to its sender (R37, R96). -/
def joinBulk (t : Nat) (src : Source) (op : Byte) (w : BulkWork) (p : Pkg) : Pkg :=
  let order := (p.tile t).fabric.nextOrder
  let p1 := onTile t (fun tl => { tl with fabric := { tl.fabric with nextOrder := order + 1 } }) p
  emit { src := src, opcode := op, status := stDelayed, tile := ownNo p t, final := false }
    (onShared (fun s => { s with bulkWaits := s.bulkWaits ++ [{ tile := t, order := order, work := w
                                                                limit := p.now + admissionTicks 3 }] }) p1)

/-- A command finds no free buffer (R37, R96): it waits, or is refused when 64 wait. -/
def waitBulk (c : Ctx) (op : Byte) (t : Nat) (i : Instr) (p : Pkg) : Pkg :=
  if 64 ≤ waitingAt p t 3 then finish c op stCapacity t p else joinBulk t c.src op (.command i) p

/-- A delivery that found no buffer in its time, or no room to wait, is refused at the lead (R37, R96). -/
def refuseDelivery (st : Byte) (t : Nat) (c : Completion) (p : Pkg) : Pkg :=
  emit { c with status := st, tile := ownNo p t, payload := [] } (if st == stCapacity then countRefused 3 p else p)

/-- What the other package has delivered for a command fills a bulk buffer of this one, or waits for one (R37, R96, R114). -/
def deliverBulk (c : Completion) (data : List Byte) (p : Pkg) : Pkg :=
  match freeBulk p with
  | some b => emit { c with payload := le 1 b ++ c.payload.drop 1 } (fillBulk b data p)
  | none =>
    if 64 ≤ waitingAt p p.lead 3 then refuseDelivery stCapacity p.lead c p
    else joinBulk p.lead c.src c.opcode (.delivery c data) p

/-- A command delivers data through the bulk window (R96, R114): with no data no buffer is taken. For the near package the
data goes with the record, and the near package fills a buffer of its own. -/
def bulkReply (c : Ctx) (op : Byte) (t : Nat) (i : Instr) (data : List Byte) (entries next : Nat) (p : Pkg) : Pkg :=
  if data.isEmpty then reply c op t (bulkRecord 0 0 0 next) p
  else match c.src with
    | .far _ => reply c op t (bulkRecord 0 data.length entries next ++ data) p
    | _ =>
      match freeBulk p with
      | none => waitBulk c op t i p
      | some b => reply c op t (bulkRecord b data.length entries next) (fillBulk b data p)

/-- Bulk buffers are released (R96). -/
def releaseBulk (l : List Nat) (p : Pkg) : Pkg := onShared (fun s => { s with bulk := s.bulk.filter (fun q => !l.contains q.1) }) p

/-- The work that has waited longest, when a bulk buffer is free (R40, R96). -/
def nextBulk (s : State) : Option (BulkWork × State) :=
  match freeBulk s.pkg, s.pkg.sh.bulkWaits with
  | some _, w :: rest => some (w.work, { s with pkg := onShared (fun x => { x with bulkWaits := rest }) s.pkg })
  | _, _ => none

/-- The loupe of a tile sees a loop engine token (R510, R511). -/
def loopLoupe (chain spoiled : Bool) (addr latency now : Nat) (tl : Tile) : Tile :=
  let cs := tl.counters
  if cs.loupeSrc != 1 then tl
  else
    let n := cs.tokens + 1
    let cs1 := { cs with tokens := n }
    { tl with counters := if n % 2 ^ cs.loupeK.toNat == 0 then
        holdSample (loupeBits 1 spoiled chain addr latency (now / 32)) cs1 else cs1 }

/-- A token of the loop engine leaves its stage, used or spoiled (R502, R503): one slot evaluation. -/
def loopToken (t slot : Nat) (spoiled : Bool) (p : Pkg) : Pkg :=
  let d := ((p.tile t).slot slot).desc
  onTile t (fun tl => loopLoupe (chainPhase p t) spoiled (slot + 65536 * dGroup d + 16777216 * dLaw d) (Config.tokenLatency t p.now) p.now
    (tokensLeave (chainPhase p t) 1 (b2n (!spoiled)) (b2n spoiled) id tl)) p

/-- A port that mode 2 may watch on tile `t` (R504). -/
def portSource (n t src : Nat) : Bool :=
  match src with
  | 0x00 | 0x08 => true
  | 0x01 => 4 ≤ n
  | 0x02 => n == 8
  | 0x10 | 0x11 | 0x12 | 0x13 | 0x14 | 0x15 => t ≤ 1
  | _ => false

/-- A combination that COUNTER_CONFIG takes (R500). -/
def ctrCfgOk (n t mode src sel window : Nat) : Bool :=
  match mode with
  | 0 => src == 0 && sel == 0 && window == 0
  | 1 => src ≤ 1 && sel ≤ 6 && window == 0
  | 2 => portSource n t src && sel ≤ 2 && 1 ≤ window && window ≤ 1000000
  | _ => false

/-- The tick at which a window of a bandwidth counter ends (R504): the first whole one after its configuration. -/
def windowEnd (now : Nat) (c : Ctr) : Nat :=
  let w := c.window.toNat * usTicks
  if c.valid then nextMultiple w (Nat.max now (c.windowAt + 1))
  else Nat.max (nextMultiple w c.setAt + w) (nextMultiple w now)

/-- A window ends at tick `at_`: its bytes are the value (R504). Those that cross a port in a command or an event have been counted
as they crossed, while the tile was the lead; `received` and `sent` are those that cross in none: of a bridge, the memory port, a read
of the host outside the contact sheet, characters of a broken frame. -/
def latchWindow (away : Bool) (at_ received sent : Nat) (c : Ctr) : Ctr :=
  let mine (b r : Nat) : Nat := (if c.winNo + 1 == c.windowNo at_ then b else 0) + (if away then 0 else r)
  let v := match c.sel with
    | 0 => mine c.bytesIn received
    | 1 => mine c.bytesOut sent
    | _ => mine c.bytesIn received + mine c.bytesOut sent
  { c with value := BitVec.ofNat 48 v, valid := true, windowAt := at_ }

/-- A pass of 2^48 − 1 takes effect (R505, R506), by the phase in which it fell. -/
def takeWrap (t n : Nat) (p : Pkg) : Pkg :=
  let tl := p.tile t
  match tl.counters.carries.find? (fun q => q.1 == n) with
  | none => p
  | some (_, chain) =>
    let p1 := onTile t (fun x => { x with counters := { x.counters with carries := x.counters.carries.erase (n, chain) } }) p
    if chain && n < 7 then onTile t (fun x => onCtr (n + 1) (fun c => { c with chained := true }) (addCount true (n + 1) 1 x)) p1
    else
      let p2 := onTile t (onCtr n (fun c => { c with wrap := true })) p1
      if (tl.ctr n).wrap then p2 else raise t 92 p2

/-- The samples that a LOUPE_READ delivers (R511). -/
def loupeSpan (cs : Counters) (first count : Nat) : List Sample :=
  let back := (cs.nextNo.toNat + 65536 - first) % 65536
  if back == 0 || back > 32768 then []
  else
    let l := cs.held.drop (cs.held.length - Nat.min back cs.held.length)
    l.take count

/-- The bytes of a sample (R511). -/
def sampleBytes (s : Sample) : List Byte := le 2 s.no.toNat ++ le 14 s.bits.toNat

end Sys2Proof.Machine
end

