-- ==== Sys2Proof/Machine/RingOps.lean ====
section
/-!
DEFINITION. Configuring and reading rings (R381 to R402).
-/

namespace Sys2Proof.Machine

/-- The index in a ring ID, or what is wrong with it on tile `t` (R9, R110, R115, R381). -/
def ringIdError (p : Pkg) (t : Nat) (id : Word) : Option Byte :=
  let i := bits id 14 0
  if bits id 31 19 != 0 || bits id 18 15 != ownNo p t then some stBadParam
  else if i < 16 && (systemSize t i).isNone then some stBadHandle
  else none

/-- Every field of a ring descriptor is in its range (R382, R384, R385). A descriptor that deconfigures a ring is only asked
for zero reserved bits, those of its source handle among them (R9, R24). -/
def ringDescOk (p : Pkg) (t i : Nat) (d : BitVec 128) : Bool :=
  let trig := bits d 7 0
  let size := bits d 23 16
  let src : Handle := d.extractLsb' 32 32
  let param := bits d 95 64
  bits d 15 9 == 0 && bits d 31 24 == 0 && bits d 127 96 == 0 &&
    (if i < 16 then trig == 0x80 && src == noHandle && param == 0 && 4 ≤ size && size ≤ 16
     else match trig with
      | 0 => bits src 31 24 == 0
      | 1 => 4 ≤ size && size ≤ 16 && handleError p src == none && handleTile src == ownNo p t && param < 2 ^ 31
      | 2 => 4 ≤ size && size ≤ 16 && handleError p src == none && 1 ≤ param && param ≤ 86400000
      | 3 => 4 ≤ size && size ≤ 16 && handleError p src == none && param ≤ 127
      | _ => false)

/-- Every entry of a ring is discarded (R386); the sequence goes on (R395). -/
def Ring.discard (r : Ring) : Ring :=
  { r with entries := [], overflows := 0, lost := 0, resetSeq := r.nextSeq, anchor := true, lastRec := none }

/-- The reads of a ring's remote source that have not returned are forgotten. -/
def dropWaits (i : Nat) (tl : Tile) : Tile :=
  { tl with rings := { tl.rings with waits := tl.rings.waits.filter (fun w => w.ring != i) } }

/-- Ring `i` of tile `t` becomes `r`. -/
def setRing (t i : Nat) (r : Ring) (p : Pkg) : Pkg :=
  onTile t (fun tl => { tl with rings := { tl.rings with rings := tl.rings.rings.set i r } }) p

/-- RING_CONFIG (R385). -/
def ringConfig (c : Ctx) (t i : Nat) (d : BitVec 128) (p : Pkg) : Pkg :=
  let tl := p.tile t
  let ok (q : Pkg) : Pkg := finish c 0x70 stOk t q
  if !ringDescOk p t i d then finish c 0x70 stBadParam t p
  else if bits d 7 0 == 0 then
    match tl.ring? i with
    | none => ok p
    | some r => ok (onTile t (fun x => dropWaits i { x with rings := { x.rings with
        rings := x.rings.rings.erase i, seqs := x.rings.seqs.set i r.nextSeq } }) p)
  else
    let size := bits d 23 16
    match tl.ring? i with
    | some r =>
      let p0 := onTile t (dropWaits i) p
      if bits r.desc 23 16 == size && bit r.desc 8 == bit d 8 then
        ok (setRing t i { r with desc := d, anchor := true, lastRec := none, trigAt := none } p0)
      else if bits r.desc 23 16 == size then ok (setRing t i { r.discard with desc := d, trigAt := none } p0)
      else match allocBlock t tl i size with
        | none => finish c 0x70 stCapacity t p
        | some b => ok (setRing t i { r.discard with desc := d, block := b, trigAt := none } p0)
    | none =>
      match allocBlock t tl i size with
      | none => finish c 0x70 stCapacity t p
      | some b =>
        let s := tl.rings.seqs.getD i 1
        ok (setRing t i { desc := d, block := b, nextSeq := s, resetSeq := if s == 1 then 0 else s } p)

/-- A cursor names an entry already written, not one to come. -/
def cursorPast (r : Ring) (cursor : Nat) : Bool :=
  let d := seqDist cursor r.nextSeq
  d != 0 && d ≤ 0x7FFFFFFF

/-- The entries from a cursor on (R395, R396). -/
def entriesFrom (r : Ring) (cursor : Nat) : List RingEntry :=
  if cursor == 0 then r.entries
  else if !cursorPast r cursor then []
  else r.entries.filter (fun e => seqDist e.seq r.nextSeq ≤ seqDist cursor r.nextSeq)

/-- A read of a stop-mode ring frees the entries older than its cursor (R398). -/
def freeOlder (r : Ring) (cursor : Nat) : Ring :=
  if r.stop && cursor != 0 then { r with entries := entriesFrom r cursor } else r

/-- The ring state record (R399). -/
def ringState (r : Ring) : List Byte :=
  le 16 r.desc.toNat ++ le 4 r.nextSeq ++ le 4 ((r.entries.head?.map (·.seq)).getD 0) ++ le 4 r.overflows.toNat ++ le 4 r.lost.toNat

/-- Flags of a synthesised anchor (R397). -/
def anchorFlags (r : Ring) (cursor first : Nat) : Nat :=
  if cursor == 0 then 0
  else b2n (first != cursor)
    + 2 * b2n (r.resetSeq != 0 && seqDist cursor r.nextSeq > seqDist r.resetSeq r.nextSeq)

/-- What a RING_READ delivers: data, ENTRIES and NEXT (R396, R397, R399). `upTo` is the next sequence number as the read latched it. -/
def ringDelivery (r : Ring) (upTo cursor limit : Nat) : List Byte × Nat × Nat :=
  if cursor == 0xFFFFFFFF then (ringState r, 0, r.nextSeq)
  else
    match (entriesFrom r cursor).filter (fun e => seqDist upTo r.nextSeq < seqDist e.seq r.nextSeq) with
    | [] => ([], 0, if cursor == 0 then upTo else cursor)
    | e :: rest =>
      let sent := (e :: rest).take (limit - 1)
      let next := match ((e :: rest).drop (limit - 1)).head? with
        | some x => x.seq
        | none => upTo
      (le 8 (anchorBits e.time (anchorFlags r cursor e.seq)).toNat ++ sent.flatMap (fun x => le 8 x.bits.toNat), sent.length + 1, next)

/-- Records that have come back are written while no earlier trigger of the ring waits (R391). -/
def flushWaits (t i : Nat) : Nat → Pkg → Pkg
  | 0, p => p
  | fuel + 1, p =>
    match (p.tile t).rings.waits.find? (fun w => w.ring == i) with
    | some w =>
      match w.got with
      | some r =>
        let p1 := onTile t (fun tl => { tl with rings := { tl.rings with waits := tl.rings.waits.erase w } }) p
        let (p2, o) := recordPoint t i r w.at_ p1
        flushWaits t i fuel (overflowed t o p2)
      | none => p
    | none => p

/-- The read of a remote source triggered at `at_` has given `r` (R390); nothing is written while the tile is not online (R410). -/
def sourceArrived (t i at_ : Nat) (r : Rec) (p : Pkg) : Pkg :=
  let ws := (p.tile t).rings.waits
  if !online p t then p else
  flushWaits t i (ws.length + 1) (onTile t (fun tl => { tl with rings := { tl.rings with
    waits := tl.rings.waits.map (fun w => if w.ring == i && w.at_ == at_ && w.got.isNone then { w with got := some r } else w) } }) p)

/-- Ticks of an on-period ring (R390). -/
def Ring.periodTicks (r : Ring) : Nat := r.param.toNat * msTicks

/-- An on-period ring fires (R390). -/
def firePeriod (t i : Nat) (r : Ring) (p : Pkg) : Pkg :=
  let p1 := setRing t i { r with trigAt := some p.now } p
  if handleTile r.source == ownNo p t then
    let (q, o) := recordPoint t i (readPoint p1 t (handleKey r.source)) p1.now p1
    overflowed t o q
  else
    let limit := p.now + Nat.min (r.periodTicks / 2) secTicks
    issue t (handleTile r.source) 3 (.ringSource t i) (.read r.source) (p.now + admissionTicks 3)
      (onTile t (fun tl => { tl with rings := { tl.rings with waits := tl.rings.waits ++ [{ ring := i, at_ := p.now, limit := limit }] } }) p1)

/-- A tile comes online again: a restart marker is written to every ring, in index order, at the pace of the write queue (R393,
R410). No trigger of a ring is taken before its marker. -/
def restartMarkers (t : Nat) (p : Pkg) : Pkg :=
  let (p1, l) := ((p.tile t).rings.rings.map (·.1)).foldl (fun (a : Pkg × List Nat) i =>
    let ((q, _), o) := putEntry t i (p.now / 32) (w32 (p.tile t).boot.incarnation.toNat) 0xFD
      (onTile t (fun tl => { tl with rings := { tl.rings with queued := 0 } }) a.1)
    (q, a.2 ++ o)) (p, [])
  overflowed t l p1

/-- A received bus frame is written to a receive ring of the lead tile (R383, R387). -/
def putFrame (ring : Nat) (status : Nat) (frame : List Byte) (p : Pkg) : Pkg :=
  let n := (frame.length + 6) / 7
  let parts := groups 7 (frame ++ zeros (7 * n - frame.length))
  let us := p.now / 32
  let ((p1, _), o1) := putEntry p.lead ring us (w32 (frame.length + 65536 * status)) 0x90 p
  let (q, o) := parts.foldl (fun (a : Pkg × List Nat) g =>
    let ((q, _), o) := writeEntry p.lead ring (dataBits g) us a.1
    (q, a.2 ++ o)) (p1, o1)
  overflowed p.lead o q

end Sys2Proof.Machine
end

