-- ==== Sys2Proof/Machine/Curves.lean ====
section
/-!
DEFINITION. The 48-bit arithmetic of the loop and table engines (R209), and curves and grids (R240 to R244).
-/

namespace Sys2Proof.Machine

/-- Saturation to 48 bits, without a flag (R209, R242). -/
def sat48 (x : Int) : Int :=
  if x > 140737488355327 then 140737488355327 else if x < -140737488355328 then -140737488355328 else x

/-- round_q16 of R209: 16 of 32 fraction bits, half away from zero. -/
def roundQ16 (x : Int) : Int := if x ≥ 0 then (x + 0x8000) / 65536 else -((-x + 0x8000) / 65536)

/-- A signed 32-bit value at byte `off`. -/
def sAt (bs : List Byte) (off : Nat) : Int := sgn 32 (leAt bs off 4)

/-- lerp of R242. -/
def lerp (x x0 x1 y0 y1 : Int) : Int := sat48 (y0 + divRound ((x - x0) * (y1 - y0)) (x1 - x0).toNat)

/-- Index of the segment of `x` in the axis read by `ax` (R242), searched from `i`. -/
def segFrom (ax : Nat → Int) (n : Nat) (x : Int) : Nat → Nat → Nat
  | 0, i => i
  | fuel + 1, i => if i + 2 < n && x ≥ ax (i + 1) then segFrom ax n x fuel (i + 1) else i

/-- seg of R242. -/
def seg (ax : Nat → Int) (n : Nat) (x : Int) : Nat := segFrom ax n x n 0

/-- curve_eval of R242: the output, and whether the range rule applies. -/
def curveEval (c : List Byte) (x0 : Int) : Int × Bool :=
  let n := leAt c 1 1
  let extrap := leAt c 2 1 % 2 == 1
  let ax (i : Nat) : Int := sAt c (16 + 8 * i)
  let ay (i : Nat) : Int := sAt c (20 + 8 * i)
  let i := seg ax n x0
  let out : Bool := x0 < ax 0 || x0 > ax (n - 1)
  let x := if out && !extrap then (if x0 < ax 0 then ax 0 else ax (n - 1)) else x0
  let y := lerp x (ax i) (ax (i + 1)) (ay i) (ay (i + 1))
  let range := out && !extrap
  let (y, range) := if y > sAt c 8 then (sAt c 8, true) else (y, range)
  if y < sAt c 4 then (sAt c 4, true) else (y, range)

/-- grid_eval of R242. -/
def gridEval (g : List Byte) (x0 y0 : Int) : Int × Bool :=
  let nx := leAt g 1 1
  let ny := leAt g 2 1
  let ax (i : Nat) : Int := sAt g (16 + 4 * i)
  let ay (j : Nat) : Int := sAt g (16 + 4 * nx + 4 * j)
  let az (i j : Nat) : Int := sAt g (16 + 4 * nx + 4 * ny + 4 * (j * nx + i))
  let i := seg ax nx x0
  let j := seg ay ny y0
  let ox : Bool := x0 < ax 0 || x0 > ax (nx - 1)
  let oy : Bool := y0 < ay 0 || y0 > ay (ny - 1)
  let x := if ox then (if x0 < ax 0 then ax 0 else ax (nx - 1)) else x0
  let y := if oy then (if y0 < ay 0 then ay 0 else ay (ny - 1)) else y0
  let r0 := lerp x (ax i) (ax (i + 1)) (az i j) (az (i + 1) j)
  let r1 := lerp x (ax i) (ax (i + 1)) (az i (j + 1)) (az (i + 1) (j + 1))
  let v := lerp y (ay j) (ay (j + 1)) r0 r1
  let range := ox || oy
  let (v, range) := if v > sAt g 8 then (sAt g 8, true) else (v, range)
  if v < sAt g 4 then (sAt g 4, true) else (v, range)

/-- Every step of a list rises strictly. -/
def rising : List Int → Bool
  | a :: b :: r => a < b && rising (b :: r)
  | _ => true

/-- A valid curve (R240). -/
def curveValid (c : List Byte) : Bool :=
  let n := leAt c 1 1
  leAt c 0 1 == 2 && 2 ≤ n && n ≤ 64 && c.length == 16 + 8 * n && leAt c 2 2 ≤ 1 && leAt c 12 4 == 0
    && sAt c 4 ≤ sAt c 8 && rising ((List.range n).map (fun i => sAt c (16 + 8 * i)))

/-- A valid grid (R241). -/
def gridValid (g : List Byte) : Bool :=
  let nx := leAt g 1 1
  let ny := leAt g 2 1
  leAt g 0 1 == 3 && 2 ≤ nx && nx ≤ 32 && 2 ≤ ny && ny ≤ 32 && leAt g 3 1 == 0 && leAt g 12 4 == 0
    && g.length == 16 + 4 * (nx + ny + nx * ny) && sAt g 4 ≤ sAt g 8
    && rising ((List.range nx).map (fun i => sAt g (16 + 4 * i)))
    && rising ((List.range ny).map (fun j => sAt g (16 + 4 * nx + 4 * j)))

/-- The rank of a quality from best to worst (R243). -/
def qRank : Quality → Nat
  | .good => 0 | .overridden => 1 | .held => 2 | .latent => 3 | .stale => 4
  | .badRange => 5 | .badShort => 6 | .badOpen => 7 | .offline => 8

/-- The worse of two qualities (R243). -/
def worse (a b : Quality) : Quality := if qRank a ≥ qRank b then a else b

/-- The quality of a curve or grid result (R243). -/
def rangeQ (q : Quality) (range : Bool) : Quality :=
  if range then (match q with | .good | .overridden | .held => .badRange | x => x) else q

end Sys2Proof.Machine
end

