-- ==== Sys2Proof/Machine/ChannelOps.lean ====
section
/-!
DEFINITION. Channels: the configuration record, output states, and turn-offs (R133, R140 to R162).
-/

namespace Sys2Proof.Machine

/-- The mode codes (R133). -/
def modeListed (m : Nat) : Bool :=
  [0x00, 0x01, 0x02, 0x03, 0x04, 0x05, 0x08, 0x09, 0x10, 0x11, 0x12, 0x13, 0x18].contains m

/-- Largest OPTION of a mode: its defined bits (R162). -/
def optionMax (m : Nat) : Nat :=
  match m with
  | 0x05 => 7
  | 0x12 => 3
  | 0x10 | 0x11 | 0x13 | 0x18 => 1
  | _ => 0

/-- Largest current limit of a mode in µA, 0 for modes that do not drive (R146). -/
def limitMax (m : Nat) : Nat :=
  match m with
  | 0x08 => 12000
  | 0x09 => 26000
  | 0x11 | 0x13 | 0x18 => 20000
  | _ => 0

/-- The modes whose CHE sub 0 has a curve (R162). -/
def curveMode (m : Nat) : Bool := senseMode m || m == 0x08 || m == 0x09 || m == 0x12

/-- Every field of a channel configuration record is in its range, and the fields its mode does not use are zero
(R162). The curve field of a mode without a curve is none or zero. -/
def chanCfgOk (r : BitVec 256) : Bool :=
  let m := bits r 7 0
  let used (b : Bool) (v hi : Nat) : Bool := if b then v ≤ hi else v == 0
  let curve := bits r 143 128
  modeListed m && bits r 15 8 ≤ optionMax m
    && (senseMode m || !bit r 16) && bits r 23 17 == 0 && bits r 31 27 == 0 && bits r 47 42 == 0
    && bits r 55 48 ≤ 63
    && used (driveMode m) (bits r 63 56) 200
    && bits r 79 64 ≤ limitMax m
    && used (driveMode m) (bits r 87 80) 255
    && used (driveMode m) (bits r 95 88) 7
    && used (senseMode m) (bits r 111 96) 0xFFFF
    && used (senseMode m && m != 0x05) (bits r 127 112) 0xFFFF
    && (if curveMode m then curve == 0xFFFF || curve ≤ 511 else curve == 0xFFFF || curve == 0)
    && used (m == 0x10) (bits r 159 144) 10000
    && (if m == 0x13 then 100 ≤ bits r 191 160 && bits r 191 160 ≤ 100000 else bits r 191 160 == 0)
    && bits r 255 192 == 0

/-- The safelight entry of a channel in flash; the shipped one is mode 0 with a hold limit of 5 s (R160). -/
def safeEntry (tl : Tile) (c : Nat) : BitVec 128 := tl.flash.safelight.getD c (5#128 <<< 16)

/-- The CRC-32C of a safelight table over its 512 bytes (R160). For the shipped table it is the number given here. -/
def safeCrcOf (tl : Tile) : BitVec 32 :=
  if tl.flash.safelight.isEmpty then 0x03273801
  else crc32c ((List.range 32).flatMap (fun c => le 16 (safeEntry tl c).toNat))

/-- The hold limit of a safelight entry in ticks (R160). -/
def holdTicks (e : BitVec 128) : Nat := bits e 23 16 * secTicks

/-- Every field of a safelight entry is in its range (R160). -/
def safeEntryOk (e : BitVec 128) : Bool :=
  let m := bits e 7 0
  let v := bits e 63 32
  let f := bits e 95 64
  m ≤ 5 && bits e 15 8 == 0 && 1 ≤ bits e 23 16 && bits e 23 16 ≤ 60 && bits e 31 24 == 0 && bits e 127 96 == 0
    && (match m with
        | 1 => v ≤ 10500
        | 2 => v ≤ 24000
        | 3 => v ≤ 1
        | 4 => v ≤ 65536
        | _ => v == 0)
    && (if m == 4 then 100 ≤ f && f ≤ 100000 else f == 0)

/-- Channel enters Safelight with its entry (R156, R160). -/
def enterSafelight (e : BitVec 128) (c : Chan) : Chan := { c with out := .safelight, safe := e }

/-- Channel enters Hold: the latch keeps its drive command, and a gate goes to 0 V (R154). -/
def enterHold (now : Nat) (e : BitVec 128) (c : Chan) : Chan :=
  if c.out == .run then
    { c with out := .hold, holdUntil := now + holdTicks e
             drive := { c.drive with
               held := if c.mode == 0x18 then 0 else c.drive.cmd
               heldEng := c.drive.eng
               heldHz := c.pwmFreq } }
  else c

/-- Every channel of tile `t` changed by `f`, with its sub 4 and sub 5. -/
def onAllChans (t : Nat) (f : Nat → Chan → Chan) (p : Pkg) : Pkg :=
  forAll (List.range 32) (fun c => onChan t c (f c)) p

/-- A channel without a drive command that may run does so (R156): configured, not Disabled, on an online tile whose
seal has switched, from Safelight; or from Hold once the tile is online again. -/
def settleChan (online sealed_ : Bool) (c : Chan) : Chan :=
  if driveMode c.mode || c.mode == 0 || !online then c
  else if c.out == .hold then { c with out := .run }
  else if c.out == .safelight && c.configured && sealed_ then { c with out := .run }
  else c

/-- The channels of a tile take the moves to Run that wait for no write (R156). -/
def settleChans (t : Nat) (p : Pkg) : Pkg := onAllChans t (fun _ => settleChan (online p t) (sealedTile p t)) p

/-- The safelight table of the tile has been read and is valid: every channel that is Off moves to Safelight (R156, R161). -/
def chansToSafelight (t : Nat) (p : Pkg) : Pkg :=
  onAllChans t (fun c ch =>
    if ch.out != .off then ch
    else
      let x := enterSafelight (safeEntry (p.tile t) c) ch
      { x with prot := { x.prot with vhvOff := (p.tile t).supply.vhvLow } }) p

/-- What IDCODE shifts out of every TAP of a package (R528). -/
def tapIdcode : Variant → Word
  | .lx82 => 0x2A08254B
  | .lx84 => 0x2A08454B
  | .lx88 => 0x2A08854B

/-- The data register that the TAP of a tile has between its ends (R528): IDCODE, the bypass bit, or the boundary cells. -/
def tapData (p : Pkg) (t : Nat) : List Bool :=
  match (p.tile t).boot.tap with
  | .idcode => (List.range 32).map (tapIdcode p.ident.variant).getLsbD
  | .bypass | .clamp | .highz => [false]
  | .samplePreload | .extest => Config.boundaryCells t p.now

/-- The chain from TDO back to TDI (R528): TDO leaves the highest tile, and TDI enters tile 0. -/
def tapChainOf (p : Pkg) : List Bool := (List.range p.n).reverse.flatMap (tapData p)

/-- An instruction comes into the instruction register of a tile's TAP, and the chain takes its data registers (R528). -/
def loadTap (t : Nat) (i : TapInstr) (p : Pkg) : Pkg :=
  let p1 := onTile t (fun tl => { tl with boot := { tl.boot with tap := i, tapIr := Config.tapCode i } }) p
  onShared (fun s => { s with tapChain := tapChainOf p1 }) p1

/-- The outputs of a TAP instruction that takes the pads from the channels (R529). -/
def tapForces (i : TapInstr) : Bool := i == .extest || i == .clamp || i == .highz

/-- The first step of a boot from reset (R156, R161, R365): the safelight table is read, and channels that are Off take it.
One that fails its CRC keeps them in Off, with event 127. -/
def readSafelight (t : Nat) (p : Pkg) : Pkg :=
  let b := (p.tile t).boot
  if !b.fromReset || b.safeBad || tapForces b.tap then p
  else if safeCrcOf (p.tile t) == (p.tile t).flash.safeCrc then chansToSafelight t p
  else raise t 127 (onTile t (fun tl => { tl with boot := { tl.boot with safeBad := true, safeSeen := 0 } }) p)

/-- The retry interval of a channel in ticks; in Safelight 1.0 s (R150, R160). 0 means no retry. -/
def retryTicks (c : Chan) : Nat := if c.out == .safelight then secTicks else c.retryInterval * 3200000

/-- One turn-off of a channel (R150): the drive stage goes off and an attempt is counted; past RETRIES, or with no retry
interval, LATCHED sets, but never in Safelight (R160). -/
def turnOff (now : Nat) (thermal : Bool) (c : Chan) : Chan :=
  let n := satNat 8 (c.prot.attempts.toNat + 1)
  let latch := c.out != .safelight && (n > c.retries || c.retryInterval == 0)
  { c with prot := { c.prot with tripped := true, thermal := thermal, tripAt := now, attempts := BitVec.ofNat 8 n
                                 tripDiss := if thermal then c.prot.dissNw else c.prot.tripDiss
                                 atLimit := false, uA := 0
                                 faults := if latch then c.prot.faults ||| (1#10 <<< 9) else c.prot.faults } }

/-- The current limit in force of a channel in µA, with 0 for the maximum of its mode (R146); in Safelight that maximum
(R160). -/
def limitUa (c : Chan) : Nat := if c.out == .safelight || c.limit == 0 then limitMax (effMode c) else c.limit

/-- A drive current in µA as the drive stage lets it flow for `n` ticks (R133, R146): it never sources more than the limit, and in
voltage drive sinks no more. The charging peaks of a gate, up to 1 µs and 200 mA, are not limited. -/
def limited (c : Chan) (n : Nat) (ua : Int) : Int :=
  let l : Int := limitUa c
  match effMode c with
  | 0 => ua
  | 0x08 => clampInt (-l) l ua
  | 0x18 => let m : Int := if n ≤ usTicks then 200000 else l; if m < ua then m else ua
  | _ => if l < ua then l else ua

/-- The limit monitor reads at or above the limit of the channel (R140, R146): its magnitude, and zero while isolated (R144). -/
def atLimitNow (c : Chan) (ua : Int) : Bool :=
  effMode c != 0 && !c.prot.isolated && limitUa c ≤ ua.natAbs

/-- Fault flags by number (R143). -/
def fOpen : Nat := 0
def fShort : Nat := 1
def fLimit : Nat := 2
def fBudget : Nat := 3
def fThermal : Nat := 4
def fOver : Nat := 5
def fOpenLoad : Nat := 6
def fVhv : Nat := 7
def fGate : Nat := 8
def fLatched : Nat := 9

/-- LATCHED set by a turn-off is a flag that goes from 0 to 1: event `c` (R143, R150). -/
def tripChannel (t c flag : Nat) (p : Pkg) : Pkg :=
  let was := ((p.tile t).chan c).prot.faults.getLsbD fLatched
  let p1 := setFault t c flag (onChan t c (turnOff p.now (flag == fThermal)) p)
  let ch := (p1.tile t).chan c
  if !was && ch.prot.faults.getLsbD fLatched then
    raiseWith t c ch.prot.faults.toNat
      (onTile t (Tile.onChan c (fun x => { x with prot := { x.prot with faultTime := stamp32 p.now } })) p1)
  else p1

/-- The drive of a channel returns as a start (R144, R145, R150). -/
def restartDrive (now : Nat) (c : Chan) : Chan := startDrive now c

/-- The points of the sense path of a channel: CHR and CHE sub 0 (R136). -/
def sensedKeys (c : Nat) : List Key := [key 1 (8 * c), key 2 (8 * c)]

/-- A point's quality becomes OFFLINE, which carries value 0 (R29, R158). -/
def goOffline (t : Nat) (k : Key) (p : Pkg) : Pkg :=
  match (p.tile t).points.find? k with
  | none => p
  | some r => if r.q == .offline then p else putNow t k 0 .offline p

/-- A CHANNEL_CONFIG takes effect (R158): in a new mode the drive command is 0 and the sensed points go OFFLINE; LATCHED and
the attempts clear; mode 0 moves Run to Safelight (R156); and the pad breaks before a change of MODE, OPTION or CMP_SRC,
after which a drive in Run starts. A hold latch holds the zero command of a new mode. -/
def applyConfig (t c : Nat) (r : BitVec 256) (p : Pkg) : Pkg :=
  let ch := (p.tile t).chan c
  let m := bits r 7 0
  let modeChanged := ch.mode != m
  let breaks := modeChanged || ch.option != bits r 15 8 || ch.cmpSrc != bits r 26 24
  let ch1 : Chan := { ch with
    cfg := r
    configured := true
    drive := { ch.drive with
      thr := BitVec.ofNat 10 (bits r 41 32)
      cmd := if modeChanged then 0 else ch.drive.cmd
      eng := if modeChanged then false else ch.drive.eng
      time := if modeChanged then stamp p.now else ch.drive.time
      q := if modeChanged then .offline else ch.drive.q
      breaks := if breaks then (ch.drive.breakAt p.now).breaks else ch.drive.breaks
      modeAt := if modeChanged then p.now else ch.drive.modeAt
      held := if modeChanged then 0 else ch.drive.held
      heldEng := !modeChanged && ch.drive.heldEng
      heldHz := if modeChanged then bits r 191 160 else ch.drive.heldHz
      pulseAt := if modeChanged then none else ch.drive.pulseAt }
    prot := { ch.prot with
      faults := ch.prot.faults &&& ~~~(1#10 <<< fLatched)
      attempts := 0
      opened := { holds := !modeChanged && ch.prot.opened.holds }
      shorted := { holds := !modeChanged && ch.prot.shorted.holds } } }
  let ch2 := if m == 0 && ch1.out == .run then enterSafelight (safeEntry (p.tile t) c) ch1 else ch1
  let ch3 := if ch.prot.tripped then restartDrive (if breaks then ch2.drive.breakUntil else p.now) ch2
    else if breaks && ch2.out == .run && driveRaw ch2 != 0 then startDrive ch2.drive.breakUntil ch2
    else ch2
  let ch4 := settleChan (online p t) (sealedTile p t) ch3
  let p1 := onChan t c (fun _ => ch4) p
  if modeChanged then forAll (sensedKeys c) (goOffline t) p1 else p1

/-- The pads of a channel unit that is deconfigured go from Run to Safelight (R156). -/
def releaseChannel (t c : Nat) (p : Pkg) : Pkg :=
  onChan t c (fun ch => if ch.out == .run then enterSafelight (safeEntry (p.tile t) c) ch else ch) p

end Sys2Proof.Machine
end

