-- ==== Sys2Proof/Machine/ConverterOps.lean ====
section
/-!
DEFINITION. Converters: entries, the running of sequences, and the points an entry writes (R164 to R190).
-/

namespace Sys2Proof.Machine

/-- Fields of a sequence entry (R167). -/
def enChannel (e : BitVec 64) : Nat := bits e 4 0
def enTap (e : BitVec 64) : Nat := bits e 6 5
def enGain (e : BitVec 64) : Nat := bits e 10 8
def enRef (e : BitVec 64) : Nat := bits e 13 12
def enInter (e : BitVec 64) : Bool := bit e 14
def enAvg (e : BitVec 64) : Nat := bits e 35 32

/-- An entry that its sequence may hold (R167, R168). -/
def entryOk (isB inj : Bool) (e : BitVec 64) : Bool :=
  bits e 7 7 == 0 && bits e 11 11 == 0 && bits e 15 15 == 0 && bits e 31 26 == 0 && bits e 63 36 == 0
    && enGain e ≤ 6 && enAvg e ≤ 14
    && (enTap e != 3 || enChannel e ≤ 3)
    && (enTap e == 0 || enRef e == 0)
    && (!enInter e || (!isB && !inj && 1 ≤ enAvg e))

/-- A trigger source that R172 lists, other than none. -/
def triggerListed (t : Nat) : Bool :=
  (0x01 ≤ t && t ≤ 0x08) || (0x10 ≤ t && t ≤ 0x4F) || t == 0x60 || t == 0x61 || t == 0x68 || (0x80 ≤ t && t ≤ 0x9F)

/-- The entry under way or next in a sequence. -/
def Sequence.entry (s : Sequence) : BitVec 64 := s.entries.getD s.idx 0

/-- A sequence that SEQ_CONFIG may not change (R173). -/
def Sequence.busy (s : Sequence) : Bool := s.state != .stopped

/-- The injected pass of a converter runs. -/
def Adc.injRuns (a : Adc) : Bool := a.inj.state == .running

/-- The sequence whose entries a converter runs. -/
def Adc.active (a : Adc) : Sequence := if a.injRuns then a.inj else a.reg

/-- The reference selected at tick `at_`, of selections newest first; internal before the first (R182). -/
def selectedAt (at_ : Nat) : List (Nat × BitVec 2) → BitVec 2
  | [] => 0
  | q :: l => if q.1 ≤ at_ then q.2 else selectedAt at_ l

/-- The reference of an entry with its switching clock at tick `at_`: 0 internal, 1 REFIO, 2 VANA (R182). -/
def refOf (a : Adc) (at_ : Nat) (e : BitVec 64) : Nat :=
  if enRef e == 3 then (selectedAt at_ a.refs).toNat else enRef e

/-- The first conversion clock at or after a tick (R164). -/
def clockFrom (at_ : Nat) : Nat := at_ + at_ % 2

/-- The switching clock that follows a trigger: the last conversion clock within 3 clocks of it (R180 and the example of R181). -/
def triggeredAt (now : Nat) : Nat := now + 6 - now % 2

/-- The present entry of a sequence of converter `a` begins at the first clock from `at_` on. -/
def Adc.begins (a : Adc) (at_ : Nat) (s : Sequence) : Sequence :=
  { s with state := .running, entryAt := clockFrom at_, ref := BitVec.ofNat 2 (refOf a (clockFrom at_) s.entry) }

/-- ADC A runs an interleaved entry (R185). -/
def interleaving (t : Tile) : Bool := t.conv.a.reg.state == .running && enInter t.conv.a.reg.entry && !t.conv.a.injRuns

/-- ADC B is held: by a detect window, or by an interleaved entry of ADC A that runs or was broken (R186, R187). -/
def bHeld (t : Tile) : Bool := t.conv.b.detect.isSome || interleaving t || t.conv.b.idle

/-- ADC B stays idle for the interleaved entry of ADC A, or no longer (R186). -/
def setIdle (on : Bool) (t : Tile) : Tile := t.onAdc true (fun a => { a with idle := on })

/-- The regular sequence of a converter changed by `f`. -/
def onReg (b : Bool) (f : Sequence → Sequence) (t : Tile) : Tile := t.onAdc b (fun a => { a with reg := f a.reg })

/-- The injected sequence of a converter changed by `f`. -/
def onInj (b : Bool) (f : Sequence → Sequence) (t : Tile) : Tile := t.onAdc b (fun a => { a with inj := f a.inj })

/-- A converter has switched to the reference of the entry under way, an interleaved one on both converters (R165, R185), when
the switching clock of that entry began before tick `now`. -/
def switched (now : Nat) (b : Bool) (t : Tile) : Tile :=
  let s := (t.adc b).active
  if s.state != .running || now ≤ s.entryAt then t
  else
    let set (c : Bool) (x : Tile) : Tile := x.onAdc c (fun a => { a with lastRef := s.ref })
    if !b && interleaving t then set true (set b t) else set b t

/-- The present entry of a regular sequence begins, or waits: for the injected pass (Interrupted), for ADC B (Waiting),
or behind a hold of ADC B (Lent) (R173, R180, R186, R188). An interleaved entry interrupts ADC B. -/
def beginReg (now : Nat) (b : Bool) (t : Tile) : Tile :=
  let a := t.adc b
  if a.injRuns then onReg b (fun s => { s with state := .interrupted }) t
  else if b then
    if bHeld t then onReg true (fun s => { s with state := .lent }) t
    else onReg true (a.begins now) t
  else if enInter a.reg.entry then
    if t.conv.b.injRuns || t.conv.b.detect.isSome then onReg false (fun s => { s with state := .waiting }) t
    else
      let t1 := onReg true (fun s => if s.state == .running then { s with state := .lent } else s) (switched now true t)
      onReg false (a.begins now) t1
  else onReg false (a.begins now) t

/-- A regular pass starts from entry 0. -/
def startPass (now : Nat) (b : Bool) (t : Tile) : Tile := beginReg now b (onReg b (fun s => { s with idx := 0 }) t)

/-- ADC B has become free: an interleaved entry that waits goes first, else ADC B's own entry restarts, unless it stays idle
for a broken one (R186). -/
def resumeB (now : Nat) (t : Tile) : Tile :=
  if t.conv.b.detect.isSome || interleaving t || t.conv.b.injRuns then t
  else if t.conv.a.reg.state == .waiting then beginReg now false t
  else if t.conv.b.idle then t
  else if t.conv.b.reg.state == .lent || t.conv.b.reg.state == .interrupted then beginReg now true t
  else t

/-- The injected pass of a converter has ended or was stopped: interrupted entries restart (R180, R186). -/
def injectedEnded (now : Nat) (b : Bool) (t : Tile) : Tile :=
  let t1 := if (t.adc b).reg.state == .interrupted || (!b && t.conv.a.reg.state == .waiting) then beginReg now b t else t
  if b then resumeB now t1 else t1

/-- An interleaved entry of ADC A is abandoned by an urgent trigger of converter `b`; it restarts once both converters are
free, and ADC B's own entry only when it ends (R186). -/
def breakInterleave (b : Bool) (t : Tile) : Tile :=
  if interleaving t then setIdle true (onReg false (fun s => { s with state := if b then .waiting else .interrupted }) t) else t

/-- The injected pass of a converter starts at tick `now` (R180): its regular entry is abandoned and will restart. -/
def startInjected (now : Nat) (b : Bool) (t : Tile) : Tile :=
  let t1 := breakInterleave b (switched now b t)
  let t2 := onReg b (fun s => match s.state with
    | .running => { s with state := .interrupted }
    | .waiting => { s with state := .interrupted }
    | _ => s) t1
  onInj b (fun s => (t2.adc b).begins now { s with idx := 0 }) t2

/-- A regular sequence stops (R172). -/
def stopReg (now : Nat) (b : Bool) (t : Tile) : Tile :=
  let t1 := onReg b (fun s => { s with state := .stopped, mode := 0, trig := 0, next := none, onceDone := false })
    (if (t.adc b).injRuns then t else switched now b t)
  if b then t1 else resumeB now (setIdle false t1)

/-- An injected sequence stops (R172). -/
def stopInj (now : Nat) (b : Bool) (t : Tile) : Tile :=
  let ran := (t.adc b).injRuns
  let t1 := onInj b (fun s => { s with state := .stopped, mode := 0, trig := 0, next := none }) (if ran then switched now b t else t)
  if ran then injectedEnded now b t1 else t1

/-- The end of a regular pass (R172, R173): the run mode that waits takes over, then the sequence stops, repeats or
arms. -/
def endPass (now : Nat) (b : Bool) (t : Tile) : Tile :=
  let s := (t.adc b).reg
  let (mode, trig) := s.next.getD (s.mode, s.trig)
  let s1 := { s with mode := mode, trig := trig, next := none, idx := 0 }
  match mode.toNat with
  | 2 => beginReg now b (onReg b (fun _ => s1) t)
  | 3 => onReg b (fun _ => { s1 with state := .armed }) t
  | 1 => onReg b (fun _ => { s1 with state := .stopped, onceDone := true }) t
  | _ => onReg b (fun _ => { s1 with state := .stopped }) t

/-- The entry under way of a converter has ended: the next one begins, or the pass ends. -/
def nextEntry (now : Nat) (b : Bool) (t : Tile) : Tile :=
  let a := t.adc b
  if a.injRuns then
    if a.inj.idx + 1 < a.inj.entries.length then
      onInj b (fun s => a.begins now { s with idx := s.idx + 1 }) t
    else
      injectedEnded now b (onInj b (fun s =>
        let (mode, trig) := s.next.getD (s.mode, s.trig)
        { s with idx := 0, mode := mode, trig := trig, next := none, state := if mode == 3 then .armed else .stopped }) t)
  else
    let wasInter := !b && enInter a.reg.entry
    let t0 := if wasInter then setIdle false t else t
    let t1 :=
      if a.reg.idx + 1 < a.reg.entries.length then
        beginReg now b (onReg b (fun s => { s with idx := s.idx + 1, state := .stopped }) t0)
      else endPass now b (onReg b (fun s => { s with state := .stopped }) t0)
    if wasInter then resumeB now t1 else t1

/-- Gain as a multiple of a quarter (R167). -/
def gainQuarters (e : BitVec 64) : Nat := 2 ^ enGain e

/-- Excitation of a resistance channel in µA (R139, R162). -/
def excitation (c : Chan) : Nat :=
  match c.option % 4 with
  | 0 => 10 | 1 => 100 | 2 => 500 | _ => 1000

/-- Front-end scale k of a source as a fraction (R168, R169); for resistance it includes the excitation in µA. -/
def frontScale (e : BitVec 64) (c : Chan) : Nat × Nat :=
  match enTap e with
  | 1 => (1, 40)
  | 2 => (32, 1)
  | 3 => (match enChannel e with | 0 => (1, 1) | 1 => (1, 4) | 2 => (1, 2) | _ => (1, 32))
  | _ => match c.mode with
    | 0x01 => (1, 1) | 0x02 => (1, 2) | 0x03 => (1, 10) | 0x04 => (50, 1)
    | 0x05 => (excitation c, 2000000)
    | _ => (1, 10)

/-- The source is bipolar (R169). -/
def bipolar (e : BitVec 64) : Bool := enTap e == 1 || enTap e == 2

/-- The 14-bit code of a steady source value in millionths of its unit (R169). -/
def steadyCode (e : BitVec 64) (c : Chan) (micro : Int) (vrefUv : Nat) : Nat :=
  let (kn, kd) := frontScale e c
  let vref := if enRef e == 0 then 2048000 else vrefUv
  if vref == 0 then 0
  else
    let num : Int := gainQuarters e * kn * micro
    let den : Nat := 4 * kd
    let full : Int := if bipolar e then 2 * num + (vref * den : Nat) else 2 * num
    (clampInt 0 16383 (full * 16384 / ((2 * den * vref : Nat) : Int))).toNat

/-- The result of an entry from the sum of its codes (R175). -/
def entryResult (sum avg : Nat) : Nat :=
  let x := sum * 1024
  if avg == 0 then x else (x + 2 ^ (avg - 1)) / 2 ^ avg

/-- The electrical value of a result in Q16.16 (R134, R178). -/
def electrical (e : BitVec 64) (c : Chan) (ref r : Nat) : Int :=
  let g := gainQuarters e
  if bipolar e then
    let n : Int := ((r : Int) - 8388608) * 2048 * 4
    if enTap e == 1 then divRound (n * 40) (256000 * g) else divRound (n * 1000) (256000 * g * 32)
  else if ref != 0 then divRound r 256
  else match c.mode with
    | 0x04 => divRound ((r * 2048 * 4 * 1000 : Nat) : Int) (256000 * g * 50)
    | 0x05 => divRound ((r * 2048 * 4 * 2 * 1000000 : Nat) : Int) (256000 * g * excitation c)
    | 0x01 => divRound ((r * 2048 * 4 : Nat) : Int) (256000 * g)
    | 0x02 => divRound ((r * 2048 * 4 * 2 : Nat) : Int) (256000 * g)
    | _ => divRound ((r * 2048 * 4 * 10 : Nat) : Int) (256000 * g)

/-- Top of the electrical range of a sensing mode, Q16.16 (R133, R139, R142). -/
def rangeTop (c : Chan) : Int :=
  match c.mode with
  | 0x01 => divRound (12 * 65536) 10
  | 0x02 => divRound (24 * 65536) 10
  | 0x03 => 12 * 65536
  | 0x04 => 24 * 65536
  | _ => divRound (4000000 * 65536) (excitation c)

/-- The conditions take `n` more samples that meet it or that do not (R142): entered after two in a row that do, left after four
in a row that do not. -/
def SensorCond.take (meets : Bool) (n : Nat) (x : SensorCond) : SensorCond :=
  if n == 0 then x
  else if meets then { holds := x.holds || x.met + n ≥ 2, met := x.met + n, unmet := 0 }
  else if x.holds && x.unmet + n < 4 then { holds := true, met := 0, unmet := x.unmet + n }
  else {}

/-- The samples of an entry join the sensor fault conditions of a channel (R141, R179). In resistance mode the open test takes
the pin voltage at each sample, in runs of samples at one voltage, while the excitation flows; it flows at every sample of an
entry that writes sub 0 (R139, R154). Every other test takes the result, as one sample. A ratiometric resistance reading gives
no ohms to test. -/
def takeSamples (c : Chan) (r : Nat) (elec : Int) (ref : Nat) (pins : List (Nat × Int)) (x : ChanProt) : ChanProt :=
  match c.mode with
  | 0x05 =>
    { x with opened := pins.foldl (fun a q => a.take (q.2 ≥ 3900) q.1) x.opened
             shorted := x.shorted.take (ref == 0 && elec < c.faultLo * 65536) 1 }
  | 0x01 | 0x02 | 0x03 | 0x04 =>
    { x with opened := x.opened.take (c.faultLo != 0 && r < 256 * c.faultLo) 1
             shorted := x.shorted.take (c.faultHi != 0xFFFF && 256 * c.faultHi < r) 1 }
  | _ => x

/-- The active curve of a channel, when its index holds a curve of FORMAT 0x02 (R244). -/
def channelCurve (tl : Tile) (c : Chan) : Option (List Byte) :=
  let b := tl.table 1 c.curve
  if leAt b 0 1 == 2 && !b.isEmpty then some b else none

/-- The value and quality of CHE sub 0 from an electrical value of quality `q` (R135, R142, R244). -/
def curveOut (tl : Tile) (c : Chan) (q : Quality) (elec : Int) : Int × Quality :=
  if q == .badOpen || q == .badShort then
    (if c.temp then 0x00960000
     else match (if c.curve == 0xFFFF then none else channelCurve tl c) with
       | some b => sAt b 8
       | none => sat32 (rangeTop c), q)
  else if c.curve == 0xFFFF then (sat32 elec, q)
  else match channelCurve tl c with
    | none => (0, .offline)
    | some b => let (y, range) := curveEval b (sat32 elec); (y, rangeQ q range)

/-- The channel was in a break of R158 at tick `at_`. -/
def inBreak (at_ : Nat) (c : Chan) : Bool := c.drive.breaks.any (fun b => b ≤ at_ && at_ < b + 10 * usTicks)

/-- The channel's points take results of an entry whose switching clock was at tick `at_` (R137, R154, R158, R170, R177): none
from an entry that began in a break, and sub 0 none from one that began in another mode. -/
def writesChannel (at_ : Nat) (e : BitVec 64) (c : Chan) : Bool :=
  match enTap e with
  | 0 => !inBreak at_ c && c.drive.modeAt ≤ at_ &&
      (c.mode == 0x08 || c.mode == 0x09 ||
        (senseMode c.mode && (c.out == .run || (c.out == .safelight && bits c.safe 7 0 == 0))))
  | 1 | 2 => !inBreak at_ c
  | _ => false

/-- The instant that the timestamp of an entry gives (R177, R185): sample number 2^(AVG−1), when its sample clocks end at
tick `last`. -/
def sampleInstant (last : Nat) (e : BitVec 64) : Nat :=
  let n := 2 ^ enAvg e
  last - (if enAvg e == 0 then 2 else if enInter e then n / 2 else n)

/-- The tick at which the result of an entry whose sample clocks end at tick `last` is written: 10 conversion clocks after its
last sample clock (R166). -/
def resultAt (last : Nat) : Nat := last + 18

/-- The samples of an entry: sum of codes, any at 0, any at 16,383, pin voltages in runs of samples, isolation. -/
def inputCodes (e : BitVec 64) (c : Chan) (x : ConvInput) : Nat × Bool × Bool × List (Nat × Int) × Bool :=
  match x with
  | .codes sum z f pins iso => (Nat.min sum (16383 * 2 ^ enAvg e), z, f, pins, iso)
  | .steady micro vref mv iso =>
    let k := steadyCode e c micro vref
    (k * 2 ^ enAvg e, k == 0, k == 16383, [(2 ^ enAvg e, mv)], iso)

/-- The isolation switch of a channel was open at a sample of an entry (R144, R179). -/
def switchOpen (c : Chan) (d : EndedEntry) : Bool :=
  let n := 2 ^ (if enInter d.entry then enAvg d.entry - 1 else enAvg d.entry)
  (c.prot.isolated && c.prot.isolatedAt < d.last) || d.last - 2 * n < c.prot.closedAt

/-- A condition that holds after a sample is detected, and its flag sets again if it was cleared (R143). -/
def flagSensor (t c : Nat) (p : Pkg) : Pkg :=
  let x := ((p.tile t).chan c).prot
  let p1 := if x.opened.holds then setFault t c fOpen p else p
  if x.shorted.holds then setFault t c fShort p1 else p1

/-- Sub 0 of a channel takes a result (R142, R177, R179). While both conditions hold the quality is BAD_OPEN. -/
def writeSub0 (t c : Nat) (e : BitVec 64) (ref r : Nat) (top iso : Bool) (pins : List (Nat × Int)) (at_ : Nat) (p : Pkg) : Pkg :=
  let ch := (p.tile t).chan c
  let elec := electrical e ch ref r
  let prot := takeSamples ch r elec ref pins ch.prot
  let p2 := flagSensor t c (onChan t c (fun x => { x with prot := prot }) p)
  let q : Quality := if iso then .badRange
    else if prot.opened.holds then .badOpen
    else if prot.shorted.holds then .badShort
    else if top then .badRange else .good
  let (v, qe) := curveOut (p2.tile t) ch q elec
  putRec t (key 2 (8 * c)) { value := wordOf v, time := stamp at_, q := qe }
    (putRec t (key 1 (8 * c)) { value := w32 r, time := stamp at_, q := q } p2)

/-- The points that the result of an entry of converter `b` writes (R176, R177, R179). -/
def writeResult (t : Nat) (b : Bool) (d : EndedEntry) (x : ConvInput) (p : Pkg) : Pkg :=
  let e := d.entry
  let ch := (p.tile t).chan (enChannel e)
  let (sum, zero, top, pins, iso0) := inputCodes e ch x
  let iso := iso0 || (enTap e != 3 && switchOpen ch d)
  let r := entryResult sum (enAvg e)
  let lim := if bipolar e then zero || top else top
  let at_ := sampleInstant d.last e
  let q : Quality := if (iso && enTap e != 1) || lim then .badRange else .good
  let p1 := putRec t (key 3 (b2n b * 32 + (if d.inj then 16 else 0) + d.idx)) { value := w32 r, time := stamp at_, q := q } p
  if !writesChannel d.began e ch then p1
  else
    let c := enChannel e
    match enTap e with
    | 0 => writeSub0 t c e d.ref.toNat r top iso pins at_ p1
    | tap => putRec t (key 2 (8 * c + tap)) { value := wordOf (electrical e ch d.ref.toNat r), time := stamp at_, q := q }
        (putRec t (key 1 (8 * c + tap)) { value := w32 r, time := stamp at_, q := q } p1)

/-- An entry is skipped for an unsettled reference: event 34 the first time since that reference was last settled
(R184). -/
def skipEntry (t ref : Nat) (p : Pkg) : Pkg :=
  if (p.tile t).conv.skipped.getLsbD ref then p
  else raise t 34 (onTile t (fun tl => { tl with conv := { tl.conv with skipped := tl.conv.skipped ||| (1#3 <<< ref) } }) p)

/-- The keys of the result registers of a sequence (R176). -/
def resultKeys (b inj : Bool) : List Key :=
  (if inj then [16, 17, 18, 19] else List.range 16).map (fun j => key 3 (b2n b * 32 + j))

/-- Both converters stop at tick `now`, as at an offline mark (R190); the run modes stay, and so does the reference that an entry under
way has switched to (R165). -/
def stopConverters (now : Nat) (tl0 : Tile) : Tile :=
  let tl := switched now true (switched now false tl0)
  let halt (s : Sequence) : Sequence := { s with state := .stopped, idx := 0 }
  let adc (a : Adc) : Adc := { a with
    reg := halt a.reg, inj := halt a.inj, detect := none, ended := [], idle := false
    lastRef := if a.detect.isSome then 0 else a.lastRef }
  { tl with conv := { tl.conv with a := adc tl.conv.a, b := adc tl.conv.b } }

/-- The sequences resume when the tile is online again (R190). -/
def resumeConverters (now : Nat) (tl : Tile) : Tile :=
  let go (b : Bool) (t : Tile) : Tile :=
    let a := t.adc b
    let t1 := onInj b (fun s =>
      let (mode, trig) := s.next.getD (s.mode, s.trig)
      { s with mode := mode, trig := trig, next := none, state := if mode == 3 && !s.entries.isEmpty then .armed else .stopped }) t
    let s := a.reg
    let (mode, trig) := s.next.getD (s.mode, s.trig)
    let t2 := onReg b (fun x => { x with mode := mode, trig := trig, next := none }) t1
    if s.entries.isEmpty then t2
    else match mode.toNat with
      | 1 => if s.onceDone then t2 else startPass now b t2
      | 2 => startPass now b t2
      | 3 => onReg b (fun x => { x with state := .armed }) t2
      | _ => t2
  go true (go false tl)

end Sys2Proof.Machine
end

