-- ==== Sys2Proof/Machine/EngineOps.lean ====
section
/-!
DEFINITION. Profile engines: programs, the run of a profile, detect windows, and the commands that meet an engine
(R298 to R313).
-/

namespace Sys2Proof.Machine

/-- Fields of a fire parameter (R300). -/
def fpGateA (b : Word) : Nat := bits b 4 0
def fpGateB (b : Word) : Nat := bits b 9 5
def fpTwo (b : Word) : Bool := bit b 10
def fpArg (b : Word) : Nat := bits b 31 16

/-- The channel whose pin the comparator of a gate channel watches (R140, R300). -/
def senseOf (tl : Tile) (g : Nat) : Nat := g / 8 * 8 + (tl.chan g).cmpSrc

/-- Opcode of a profile instruction (R303). -/
def piOp (w : Word) : Nat := bits w 31 26

/-- The time field of a DRIVE or CHOP is in its range (R303). -/
def piTimeOk (w : Word) : Bool := if bit w 20 then bits w 19 0 == 0 else bits w 19 0 != 0

/-- An instruction that a program of `count` may hold (R299, R303). -/
def piOk (count : Nat) (w : Word) : Bool :=
  match piOp w with
  | 0x01 => piTimeOk w && bits w 23 22 == 0
  | 0x02 => piTimeOk w && bits w 23 21 == 0 && bits w 25 25 == 0
  | 0x03 => bits w 25 19 == 0 && bits w 17 10 != 0 && (!bit w 18 || bits w 9 0 == 0)
  | 0x04 => bits w 11 0 != 0 && bits w 23 16 != 0
  | 0x05 => bits w 25 8 == 0 && bits w 5 0 < count
  | 0x06 => bits w 25 9 == 0 && (!bit w 8 || bits w 7 0 == 0)
  | 0x07 => bits w 25 10 == 0 && bits w 9 0 ≤ 1000
  | 0x3F => bits w 25 0 == 0
  | _ => false

/-- A program that PROFILE_LOAD may store (R299). -/
def programOk (l : List Word) : Bool :=
  l.all (piOk l.length) &&
    (match l.getLast? with
     | some w => piOp w == 0x3F || (piOp w == 0x05 && bits w 7 6 == 0)
     | none => false)

/-- A stored program, empty when none is loaded (R298). -/
def programAt (tl : Tile) (n : Nat) : List Word := tl.programs.getD n []

/-- Sub 3 of a gate channel, the one drive command of both its forms (R25). -/
def gateKey (g : Nat) : Key := key 1 (8 * g + 3)

/-- The gate channels of a binding. -/
def gatesOf (b : Word) : List Nat := if fpTwo b then [fpGateA b, fpGateB b] else [fpGateA b]

/-- The parameter holds no reserved or unused bit (R300). -/
def fireParamOk (b : Word) : Bool := bits b 15 11 == 0 && (fpTwo b || fpGateB b == 0)

/-- A fire of `program` with parameter `b` may start on engine `e` (R301). -/
def canFire (tl : Tile) (e program : Nat) (b : Word) : Bool :=
  let prog := programAt tl program
  fireParamOk b
    && (gatesOf b).all (fun g => (tl.chan g).mode == 0x18 && !claimedByOther tl (gateKey g) (.engine e)
          && !overridden tl (gateKey g))
    && (!fpTwo b || fpGateA b != fpGateB b)
    && (!prog.any (fun w => piOp w == 0x04) || (tl.chan (senseOf tl (fpGateA b))).mode == 0x01)
    && !prog.isEmpty

/-- An engine of a tile changed by `f`. -/
def onEng (t e : Nat) (f : Engine → Engine) (p : Pkg) : Pkg := onTile t (Tile.onEngine e f) p

/-- The run of an engine changed by `f`. -/
def onRun (t e : Nat) (f : EngineRun → EngineRun) (p : Pkg) : Pkg := onEng t e (fun x => { x with run := f x.run }) p

/-- STATE of an engine (R312). -/
def Engine.stateCode (x : Engine) : Nat :=
  match x.phase, x.held.isSome with
  | .idle, _ => 0
  | .running, h => if h then 2 else 1
  | .shutter, h => if h then 4 else 3

/-- The key of an ACT item (R313, R324, R339, R352). -/
def actKey (unit i : Nat) : Key := key 0xA (unit * 16 + i)

/-- ACT items of a unit written GOOD. -/
def putItems (t unit : Nat) (vs : List Word) (p : Pkg) : Pkg :=
  (vs.zip (List.range vs.length)).foldl (fun q x => putNow t (actKey unit x.2) x.1 .good q) p

/-- The ACT items of a unit that is not configured any more (R29). -/
def dropItems (t unit : Nat) (p : Pkg) : Pkg := forAll (List.range 9) (fun i => goOffline t (actKey unit i)) p

/-- The ACT items of an engine, written at each change of state and at each profile end (R313). -/
def engineItems (t e : Nat) (p : Pkg) : Pkg :=
  let x := (p.tile t).engine e
  putItems t e [w32 x.stateCode, x.arrival, x.flags, x.runs, x.noArrivals, x.aborted] p

/-- One flag of the profile under way. -/
def setRunFlag (i : Nat) (r : EngineRun) : EngineRun := { r with flags := r.flags ||| (1#32 <<< i) }

/-- The gates show their levels on sub 3 (R302): where a channel takes no write, NO_DRIVE sets. A level under an override
is not written (R32). -/
def showGates (t e : Nat) (p : Pkg) : Pkg :=
  let x := (p.tile t).engine e
  match x.binding with
  | none => p
  | some b =>
    let put (g : Nat) (on : Bool) (a : Pkg × Bool) : Pkg × Bool :=
      if overridden (a.1.tile t) (gateKey g) then a
      else let (q, ok) := writeDrive t g false (w32 (b2n on)) .good a.1; (q, a.2 && ok)
    let a := put (fpGateA b) x.gateA (p, true)
    let (q, ok) := if fpTwo b then put (fpGateB b) x.gateB a else a
    if ok then q else onRun t e (setRunFlag 6) q

/-- The windows of a tile that wait for ADC B and have not reached their end, as (instant asked, engine) (R307). -/
def waitingWindows (now : Nat) (tl : Tile) : List (Nat × Nat) :=
  (List.range 8).filterMap (fun e =>
    match (tl.engine e).run.window with
    | some w => if !w.opened && now < w.endAt then some (w.askedAt, e) else none
    | none => none)

/-- The engine whose window is granted next: the earliest DETECT, ties to the lower number (R307). -/
def nextWindow (now : Nat) (tl : Tile) : Option Nat :=
  match waitingWindows now tl with
  | [] => none
  | a :: r => some (r.foldl (fun m x => if x.1 < m.1 || (x.1 == m.1 && x.2 < m.2) then x else m) a).2

/-- The window of engine `e` opens on ADC B (R187, R307): ADC B's regular entry and an interleaved entry of ADC A are
interrupted, and a window that waited is late. -/
def openWindow (now e : Nat) (tl : Tile) : Tile :=
  let t1 := breakInterleave true (switched now true tl)
  let t2 := onReg true (fun s => if s.state == .running then { s with state := .lent } else s) t1
  let t3 := t2.onAdc true (fun a => { a with detect := some e })
  t3.onEngine e (fun x =>
    match x.run.window with
    | none => x
    | some w =>
      let r := { x.run with window := some { w with opened := true, openAt := now } }
      { x with run := if w.askedAt < now then setRunFlag 2 r else r })

/-- ADC B has become free: a waiting window is granted, else what was interrupted resumes (R186, R307). -/
def grantB (now : Nat) (tl : Tile) : Tile :=
  if tl.conv.b.detect.isSome || tl.conv.b.injRuns then tl
  else match nextWindow now tl with
    | some e => openWindow now e tl
    | none => resumeB now tl

/-- Conversion clocks of the entry under way of a sequence (R165, R185). -/
def entryClocks (a : Adc) (s : Sequence) : Nat :=
  1 + bits s.entry 25 16 + 2 ^ (if enInter s.entry then enAvg s.entry - 1 else enAvg s.entry) + (if s.ref != a.lastRef then 8 else 0)

/-- The settled flag of the reference of the entry under way is set (R183). -/
def refSettled (v : Converters) (s : Sequence) : Bool := v.settled.getLsbD s.ref.toNat

/-- The settled flag of the reference of the entry under way was set at its switching clock (R184). -/
def entryRuns (v : Converters) (s : Sequence) : Bool :=
  refSettled v s || s.entryAt < (if s.ref == 1 then v.lostRefio else if s.ref == 2 then v.lostVana else 0)

/-- The tick at which the entry under way ends. One skipped at its switching clock takes only that clock (R165, R184). -/
def entryEnds (v : Converters) (a : Adc) (s : Sequence) : Nat :=
  s.entryAt + 2 * (if entryRuns v s then entryClocks a s else 1)

/-- The entry under way, with the tick at which it ends. -/
def Adc.ending (v : Converters) (a : Adc) : EndedEntry :=
  let s := a.active
  { inj := a.injRuns, idx := s.idx, entry := s.entry, ref := s.ref, began := s.entryAt, last := entryEnds v a s }

/-- Converter `b` has an entry under way. -/
def Adc.busy (a : Adc) : Bool := a.active.state == .running && !a.active.entries.isEmpty

/-- The entry under way of converter `b` ends at tick `last`, and the next one begins. -/
def endEntry (b : Bool) (last : Nat) (t : Tile) : Tile :=
  let t1 := if entryRuns t.conv (t.adc b).active then switched last b t else t
  grantB last (nextEntry last b t1)

/-- An urgent trigger for a converter at tick `at_`, with the entries that end before it ended (R180, R181): it starts the injected
pass, or is dropped with event 32 or 33. -/
def urgentAt (t : Nat) (b : Bool) (at_ : Nat) (p : Pkg) : Pkg :=
  let tl := p.tile t
  if (tl.adc b).injRuns || (b && tl.conv.b.detect.isSome) then
    raise t (if b then 33 else 32)
      (onTile t (fun x => x.onAdc b (fun a => { a with drops := if a.drops == 0xFFFF#16 then a.drops else a.drops + 1 })) p)
  else onTile t (startInjected (triggeredAt at_) b) p

/-- The injected sequence of a converter is armed on a source (R172). -/
def injectedOn (a : Adc) (src : Nat) : Bool := a.inj.mode == 3 && a.inj.state != .stopped && a.inj.trig.toNat == src

/-- The regular sequence of a converter is armed on a source and waits for it (R172, R174). -/
def regularOn (a : Adc) (src : Nat) : Bool := a.reg.state == .armed && a.reg.trig.toNat == src

/-- A trigger for converter `b` at tick `at_` (R172, R174, R180), with the entries that end before it ended. -/
def triggerAt (t : Nat) (b : Bool) (src at_ : Nat) (p : Pkg) : Pkg :=
  let p1 := if injectedOn ((p.tile t).adc b) src then urgentAt t b at_ p else p
  if regularOn ((p1.tile t).adc b) src then onTile t (startPass (triggeredAt at_) b) p1 else p1

/-- The entry under way of a converter is the last of a regular pass. -/
def lastOfPass (a : Adc) : Bool := !a.injRuns && a.reg.idx + 1 ≥ a.reg.entries.length

/-- The entry under way of converter `b` ends at tick `last` (R165); the end of a regular pass triggers the other converter
(R172). -/
def finishEntry (t : Nat) (b : Bool) (last : Nat) (p : Pkg) : Pkg :=
  let p1 := onTile t (endEntry b last) p
  if lastOfPass ((p.tile t).adc b) then triggerAt t (!b) 0x68 last p1 else p1

/-- The entry under way of converter `b` ends when that is due by tick `h`; its result is written later, or it is skipped
(R165, R166, R184). -/
def catchUpOne (t : Nat) (b : Bool) (h : Nat) (p : Pkg) : Pkg :=
  let v := (p.tile t).conv
  let a := (p.tile t).adc b
  let d := a.ending v
  if !a.busy || h < d.last then p
  else finishEntry t b d.last
    (if refSettled v a.active then onTile t (fun tl => tl.onAdc b (fun x => { x with ended := x.ended ++ [d] })) p
      else skipEntry t d.ref.toNat p)

/-- The converter of a tile whose entry under way ends first, ADC A where both end together. -/
def endsFirst (tl : Tile) : Bool :=
  let a := tl.conv.a
  let b := tl.conv.b
  b.busy && (!a.busy || (b.ending tl.conv).last < (a.ending tl.conv).last)

/-- The entries of both converters that end by tick `h`, while their results are under way, end in the order of their ends. -/
def catchUp (t h : Nat) (p : Pkg) : Pkg :=
  forAll (List.range 20) (fun _ q => catchUpOne t (endsFirst (q.tile t)) h q) p

/-- The converters of a tile stop now (R190). -/
def haltConverters (t : Nat) (p : Pkg) : Pkg := onTile t (stopConverters p.now) (catchUp t p.now p)

/-- An urgent trigger for a converter (R180, R181): it starts the injected pass, or is dropped with event 32 or 33. -/
def urgent (t : Nat) (b : Bool) (p0 : Pkg) : Pkg :=
  let p := catchUp t p0.now p0
  let tl := p.tile t
  urgentAt t b p.now (if (tl.adc b).injRuns || (b && tl.conv.b.detect.isSome) then p else catchUp t (triggeredAt p.now) p)

/-- A trigger for the regular sequence of a converter (R174): an armed one starts its pass, or waits for the injected one. -/
def regularTrigger (t : Nat) (b : Bool) (src : Nat) (p0 : Pkg) : Pkg :=
  let p := catchUp t p0.now p0
  if regularOn ((p.tile t).adc b) src then onTile t (startPass (triggeredAt p.now) b) p else p

/-- A sequence of a converter waits for a source. -/
def armedOn (a : Adc) (src : Nat) : Bool := a.inj.trig.toNat == src || a.reg.trig.toNat == src

/-- A trigger source of tile `t` fires (R172): the sequences armed on it take it. One that comes while the tile is not online is
lost (R190). -/
def trigger (t src : Nat) (p : Pkg) : Pkg :=
  if !online p t then p
  else forAll [false, true] (fun b q =>
    if !armedOn ((q.tile t).adc b) src then q
    else
      let q1 := if injectedOn ((q.tile t).adc b) src then urgent t b q else q
      regularTrigger t b src q1) p

/-- ADC B is released by a detect window that opened at tick `openAt`: as an injected pass it has switched to the internal
reference, if its switching clock has come (R165, R187, R306). -/
def releaseB (now openAt : Nat) (tl : Tile) : Tile :=
  grantB now (tl.onAdc true (fun a => { a with detect := none, lastRef := if openAt + 6 < now then 0 else a.lastRef }))

/-- The window of engine `e` closes (R306). Without arrival, one that opened sets NO_ARRIVAL and one that never opened
NO_WINDOW (R307, R311). What the converters have ended by then comes first: it may have opened the window, or have left an
interleaved entry waiting for ADC B (R186). -/
def closeWindow (t e : Nat) (confirmed : Bool) (p0 : Pkg) : Pkg :=
  let p := if ((p0.tile t).engine e).run.window.isSome then catchUp t p0.now p0 else p0
  match ((p.tile t).engine e).run.window with
  | none => p
  | some w =>
    let p1 := onRun t e (fun r =>
      let r1 := { r with window := none, arrived := r.arrived || confirmed, closedEmpty := !confirmed }
      if confirmed then r1 else setRunFlag (if w.opened then 1 else 3) r1) p
    if w.opened then
      onTile t (releaseB p.now w.openAt) p1
    else p1

/-- DETECT asks for ADC B (R306, R307). The arrival and flags [3:0] are those of this window from now on (R311). -/
def askWindow (t e : Nat) (w : Word) (p : Pkg) : Pkg :=
  let win : Window := { askedAt := p.now, endAt := p.now + bits w 11 0 * 10 * usTicks, rate := bits w 15 12
                        depth := bits w 23 16, gain := bits w 25 24 }
  onTile t (fun tl => grantB p.now (tl.onEngine e (fun x =>
      { x with run := { x.run with window := some win, arrived := false, closedEmpty := false
                                   arrival := 0xFFFFFFFF, flags := x.run.flags &&& ~~~0xF#32 } })))
    (catchUp t p.now (closeWindow t e false p))

/-- The completion of a fire (R125): a command completes, an action notes a refusal (R252), a tracker is told nothing. -/
def finishFire (t : Nat) (s : FireSrc) (st : Byte) (pl : List Byte) (p : Pkg) : Pkg :=
  match s with
  | .command c => finishWith c 0x61 st t pl p
  | .action m => noteMachine t m st p
  | .angle _ => p

/-- The fire that is held on an engine completes with a status. -/
def dropHeld (t e : Nat) (st : Byte) (p : Pkg) : Pkg :=
  match ((p.tile t).engine e).held with
  | none => p
  | some h => finishFire t h.src st [] (onEng t e (fun x => { x with held := none }) p)

/-- Consecutive profiles without an arrival (R313). -/
def countNoArrival (flags n : Word) : Word :=
  if bit flags 0 then 0 else if bit flags 1 || bit flags 3 then incSat n else n

/-- A profile ends (R308): gates low, window closed, the shutter interval begins, and the running fire completes with
`st`. The event of an abort has the flags as its detail (R389). -/
def endProfile (t e : Nat) (st : Byte) (aborted : Bool) (p : Pkg) : Pkg :=
  let p1 := closeWindow t e false (onEng t e (fun x => { x with gateA := false, gateB := false }) p)
  let p2 := showGates t e p1
  let x := (p2.tile t).engine e
  let p3 := onEng t e (fun x => { x with
    phase := .shutter, shutterEnd := p.now + x.shutterMs * msTicks, arrival := x.run.arrival, flags := x.run.flags
    runs := incSat x.runs, noArrivals := countNoArrival x.run.flags x.noArrivals
    aborted := if aborted then incSat x.aborted else x.aborted, src := none, run := {} }) p2
  let pl := le 4 x.run.arrival.toNat ++ le 4 x.run.flags.toNat
  let p4 := match x.src with
    | some s => finishFire t s st (if st = stOk then pl else []) p3
    | none => p3
  let p5 := if aborted then raiseWith t (45 + e) x.run.flags.toNat p4 else p4
  engineItems t e p5

/-- A profile is aborted with a fault flag (R310). -/
def abortProfile (t e flag : Nat) (p : Pkg) : Pkg := endProfile t e stOk true (onRun t e (setRunFlag flag) p)

/-- T of a DRIVE or CHOP in ticks (R303). -/
def piTicks (b w : Word) : Nat := (if bit w 20 then fpArg b * 16 else bits w 19 0) * usTicks

/-- The gate levels of a DRIVE or CHOP, and what its start does to the window (R303, R305, R306). -/
def startTimed (t e : Nat) (b w : Word) (p : Pkg) : Pkg :=
  let chop := piOp w == 0x02
  let a := chop || bit w 24
  let g2 := fpTwo b && (chop || bit w 25)
  let p1 := onEng t e (fun x => { x with gateA := a, gateB := g2 }) p
  let p2 := if chop || !a then closeWindow t e false p1 else p1
  let win := match ((p2.tile t).engine e).run.window with
    | some x => x.opened
    | none => false
  onRun t e (fun r => { r with
    endAt := p.now + piTicks b w, chop := chop, fast := chop && bit w 24
    untilArrival := !chop && bit w 21 && win, tOn := p.now }) p2

/-- CHOP switches GATE_A off at the threshold (R305). -/
def chopOff (t e : Nat) (p : Pkg) : Pkg :=
  onEng t e (fun x => { x with gateA := false, gateB := x.gateB && !x.run.fast, run := { x.run with tOff := p.now } }) p

/-- The comparator of GATE_A of engine `e`. -/
def chopCmp (p : Pkg) (t e : Nat) : Bool :=
  match ((p.tile t).engine e).binding with
  | some b => ((p.tile t).chan (fpGateA b)).drive.cmp
  | none => false

/-- One zero-time instruction, other than END (R303). -/
def zeroTime (t e : Nat) (b w : Word) (p : Pkg) : Pkg :=
  let next (r : EngineRun) : EngineRun := { r with pc := r.pc + 1 }
  match piOp w with
  | 0x03 =>
    let code := if bit w 18 then fpArg b % 1024 else bits w 9 0
    onRun t e (fun r => { next r with toff := bits w 17 10 * usTicks })
      (onTile t (Tile.onChan (fpGateA b) (fun c => { c with drive := { c.drive with thr := BitVec.ofNat 10 code } })) p)
  | 0x04 => onRun t e next (askWindow t e w p)
  | 0x05 =>
    onRun t e (fun r =>
      let go := match bits w 7 6 with
        | 0 => true
        | 1 => r.arrived
        | 2 => r.closedEmpty
        | _ => r.counter != 0
      let r1 := if bits w 7 6 == 3 && r.counter != 0 then { r with counter := r.counter - 1 } else r
      if go then { r1 with pc := bits w 5 0 } else next r1) p
  | 0x06 => onRun t e (fun r => { next r with counter := if bit w 8 then fpArg b % 256 else bits w 7 0 }) p
  | 0x07 => onRun t e next (onEng t e (fun x => { x with shutterMs := bits w 9 0 }) p)
  | _ => onRun t e next (startTimed t e b w p)

/-- The engine runs its instructions up to one that occupies time, or to the end (R303): a run of more than 64
zero-time instructions is ZERO_LOOP. -/
def runInstrs : Nat → Nat → Nat → Pkg → Pkg
  | 0, t, e, p => abortProfile t e 7 p
  | fuel + 1, t, e, p =>
    let x := (p.tile t).engine e
    match x.binding, (programAt (p.tile t) x.program.toNat)[x.run.pc]? with
    | some b, some w =>
      let timed := (piOp w == 0x01 || piOp w == 0x02) && piTicks b w != 0
      if timed then
        let p1 := showGates t e (startTimed t e b w p)
        if piOp w == 0x02 && chopCmp p1 t e then chopOff t e p1 else p1
      else if fuel == 0 then abortProfile t e 7 p
      else if piOp w == 0x3F then endProfile t e stOk false p
      else runInstrs fuel t e (zeroTime t e b w p)
    | _, _ => endProfile t e stOk false p

/-- The instruction under way is over, and the next ones run. -/
def nextInstr (t e : Nat) (p : Pkg) : Pkg := runInstrs 65 t e (onRun t e (fun r => { r with pc := r.pc + 1, chop := false }) p)

/-- A profile starts (R302, R303, R308): the engine owns its gates, which start low, and runs from instruction 0. -/
def startFire (t e program : Nat) (b : Word) (src : FireSrc) (p : Pkg) : Pkg :=
  let angle := match src with | .angle _ => true | _ => false
  let p1 := onTile t (fun tl => (setClaims (.engine e) ((gatesOf b).map gateKey) tl).onEngine e (fun x => { x with
    phase := .running, program := BitVec.ofNat 8 program, binding := some b, gateA := false, gateB := false, src := some src
    startAt := p.now, shutterMs := 5, run := { flags := if angle then 0x100 else 0 } })) p
  runInstrs 65 t e (engineItems t e p1)

/-- The status of a fire whose numbers name nothing (R248, R309): BAD_HANDLE. -/
def fireHandleOk (engine program : Nat) : Bool := engine < 8 && program < 16

/-- A PROFILE_FIRE or FIRE action reaches its engine (R301, R309, R125). -/
def fire (t e program : Nat) (b : Word) (src : FireSrc) (p : Pkg) : Pkg :=
  if !canFire (p.tile t) e program b then finishFire t src stBadParam [] p
  else
    let p1 := match src with
      | .command c => accept c 0x61 t p
      | _ => p
    match ((p1.tile t).engine e).phase with
    | .idle => startFire t e program b src p1
    | _ =>
      let p2 := onEng t e (fun x => { x with held := some { program := BitVec.ofNat 8 program, param := b, src := src } })
        (dropHeld t e stSuperseded p1)
      if ((p1.tile t).engine e).held.isSome then p2 else engineItems t e p2

/-- PROFILE_CANCEL reaches its engine (R309): the running fire and the held one complete SUPERSEDED. -/
def cancelProfile (t e : Nat) (p : Pkg) : Pkg :=
  let x := (p.tile t).engine e
  let p0 := onEng t e (fun y => { y with held := none }) p
  let p1 := if x.phase == .running then endProfile t e stSuperseded false p0 else if x.held.isSome then engineItems t e p0 else p
  match x.held with
  | some h => finishFire t h.src stSuperseded [] p1
  | none => p1

/-- The engine whose running profile drives channel `c`. -/
def engineOn (tl : Tile) (c : Nat) : Option Nat :=
  (List.range 8).find? (fun e =>
    let x := tl.engine e
    x.phase == .running && (match x.binding with | some b => (gatesOf b).contains c | none => false))

/-- The level of a gate channel that a running profile switches (R302, R305): the engine's own, through its chopping edges. -/
def engineGate (tl : Tile) (c : Nat) : Option Bool :=
  (engineOn tl c).bind (fun e => (tl.engine e).binding.map (fun b => if fpGateA b == c then (tl.engine e).gateA else (tl.engine e).gateB))

/-- A gate channel tripped while its profile runs: CHANNEL_TRIP (R310). -/
def tripEngine (t c : Nat) (p : Pkg) : Pkg :=
  match engineOn (p.tile t) c with
  | some e => abortProfile t e 5 p
  | none => p

/-- A POINT_OVERRIDE of a gate of a running profile acts as PROFILE_CANCEL (R302). -/
def overrideEngine (t c : Nat) (p : Pkg) : Pkg :=
  match engineOn (p.tile t) c with
  | some e => cancelProfile t e p
  | none => p

/-- A held PROFILE_FIRE is denied at its commit instant (R472). -/
def heldDenied (p : Pkg) (t : Nat) (s : FireSrc) : Bool :=
  match s with
  | .command c => deniedNow p t 0x61 c
  | _ => false

/-- The end of the shutter interval (R308, R309, R472): the gates are released, and a held fire starts if R301 still holds. -/
def endShutter (t e : Nat) (p : Pkg) : Pkg :=
  let x := (p.tile t).engine e
  let p1 := onTile t (fun tl => (releaseClaims (.engine e) tl).onEngine e (fun y => { y with phase := .idle, held := none })) p
  match x.held with
  | none => engineItems t e p1
  | some h =>
    if heldDenied p t h.src then engineItems t e (finishFire t h.src stPolicyChanged [] (refusedByPolicy t p1))
    else if canFire (p1.tile t) e h.program.toNat h.param then startFire t e h.program.toNat h.param h.src p1
    else engineItems t e (finishFire t h.src stBadParam [] p1)

/-- The next sample of an open window: its instant, and that of its test (R306). Samples whose test has passed are
skipped. -/
def sampleDue (now : Nat) (w : Window) : Nat × Nat :=
  let period := (w.rate + 1) * usTicks
  let first := w.openAt + 44
  let n := Nat.max w.samples ((now - first + period - 1) / period)
  (n, first + n * period)

/-- The test of one sample (R306), with GATE_A steady on or not (R304): the window afterwards, and whether arrival is
confirmed. -/
def testSample (w : Window) (steady : Bool) (code at_ : Nat) : Window × Bool :=
  if w.first then ({ w with first := false, peak := code, tPeak := at_ }, false)
  else if !steady || code > w.peak then ({ w with peak := code, tPeak := at_ }, false)
  else (w, w.peak - code ≥ 4 * w.depth)

/-- A sample of the window of engine `e` is tested (R306): at confirmation the window closes, and a DRIVE with UNTIL
ends. -/
def detect (t e code : Nat) (p : Pkg) : Pkg :=
  let x := (p.tile t).engine e
  match x.run.window with
  | none => p
  | some w =>
    let (n, due) := sampleDue p.now w
    if !w.opened || due > w.endAt then p
    else
      let p0 := advanceTo due p
      let steady := x.gateA && !x.run.chop && due ≤ x.run.endAt
      let (w1, hit) := testSample { w with samples := n + 1 } steady code (due - 20)
      let p1 := onRun t e (fun r => { r with window := some w1 }) p0
      if !hit then p1
      else
        let p2 := onRun t e (fun r => setRunFlag 0 { r with arrival := w32 ((w1.tPeak - x.startAt) / usTicks) }) p1
        let p3 := closeWindow t e true p2
        if x.run.untilArrival then nextInstr t e p3 else p3

/-- The off-time of a chopping engine is over (R305): the gate turns on again, or stays off while the comparator still
reads true, up to CHOP_STUCK. -/
def chopTime (t e : Nat) (p : Pkg) : Pkg :=
  let x := (p.tile t).engine e
  let r := x.run
  let d1 := Nat.max (r.tOff + r.toff) (r.tOn + 20 * usTicks)
  let d2 := Nat.max d1 (r.tOff + 8 * r.toff)
  let due := if p.now < d1 then d1 else if chopCmp p t e then d2 else p.now
  if x.phase != .running || !r.chop || x.gateA || due ≥ r.endAt then p
  else
    let p1 := advanceTo due p
    if !chopCmp p1 t e then
      onEng t e (fun y => { y with gateA := true, gateB := (match y.binding with | some b => fpTwo b | none => false)
                                   run := { y.run with tOn := p1.now } }) p1
    else if p1.now ≥ d2 then abortProfile t e 4 p1
    else p1

/-- A change of the comparator of channel `c` reaches the engine that chops on it (R305). -/
def chopEdge (t c : Nat) (p : Pkg) : Pkg :=
  match engineOn (p.tile t) c with
  | none => p
  | some e =>
    let x := (p.tile t).engine e
    let watches := match x.binding with | some b => fpGateA b == c | none => false
    if !watches || !x.run.chop || p.now ≥ x.run.endAt then p
    else if chopCmp p t e then (if x.gateA then chopOff t e p else p)
    else if !x.gateA && p.now ≥ x.run.tOff + x.run.toff && p.now ≥ x.run.tOn + 20 * usTicks then chopTime t e p
    else p

/-- The profile engine status record (R312). -/
def engineStatus (x : Engine) : List Byte :=
  le 1 x.stateCode ++ [x.program] ++ le 1 (if x.phase == .running then x.run.pc else 0)
    ++ [match x.held with | some h => h.program | none => 0xFF]
    ++ le 4 x.arrival.toNat ++ le 4 x.flags.toNat ++ le 4 x.runs.toNat

/-- The engines of a tile stop at its offline mark (R325). -/
def stopEngines (t : Nat) (p : Pkg) : Pkg :=
  forAll (List.range 8) (fun e q =>
    let x := (q.tile t).engine e
    let q1 := if x.phase == .running then showGates t e (onEng t e (fun y => { y with gateA := false, gateB := false }) q) else q
    let q2 := onTile t (fun tl => (releaseClaims (.engine e) tl).onEngine e (fun y =>
      { y with phase := .idle, held := none, src := none, gateA := false, gateB := false, run := {} })) q1
    if x.phase == .idle then q2 else engineItems t e q2) p

end Sys2Proof.Machine
end

