-- ==== Sys2Proof/Machine/StepperOps.lean ====
section
/-!
DEFINITION. Stepper units: configuration, patterns, ramps, motion and homing (R326 to R339).
-/

namespace Sys2Proof.Machine

/-- Fields of a stepper configuration record (R327). -/
def scBase (r : BitVec 256) : Nat := bits r 4 0
def scEnable (r : BitVec 256) : Bool := bit r 8
def scHalf (r : BitVec 256) : Bool := bit r 9
def scInvert (r : BitVec 256) : Bool := bit r 10
def scHomeMode (r : BitVec 256) : Nat := bits r 23 16
def scHomeCh (r : BitVec 256) : Nat := bits r 31 24
def scRamp (r : BitVec 256) : Nat := bits r 47 32
def scRate (r : BitVec 256) : Nat := bits r 63 48
def scHomeRate (r : BitVec 256) : Nat := bits r 79 64
def scHold (r : BitVec 256) : Nat := bits r 95 80
def scDwell (r : BitVec 256) : Nat := bits r 103 96
def scMin (r : BitVec 256) : Int := sgn 32 (bits r 159 128)
def scMax (r : BitVec 256) : Int := sgn 32 (bits r 191 160)
def scHomePos (r : BitVec 256) : Int := sgn 32 (bits r 223 192)
def scHomeMax (r : BitVec 256) : Nat := bits r 255 224

/-- The phase channels of a record (R326). -/
def scPhases (r : BitVec 256) : List Nat := (List.range 4).map (scBase r + ·)

/-- A valid ramp curve (R330). -/
def rampOk (c : List Byte) : Bool :=
  leAt c 0 1 == 2 && leAt c 2 1 % 2 == 0 && sAt c 16 == 0
    && (List.range (leAt c 1 1)).all (fun i => sAt c (16 + 8 * i) % 65536 == 0)
    && 65536 ≤ sAt c 4 && sAt c 8 ≤ 65536000

/-- Every field of a record is in its range (R327). -/
def stepperRangeOk (r : BitVec 256) : Bool :=
  let homes := scHomeMode r != 0
  bits r 7 5 == 0 && bits r 15 11 == 0 && bits r 127 104 == 0
    && scBase r % 4 == 0 && scHomeMode r ≤ 2
    && (if scHomeMode r == 1 then scHomeCh r ≤ 31 else scHomeCh r == 0)
    && (scRamp r == 0xFFFF || scRamp r ≤ 511)
    && (if scRamp r == 0xFFFF then 1 ≤ scRate r && scRate r ≤ 1000 else scRate r == 0)
    && (if homes then 1 ≤ scHomeRate r && scHomeRate r ≤ 1000 else scHomeRate r == 0)
    && scMin r ≤ scMax r && scMin r ≤ scHomePos r && scHomePos r ≤ scMax r
    && (if homes then 1 ≤ scHomeMax r && scHomeMax r ≤ 1048576 else scHomeMax r == 0)

/-- The checks of a record with ENABLE set (R328). -/
def stepperCheckOk (tl : Tile) (u : Nat) (r : BitVec 256) : Bool :=
  (scPhases r).all (fun g => (tl.chan g).mode == 0x18 && !claimedByOther tl (gateKey g) (.stepper u)
      && !overridden tl (gateKey g))
    && (scHomeMode r != 1 || ((tl.chan (scHomeCh r)).mode == 0x10 && !(scPhases r).contains (scHomeCh r)))
    && (scRamp r == 0xFFFF || rampOk (tl.table 1 (scRamp r)))

/-- A unit of a tile changed by `f`. -/
def onStep (t u : Nat) (f : Stepper → Stepper) (p : Pkg) : Pkg := onTile t (Tile.onStepper u f) p

/-- The unit runs (R338). -/
def Stepper.runs (x : Stepper) : Bool := x.state == .moving || x.state == .dwell || x.state == .homing

/-- Stepper flags by number (R339). -/
def sfHomed : Nat := 0
def sfEnergised : Nat := 1
def sfTrip : Nat := 2
def sfHomeFail : Nat := 3
def sfRampInvalid : Nat := 4

/-- A flag set or cleared. -/
def setFlag (w : Word) (i : Nat) (on : Bool) : Word := if on then w ||| (1#32 <<< i) else w &&& ~~~(1#32 <<< i)

/-- The largest ramp step, and the rate at one, Q16.16 steps/s (R330). -/
def Stepper.aCap (x : Stepper) : Nat :=
  if scRamp x.cfg == 0xFFFF then 0 else (sAt x.ramp (16 + 8 * (leAt x.ramp 1 1 - 1)) / 65536).toNat
def Stepper.rate (x : Stepper) (a : Nat) : Int :=
  if scRamp x.cfg == 0xFFFF then (scRate x.cfg * 65536 : Nat) else (curveEval x.ramp ((a * 65536 : Nat) : Int)).1

/-- The interval after a step at ramp step `a`, in ticks (R330). -/
def Stepper.interval (x : Stepper) (a : Nat) : Nat := (divRound 2097152000000 (x.rate a).toNat).toNat

/-- The pattern of a unit at its position (R329). -/
def Stepper.pattern (x : Stepper) : Nat :=
  let n : Int := if scHalf x.cfg then 8 else 4
  let i := ((if scInvert x.cfg then -x.pos else x.pos) % n).toNat
  if scHalf x.cfg then [0b0001, 0b0011, 0b0010, 0b0110, 0b0100, 0b1100, 0b1000, 0b1001].getD i 0
  else [0b0011, 0b0110, 0b1100, 0b1001].getD i 0

/-- The four gates of a unit take a pattern (R326, R329). -/
def driveGates (t u pat : Nat) (p : Pkg) : Pkg :=
  let r := ((p.tile t).stepper u).cfg
  forAll (List.range 4) (fun i => ownerWrite t (gateKey (scBase r + i)) (w32 (pat / 2 ^ i % 2)) .good) p

/-- The pattern of the present position is driven (R329, R331). -/
def energise (t u : Nat) (p : Pkg) : Pkg :=
  driveGates t u ((p.tile t).stepper u).pattern
    (onStep t u (fun x => { x with flags := setFlag x.flags sfEnergised true, holdAt := none }) p)

/-- All four gates go low (R336). -/
def deenergise (t u : Nat) (p : Pkg) : Pkg :=
  driveGates t u 0 (onStep t u (fun x => { x with flags := setFlag x.flags sfEnergised false, holdAt := none }) p)

/-- The ACT items of a unit (R339). -/
def stepperItems (t u : Nat) (p : Pkg) : Pkg :=
  let x := (p.tile t).stepper u
  let rate : Int := match x.state with
    | .moving => x.rate x.a
    | .homing => (scHomeRate x.cfg * 65536 : Nat)
    | _ => 0
  putItems t (8 + u) [w32 x.state.code, wordOf x.pos, wordOf x.target, wordOf (sat32 rate), x.flags, x.steps, x.reversals,
    x.moves] p

/-- CHANNEL_TRIP or HOME_FAIL sets: event 53 + u when it goes from 0 to 1, with the flags as its
detail (R339, R389). -/
def stepperFault (t u flag : Nat) (p : Pkg) : Pkg :=
  if bit ((p.tile t).stepper u).flags flag then p
  else
    let p1 := onStep t u (fun x => { x with flags := setFlag x.flags flag true }) p
    raiseWith t (53 + u) ((p1.tile t).stepper u).flags.toNat p1

/-- A completion of a command of a unit, with a signed 32-bit reply (R125, R333 to R335). -/
def finishStep (t : Nat) (c : StepCmd) (st : Byte) (v : Int) (p : Pkg) : Pkg :=
  let pl := if st = stOk then le 4 (wordOf v).toNat else []
  match c with
  | .move (.command c) => finishWith c 0x69 st t pl p
  | .stop (.command c) => finishWith c 0x6A st t pl p
  | .home c => finishWith c 0x6B st t pl p
  | .move (.action m) | .stop (.action m) => noteMachine t m st p
  | _ => p

/-- The outstanding command of a unit completes. -/
def endStepCmd (t u : Nat) (st : Byte) (v : Int) (p : Pkg) : Pkg :=
  match ((p.tile t).stepper u).cmd with
  | none => p
  | some c => finishStep t c st v (onStep t u (fun x => { x with cmd := none, homeNext := none }) p)

/-- The unit is at standstill (R331, R336): the pattern stays for HOLD_MS. -/
def standstill (now : Nat) (x : Stepper) : Stepper :=
  { x with state := .standstill, dir := 0, a := 0, homeStop := false
           holdAt := if scHold x.cfg == 0xFFFF then none else some (now + scHold x.cfg * msTicks) }

/-- A start from standstill towards the target (R330, R331). -/
def startMove (t u : Nat) (p : Pkg) : Pkg :=
  let x := (p.tile t).stepper u
  let ramp := if scRamp x.cfg == 0xFFFF then [] else (p.tile t).table 1 (scRamp x.cfg)
  if scRamp x.cfg != 0xFFFF && !rampOk ramp then
    endStepCmd t u stBadParam 0 (onStep t u (fun y =>
      { (if y.state == .standstill then y else standstill p.now y) with
        target := y.pos, flags := setFlag y.flags sfRampInvalid true }) p)
  else
    let y : Stepper := { x with state := .moving, dir := if x.target > x.pos then 1 else -1, a := 0, ramp := ramp
                                flags := setFlag x.flags sfRampInvalid false }
    energise t u (onStep t u (fun _ => { y with nextAt := p.now + y.interval 0 }) p)

/-- The constant homing interval in ticks (R335). -/
def homeInterval (r : BitVec 256) : Nat := (divRound 32000000 (scHomeRate r)).toNat

/-- Homing starts from standstill (R335). -/
def startHome (t u : Nat) (dir : Int) (p : Pkg) : Pkg :=
  energise t u (onStep t u (fun x => { x with
    state := .homing, homeDir := dir, homeSteps := 0, homeStop := false, homeNext := none
    flags := setFlag (setFlag x.flags sfHomeFail false) sfHomed false, nextAt := p.now + homeInterval x.cfg }) p)

/-- The outstanding command is complete at standstill (R331, R333 to R335): a home that waits begins. -/
def arrived (t u : Nat) (p : Pkg) : Pkg :=
  let x := (p.tile t).stepper u
  match x.homeNext with
  | some (_, dir) => startHome t u dir p
  | none =>
    let p1 := match x.cmd with
      | some (.move _) => onStep t u (fun y => { y with moves := incSat y.moves }) p
      | _ => p
    endStepCmd t u stOk x.pos p1

/-- The target differs from the position at standstill: the unit starts, else its command completes (R331, R332). -/
def govern (t u : Nat) (p : Pkg) : Pkg :=
  let x := (p.tile t).stepper u
  if x.homeNext.isSome || x.target == x.pos then arrived t u (onStep t u (standstill p.now) p) else startMove t u p

/-- One step of a moving unit, at the tick that its interval gave (R331). -/
def takeStep (t u : Nat) (p : Pkg) : Pkg :=
  let x := (p.tile t).stepper u
  let y : Stepper := { x with pos := x.pos + x.dir, steps := incSat x.steps }
  let d := (y.target - y.pos) * y.dir
  let p1 := energise t u (onStep t u (fun _ => y) p)
  if y.a == 0 && d ≤ 0 then
    if d < 0 then
      onStep t u (fun z => { z with state := .dwell, dir := 0, reversals := incSat z.reversals
                                    nextAt := p.now + scDwell z.cfg * msTicks }) p1
    else arrived t u (onStep t u (standstill p.now) p1)
  else
    let a := if d > (y.a : Int) then Nat.min (y.a + 1) y.aCap else y.a - 1
    onStep t u (fun z => { z with a := a, nextAt := p.now + z.interval a }) p1

/-- A newer command takes the place of the outstanding one, which completes SUPERSEDED (R125). -/
def takeOver (t u : Nat) (c : StepCmd) (p : Pkg) : Pkg :=
  onStep t u (fun x => { x with cmd := some c, homeNext := none }) (endStepCmd t u stSuperseded 0 p)

/-- A move reaches its unit (R331 to R335). -/
def stepperMove (t u : Nat) (target : Int) (src : FireSrc) (p : Pkg) : Pkg :=
  let x := (p.tile t).stepper u
  if x.state == .unconfigured then finishStep t (.move src) stBadState 0 p
  else if target < scMin x.cfg || scMax x.cfg < target then finishStep t (.move src) stBadParam 0 p
  else
    let p1 := match src with
      | .command c => accept c 0x69 t p
      | _ => p
    let p2 := onStep t u (fun y => { y with target := target, homeStop := y.state == .homing }) (takeOver t u (.move src) p1)
    stepperItems t u (if x.state == .standstill then
      (if target == x.pos then arrived t u p2 else startMove t u p2) else p2)

/-- A stop reaches its unit (R334, R335). -/
def stepperStop (t u : Nat) (src : FireSrc) (p : Pkg) : Pkg :=
  let x := (p.tile t).stepper u
  if x.state == .unconfigured then finishStep t (.stop src) stBadState 0 p
  else
    let p1 := match src with
      | .command c => accept c 0x6A t p
      | _ => p
    let p2 := takeOver t u (.stop src) p1
    stepperItems t u (match x.state with
      | .moving => onStep t u (fun y => { y with target := y.pos + y.dir * ((y.a : Int) + 1) }) p2
      | .homing => onStep t u (fun y => { y with target := y.pos + y.homeDir, homeStop := true }) p2
      | .dwell => arrived t u (onStep t u (fun y => { standstill p.now y with target := y.pos }) p2)
      | _ => arrived t u (onStep t u (fun y => { y with target := y.pos }) p2))

/-- A home reaches its unit (R335): a unit in motion stops first. -/
def stepperHome (t u : Nat) (dir : Int) (c : Ctx) (p : Pkg) : Pkg :=
  let x := (p.tile t).stepper u
  let p2 := takeOver t u (.home c) (accept c 0x6B t p)
  let wait := onStep t u (fun y => { y with homeNext := some (c, dir) }) p2
  stepperItems t u (match x.state with
    | .moving => onStep t u (fun y => { y with target := y.pos + y.dir * ((y.a : Int) + 1) }) wait
    | .homing => onStep t u (fun y => { y with target := y.pos + y.homeDir, homeStop := true }) wait
    | _ => startHome t u dir (onStep t u (fun y => { y with target := y.pos }) p2))

/-- The end of homing (R335). -/
def endHome (t u : Nat) (ok : Bool) (p : Pkg) : Pkg :=
  let n := ((p.tile t).stepper u).homeSteps
  let p1 := onStep t u (fun x =>
    let y := standstill p.now x
    if ok then { y with pos := scHomePos y.cfg, target := scHomePos y.cfg
                        flags := setFlag (setFlag y.flags sfHomed true) sfTrip false }
    else { y with target := y.pos, flags := setFlag y.flags sfHomed false }) p
  endStepCmd t u stOk n (if ok then p1 else stepperFault t u sfHomeFail p1)

/-- One homing step is taken (R335). -/
def homingStep (t u : Nat) (p : Pkg) : Pkg :=
  energise t u (onStep t u (fun x => { x with
    pos := x.pos + x.homeDir, homeSteps := x.homeSteps + 1, steps := incSat x.steps
    nextAt := p.now + homeInterval x.cfg }) p)

/-- A homing interval is over (R335): a superseded home stops after this step; the switch or the count ends homing. -/
def homeDue (t u : Nat) (p : Pkg) : Pkg :=
  let x := (p.tile t).stepper u
  if x.homeStop then
    govern t u (onStep t u (standstill p.now) (homingStep t u p))
  else if scHomeMode x.cfg == 1 then
    let sw := readPoint p t (key 1 (8 * scHomeCh x.cfg))
    if sw.q == .good && sw.value == 1#32 then endHome t u true p
    else if !usable sw.q false false || x.homeSteps ≥ scHomeMax x.cfg then endHome t u false p
    else homingStep t u p
  else
    let p1 := homingStep t u p
    if x.homeSteps + 1 ≥ scHomeMax x.cfg then endHome t u true p1 else p1

/-- The unit that drives channel `c` energised. -/
def stepperOn (tl : Tile) (c : Nat) : Option Nat :=
  (List.range 4).find? (fun u =>
    let x := tl.stepper u
    x.state != .unconfigured && bit x.flags sfEnergised && (scPhases x.cfg).contains c)

/-- A phase channel tripped while its unit is energised (R337). -/
def tripStepper (t c : Nat) (p : Pkg) : Pkg :=
  match stepperOn (p.tile t) c with
  | none => p
  | some u =>
    let p1 := deenergise t u (onStep t u (fun x =>
      { standstill p.now x with target := x.pos, flags := setFlag x.flags sfHomed false }) p)
    let p2 := stepperFault t u sfTrip p1
    stepperItems t u (endStepCmd t u stOk ((p2.tile t).stepper u).pos
      (onStep t u (fun x => { x with holdAt := none }) p2))

/-- A STEPPER_CONFIG that passed its checks (R326 to R328). -/
def configStepper (t u : Nat) (r : BitVec 256) (p : Pkg) : Pkg :=
  let x := (p.tile t).stepper u
  let old := if x.state == .unconfigured then [] else scPhases x.cfg
  let new := if scEnable r then scPhases r else []
  let first := x.state == .unconfigured || scBase x.cfg != scBase r || scHalf x.cfg != scHalf r || scInvert x.cfg != scInvert r
  let moved := old != new
  let p0 := if moved && bit x.flags sfEnergised then deenergise t u p else p
  let p1 := onTile t (setClaims (.stepper u) (new.map gateKey)) p0
  let p2 := forAll (old.filter (fun g => !new.contains g)) (releaseChannel t) p1
  let p3 := onStep t u (fun y =>
    let flags := setFlag y.flags sfTrip false
    if !scEnable r then { y with cfg := r, state := .unconfigured, flags := flags }
    else if first then { y with cfg := r, state := .standstill, pos := 0, target := 0, flags := setFlag flags sfHomed false }
    else { y with cfg := r, state := .standstill, flags := flags }) p2
  if scEnable r then stepperItems t u p3 else dropItems t (8 + u) p3

/-- The steppers of a tile at its offline mark (R354). -/
def stopSteppers (t : Nat) (p : Pkg) : Pkg :=
  onTile t (fun tl => { tl with steppers := tl.steppers.mapVals (fun _ x =>
    if x.state == .unconfigured then x
    else { x with state := .standstill, dir := 0, a := 0, target := x.pos, cmd := none, homeNext := none, homeStop := false
                  holdAt := none, flags := setFlag (setFlag x.flags sfHomed false) sfEnergised false }) }) p

/-- The steppers of a tile that is online again are at standstill (R354). -/
def resumeSteppers (t : Nat) (p : Pkg) : Pkg :=
  forAll (List.range 4) (fun u q => if ((q.tile t).stepper u).state == .unconfigured then q else stepperItems t u q) p

end Sys2Proof.Machine
end

