-- ==== Sys2Proof/Machine/FanOps.lean ====
section
/-!
DEFINITION. Fan and pump units: configuration, demand and drive, tachometer, starts and faults, baseline and ageing
(R340 to R354).
-/

namespace Sys2Proof.Machine

/-- Fields of a fan configuration record (R340). -/
def fcDrive (r : BitVec 256) : Nat := bits r 4 0
def fcKind (r : BitVec 256) : Nat := bits r 15 8
def fcProfile (r : BitVec 256) : Nat := bits r 23 16
def fcTach (r : BitVec 256) : Option Nat := if bits r 31 24 == 0xFF then none else some (bits r 31 24)
def fcSlot (r : BitVec 256) : Nat := bits r 47 32
def fcPpr (r : BitVec 256) : Nat := bits r 55 48
def fcStart (r : BitVec 256) : Nat := if bits r 63 56 == 0 then 5 else bits r 63 56
def fcRetries (r : BitVec 256) : Nat := bits r 71 64
def fcBackoff (r : BitVec 256) : Nat := if bits r 79 72 == 0 then 30 else bits r 79 72
def fcMinRpm (r : BitVec 256) : Nat := bits r 95 80
def fcMinRun (r : BitVec 256) : Int := sgn 32 (bits r 127 96)
def fcStartDrive (r : BitVec 256) : Int := sgn 32 (bits r 159 128)
def fcSupply (r : BitVec 256) : Handle := r.extractLsb' 160 32
def fcEnable (r : BitVec 256) : Bool := bit r 192

/-- 100.0 in Q16.16. -/
def q100 : Int := 6553600

/-- Every field of a record is in its range (R340). -/
def fanRangeOk (r : BitVec 256) : Bool :=
  let tach := (fcTach r).isSome
  bits r 7 5 == 0 && bits r 255 193 == 0 && fcKind r ≤ 1 && fcProfile r ≤ 2 && (fcProfile r == 0 || fcKind r == 0)
    && (bits r 31 24 ≤ 31 || bits r 31 24 == 0xFF) && fcSlot r ≤ 511
    && (if tach then 1 ≤ fcPpr r && fcPpr r ≤ 8 else fcPpr r == 0)
    && bits r 63 56 ≤ 60 && fcRetries r ≤ 7
    && (if tach then 1 ≤ fcMinRpm r else fcMinRpm r == 0)
    && 0 ≤ fcMinRun r && fcMinRun r ≤ 3276800
    && (fcStartDrive r == 0 || (fcMinRun r < fcStartDrive r && fcStartDrive r ≤ q100))
    && (fcSupply r == noHandle || [0x2, 0x7, 0xB, 0xC].contains (handleClass (fcSupply r)))

/-- What is wrong with the handle of a supply point (R24). -/
def fanSupplyError (p : Pkg) (r : BitVec 256) : Option Byte := if fcSupply r == noHandle then none else handleError p (fcSupply r)

/-- A slot may feed a fan (R230). -/
def feedsFan (d : BitVec 512) : Bool := 0 ≤ dOutLo d && dOutLo d ≤ dOutHi d && dOutHi d ≤ q100

/-- The checks of a record with ENABLE set (R341). A slot not yet configured is allowed. -/
def fanCheckOk (tl : Tile) (u : Nat) (r : BitVec 256) : Bool :=
  let ch := tl.chan (fcDrive r)
  let d := (tl.slot (fcSlot r)).desc
  (if fcKind r == 0 then ch.mode == 0x13 && 100 ≤ ch.pwmFreq && ch.pwmFreq ≤ 25000 else ch.mode == 0x08)
    && (match fcTach r with
        | some c => (tl.chan c).mode == 0x12 && c != fcDrive r
        | none => true)
    && !claimedByOther tl (gateKey (fcDrive r)) (.fan u) && !overridden tl (gateKey (fcDrive r))
    && (dLaw d == 0 || feedsFan d)

/-- A unit of a tile changed by `f`. -/
def onFanU (t u : Nat) (f : Fan → Fan) (p : Pkg) : Pkg := onTile t (Tile.onFan u f) p

/-- The unit runs (R353). -/
def Fan.runs (x : Fan) : Bool := x.state == .starting || x.state == .running || x.state == .openLoop || x.state == .baseline

/-- The unit is called to run (R342). -/
def Fan.called (x : Fan) : Bool := fcMinRun x.cfg < x.demand

/-- The tachometer is good (R343). -/
def Fan.good (x : Fan) : Bool := (fcTach x.cfg).isSome && (fcMinRpm x.cfg * 65536 : Nat) ≤ x.speed

/-- The baseline that a tile stores for a unit (R348). -/
def baselineOf (tl : Tile) (u : Nat) : Option (List (Int × Int)) := tl.flash.baselines.find? u

/-- Fan flags (R350), with NO_BASELINE as the flash stands. -/
def fanFlags (tl : Tile) (u : Nat) : Nat :=
  let x := tl.fan u
  (bits x.flags 15 0) / 64 * 64 + (bits x.flags 4 0) + 32 * b2n (baselineOf tl u).isNone

/-- Fan flags by number (R350). -/
def ffBlocked : Nat := 0
def ffTachLost : Nat := 1
def ffStall : Nat := 2
def ffWarn : Nat := 3
def ffAgeing : Nat := 4
def ffTrip : Nat := 6
def ffBaseFail : Nat := 7

/-- A fan flag set or cleared: event 57 + u when BLOCKED, TACH_LOST, STALL, CHANNEL_TRIP or AGEING_FAULT goes from 0 to 1,
with the flags as its detail (R350, R389). -/
def fanFlag (t u i : Nat) (on : Bool) (p : Pkg) : Pkg :=
  let was := ((p.tile t).fan u).flags.getLsbD i
  let p1 := onFanU t u (fun x => { x with flags := if on then x.flags ||| (1#16 <<< i) else x.flags &&& ~~~(1#16 <<< i) }) p
  if on && !was && [0, 1, 2, 4, 6].contains i then raiseWith t (57 + u) (fanFlags (p1.tile t) u) p1 else p1

/-- The mean of a list, none when it is empty. -/
def meanOf (l : List Int) : Option Int := if l.isEmpty then none else some (divRound (l.foldl (· + ·) 0) l.length)

/-- The samples of the last `k` ticks. -/
def fanWindow (now k : Nat) (x : Fan) : List (Nat × Int × Option Int × Option Int) :=
  x.samples.filter (fun s => now < s.1 + k)

/-- The mean of a part of some samples, over those that have it. -/
def meanPart (f : Nat × Int × Option Int × Option Int → Option Int)
    (l : List (Nat × Int × Option Int × Option Int)) : Option Int := meanOf (l.filterMap f)

/-- The ageing index in Q16.16 (R351, R352), 0 before the first sample. -/
def ageingQ (x : Fan) : Word := wordOf (sat32 ((x.index.map f32ToQD).getD 0))

/-- The running time of a unit is counted up to now; it goes on where the unit runs (R352, R353). -/
def Fan.countRun (now : Nat) (x : Fan) : Fan :=
  { x with runTicks := if x.counts then x.runTicks + (now - x.countedAt) else x.runTicks, countedAt := now, counts := x.runs }

/-- The ACT items of a unit (R352), written at each change of state: its running time is counted with them. -/
def fanItems (t u : Nat) (p00 : Pkg) : Pkg :=
  let p := onFanU t u (Fan.countRun p00.now) p00
  let tl := p.tile t
  let x := tl.fan u
  let m := (meanPart (fun s => s.2.2.2) (fanWindow p.now secTicks x)).getD 0
  let (sp, p0) := q16Word x.speed p
  let p1 := putItems t (12 + u) [w32 x.state.code, wordOf x.applied, sp, wordOf (sat32 m),
    w32 (fanFlags tl u), if (baselineOf tl u).isSome then ageingQ x else 0, x.failed, w32 (satNat 32 (x.runTicks / secTicks)),
    x.starts] p0
  let p2 := if (fcTach x.cfg).isNone then putNow t (actKey (12 + u) 2) 0 .offline p1 else p1
  if (baselineOf tl u).isNone then putNow t (actKey (12 + u) 5) 0 .offline p2 else p2

/-- The channel command of an applied demand (R342), in the units of CHR sub 3. -/
def fanCommand (r : BitVec 256) (driving : Bool) (d : Int) : Int :=
  if fcKind r == 1 then (if driving then divRound (d * 100) 65536 else 0)
  else
    let duty : Int := match fcProfile r with
      | 0 => if driving then d else 0
      | 1 => if driving then 84 * 65536 - roundQ16 (0xBD71 * d) else 95 * 65536
      | _ => if driving then 15 * 65536 + roundQ16 (0xBAE1 * d) else 0
    divRound duty 100

/-- The demand that a unit drives (R342). -/
def Fan.want (x : Fan) : Int :=
  match x.state with
  | .starting => if fcStartDrive x.cfg == 0 then x.demand else fcStartDrive x.cfg
  | .running => if x.lostAt.isSome then x.applied else x.demand
  | .openLoop => x.applied
  | .baseline => match x.capture with
    | some c => fcMinRun x.cfg + divRound ((q100 - fcMinRun x.cfg) * (c.level : Int)) 7
    | none => x.demand
  | _ => 0

/-- The applied demand is driven (R342), and the ACT items follow the change of state. -/
def driveFan (t u : Nat) (p : Pkg) : Pkg :=
  let x := (p.tile t).fan u
  let p1 := onFanU t u (fun y => { y with applied := x.want }) p
  let p2 := if x.state == .unconfigured || x.state == .blocked then p1
    else ownerWrite t (key 1 (8 * fcDrive x.cfg + 3)) (wordOf (fanCommand x.cfg x.runs x.want)) .good p1
  fanItems t u p2

/-- A start (R344). -/
def startFan (t u : Nat) (p : Pkg) : Pkg :=
  driveFan t u (fanFlag t u ffTachLost false (onFanU t u (fun x => { x with
    state := .starting, until_ := p.now + fcStart x.cfg * secTicks, lostAt := none, goodSince := none }) p))

/-- The unit is off (R342). -/
def fanOff (t u : Nat) (p : Pkg) : Pkg :=
  driveFan t u (fanFlag t u ffTachLost false
    (onFanU t u (fun x => { x with state := .off, lostAt := none, goodSince := none }) p))

/-- The drive channel is released as at deconfiguration (R340, R346). -/
def releaseFan (t u : Nat) (p : Pkg) : Pkg :=
  releaseChannel t (fcDrive ((p.tile t).fan u).cfg) (onTile t (releaseClaims (.fan u)) p)

/-- A failed start or a stall (R344 to R346). -/
def fanFailed (t u : Nat) (p : Pkg) : Pkg :=
  let p1 := onFanU t u (fun x => { x with attempts := x.attempts + 1, failed := incSat x.failed, lostAt := none, goodSince := none }) p
  let x := (p1.tile t).fan u
  if x.attempts > fcRetries x.cfg then
    fanItems t u (releaseFan t u (fanFlag t u ffBlocked true
      (onFanU t u (fun y => { y with state := .blocked, applied := 0 }) p1)))
  else
    driveFan t u (onFanU t u (fun y => { y with state := .backoff, until_ := p.now + fcBackoff y.cfg * secTicks }) p1)

/-- A start has succeeded (R344). -/
def fanStarted (t u : Nat) (p : Pkg) : Pkg :=
  driveFan t u (onFanU t u (fun x => { x with
    state := .running, starts := incSat x.starts, lostAt := none, goodSince := if x.good then some p.now else none }) p)

/-- The unit obeys its call to run (R342, R344); in the second after a lost tachometer it holds its demand (R345). While its
channel is tripped no start begins or ends (R347). -/
def fanObey (t u : Nat) (p : Pkg) : Pkg :=
  let x := (p.tile t).fan u
  match x.state with
  | .off => if x.called && !x.suspended then startFan t u p else p
  | .starting => if x.suspended then p else if x.called then driveFan t u p else fanOff t u p
  | .running => if x.called || x.lostAt.isSome then driveFan t u p else fanOff t u p
  | _ => p

/-- The demand of the units that a slot feeds, read at its commit (R342). -/
def fanDemand (t slot : Nat) (p : Pkg) : Pkg :=
  let r := readPoint p t (key 4 (8 * slot + 3))
  forAll (List.range 4) (fun u q =>
    let x := (q.tile t).fan u
    if x.state != .unconfigured && fcSlot x.cfg == slot && usable r.q false false then
      fanObey t u (onFanU t u (fun y => { y with demand := clampInt 0 q100 r.value.toInt }) q)
    else q) p

/-- A counted edge of a tachometer channel (R343): the edges of the last 250 ms are kept, and the last two whatever their age. -/
def fanEdge (t c : Nat) (p : Pkg) : Pkg :=
  onTile t (fun tl => { tl with fans := tl.fans.mapVals (fun _ x =>
    if fcTach x.cfg == some c && x.state != .unconfigured then
      let recent := x.edges.filter (fun e => p.now < e + 250 * msTicks)
      { x with edges := p.now :: (if recent.isEmpty then x.edges.take 1 else recent) }
    else x) }) p

/-- The tick at which the tachometer counts as lost (R343). -/
def tachLostDue (x : Fan) : Option Nat :=
  match x.edges with
  | a :: b :: _ => some (a + Nat.min (2 * secTicks) (Nat.max (250 * msTicks) (4 * (a - b))))
  | [a] => some (a + 250 * msTicks)
  | [] => none

/-- The speed of a unit in Q16.16 rev/min (R343). -/
def fanSpeed (now : Nat) (x : Fan) : Int :=
  let recent := x.edges.filter (fun e => now < e + 250 * msTicks)
  let l := if recent.length < 2 then x.edges.take 2 else recent
  let lost := match tachLostDue x with | some d => d ≤ now | none => true
  if lost || l.length < 2 || fcPpr x.cfg == 0 then 0
  else
    let span := l.headD 0 - (l.getLastD 0)
    if span == 0 then 0 else divRound ((60 * (l.length - 1) * secTicks * 65536 : Nat) : Int) (fcPpr x.cfg * span)

/-- The reading of the supply point, when it is there and usable (R345, R204). -/
def fanSupply (p : Pkg) (t : Nat) (x : Fan) : Option Int :=
  if fcSupply x.cfg == noHandle then none
  else let r := seen p t (fcSupply x.cfg); if usable r.q false false then some r.value.toInt else none

/-- A supply point of another tile is read at each quarter-second update of a unit that runs, one read at a time (R345, R533). -/
def readSupply (t u : Nat) (p : Pkg) : Pkg :=
  let x := (p.tile t).fan u
  let h := fcSupply x.cfg
  if h == noHandle || !x.runs || handleTile h == ownNo p t
      || (p.tile t).fabric.out.any (fun o => o.req.purpose == .fanSupply t u) then p
  else issue t (handleTile h) 1 (.fanSupply t u) (.read h) (p.now + admissionTicks 1) p

/-- A baseline capture has stopped (R348): BASELINE_FAIL sets and the command completes. -/
def captureFails (t u : Nat) (p : Pkg) : Pkg :=
  match ((p.tile t).fan u).capture with
  | none => p
  | some c => fanFlag t u ffBaseFail true (finish c.ctx 0x6E stRefusedState t
      (onFanU t u (fun x => { x with capture := none, state := if x.state == .baseline then .running else x.state }) p))

/-- The tachometer is lost (R343, R345): the speed is 0, a capture fails, and a running unit holds its demand for a
second. -/
def tachLost (t u : Nat) (p : Pkg) : Pkg :=
  let p1 := captureFails t u (onFanU t u (fun x => { x with speed := 0, goodSince := none }) p)
  let x := (p1.tile t).fan u
  if x.state == .running && x.lostAt.isNone && !x.suspended then
    fanItems t u (onFanU t u (fun y => { y with lostAt := some p.now, until_ := p.now + secTicks }) p1)
  else p1

/-- A stall (R345). -/
def fanStall (t u : Nat) (p : Pkg) : Pkg :=
  fanFailed t u (fanFlag t u ffTachLost false (fanFlag t u ffStall true p))

/-- The judgement after a second without tachometer (R345). -/
def judgeLoss (t u : Nat) (p : Pkg) : Pkg :=
  let x := (p.tile t).fan u
  let m := meanPart (fun s => s.2.2.1) (fanWindow p.now secTicks x)
  let usableNow := (fanSupply p t x).isSome
  let inBand := match m, x.mGood with
    | some a, some g => usableNow && g ≤ 2 * a && 2 * a ≤ 3 * g
    | _, _ => false
  if !inBand then fanStall t u p
  else
    let p1 := onFanU t u (fun y => { y with state := .openLoop, until_ := p.now + secTicks }) p
    fanItems t u (fanFlag t u ffTachLost true p1)

/-- The quarter-second update of a unit (R343 to R345): speed, samples, the end of a start, and the return of the
tachometer. While the drive is tripped R344 and R345 are suspended (R347). -/
def fanUpdate (t u : Nat) (p : Pkg) : Pkg :=
  let x := (p.tile t).fan u
  let sp := fanSpeed p.now x
  let supply := fanSupply p t x
  let measure := if fcSupply x.cfg == noHandle then some x.applied else supply
  let y : Fan := { x with
    speed := sp
    samples := (p.now, sp, supply, measure) :: x.samples.take 39 }
  let z : Fan := { y with
    goodSince := if y.good && !y.suspended then some (y.goodSince.getD p.now) else none
    lostAt := if y.good then none else y.lostAt
    mGood := if y.runs && y.good && !y.suspended then
        (match meanPart (fun s => s.2.2.1) ((fanWindow p.now secTicks y).filter (fun s => (fcMinRpm y.cfg * 65536 : Nat) ≤ s.2.1)) with
         | some m => some m
         | none => y.mGood)
      else y.mGood }
  let p1 := readSupply t u (onFanU t u (fun _ => z) p)
  if z.suspended then fanItems t u p1
  else if z.state == .starting && z.good then fanStarted t u p1
  else if z.state == .openLoop && (match z.goodSince with | some g => g + secTicks ≤ p.now | none => false) then
    fanObey t u (driveFan t u (fanFlag t u ffTachLost false (onFanU t u (fun f => { f with state := .running }) p1)))
  else if z.state == .running then fanObey t u p1
  else driveFan t u p1

/-- The drive channel of a unit shows TRIPPED (R347); the units of a tile out of service supervise nothing (R354). -/
def tripFan (t c : Nat) (p : Pkg) : Pkg :=
  forAll (List.range 4) (fun u q =>
    let x := (q.tile t).fan u
    if online q t && x.state != .unconfigured && x.state != .blocked && fcDrive x.cfg == c && !x.suspended then
      fanItems t u (fanFlag t u ffTrip true (onFanU t u (fun y => { y with suspended := true, lostAt := none, goodSince := none }) (captureFails t u q)))
    else q) p

/-- The drive of a unit's channel returns (R347): the unit starts again if it is called to run, but a backoff runs to its
end (R344). -/
def untripFan (t c : Nat) (p : Pkg) : Pkg :=
  forAll (List.range 4) (fun u q =>
    let x := (q.tile t).fan u
    if online q t && fcDrive x.cfg == c && x.suspended then
      let q1 := onFanU t u (fun y => { y with suspended := false }) q
      if x.state == .backoff then q1 else fanObey t u (fanOff t u q1)
    else q) p

/-- The units whose channel shows TRIPPED already (R347). -/
def tripFans (t : Nat) (p : Pkg) : Pkg :=
  forAll ((List.range 32).filter (fun c => ((p.tile t).chan c).prot.tripped)) (tripFan t) p

/-- A baseline level begins (R348). -/
def startLevel (t u level : Nat) (p : Pkg) : Pkg :=
  driveFan t u (onFanU t u (fun x => { x with capture := x.capture.map (fun c =>
    { c with level := level, levelEnd := p.now + 10 * secTicks }) }) p)

/-- A baseline level is over (R348): its pair is recorded, then the next level begins or the baseline is stored. -/
def endLevel (t u : Nat) (p : Pkg) : Pkg :=
  let x := (p.tile t).fan u
  match x.capture with
  | none => p
  | some c =>
    let l := fanWindow p.now (2 * secTicks) x
    match meanPart (fun s => some s.2.1) l, meanPart (fun s => s.2.2.2) l with
    | some sp, some m =>
      let rises := match c.pairs.getLast? with | some (s0, _) => s0 < sp | none => true
      let pairs := c.pairs ++ [(sp, m)]
      if !rises then fanObey t u (captureFails t u p)
      else if c.level < 7 then
        startLevel t u (c.level + 1) (onFanU t u (fun y => { y with capture := some { c with pairs := pairs } }) p)
      else
        let back (q : Pkg) : Pkg := fanObey t u (onFanU t u (fun y => { y with capture := none, state := .running }) q)
        match flashCheck [t] p with
        | (some st, q) => back (finish c.ctx 0x6E st t q)
        | (none, q) =>
          let q1 := onTile t (fun tl => { tl with flash := { tl.flash with baselines := tl.flash.baselines.set u pairs } }) q
          let q2 := fanFlag t u ffBaseFail false (onFanU t u (fun y => { y with index := none }) q1)
          back (finish c.ctx 0x6E stOk t q2)
    | _, _ => fanObey t u (captureFails t u p)

/-- The baseline measure at a speed, in binary32 (R349): linear between the two neighbouring points. -/
def baselineAt (s : Int) : List (Int × Int) → Word
  | (s0, m0) :: (s1, m1) :: r =>
    if s ≤ s1 || r.isEmpty then
      let f (i : Int) : Word := f32FromInt i 16
      f32Add (f m0) (f32Div (f32Mul (f32Sub (f m1) (f m0)) (f32Sub (f s) (f s0))) (f32Sub (f s1) (f s0)))
    else baselineAt s ((s1, m1) :: r)
  | _ => 0

/-- The means of the speed over each of the last ten seconds, when each has its four samples (R349). -/
def secondSpeeds (x : Fan) : List Int :=
  if x.samples.length < 40 then []
  else (List.range 10).filterMap (fun i => meanOf (((x.samples.drop (4 * i)).take 4).map (·.2.1)))

/-- The ageing flags follow the index (R349). -/
def ageingFlags (t u : Nat) (i : Word) (p : Pkg) : Pkg :=
  let p1 := if f32Le 0x3F933333#32 i then fanFlag t u ffWarn true p
    else if f32Lt i 0x3F8CCCCD#32 then fanFlag t u ffWarn false p else p
  if f32Le 0x3FA66666#32 i then fanFlag t u ffAgeing true p1
  else if f32Lt i 0x3FA00000#32 then fanFlag t u ffAgeing false p1 else p1

/-- An ageing sample, where its conditions hold (R349). -/
def ageFan (t u : Nat) (p : Pkg) : Pkg :=
  let x := (p.tile t).fan u
  let secs := secondSpeeds x
  match baselineOf (p.tile t) u, meanOf secs with
  | some b, some s =>
    let hi := secs.foldl max (secs.headD 0)
    let lo := secs.foldl min (secs.headD 0)
    let usableAll := x.samples.all (fun q => q.2.2.2.isSome)
    let span := match b.head?, b.getLast? with | some f, some l => f.1 ≤ s && s ≤ l.1 | _, _ => false
    let steady := 100 * (hi - lo) ≤ 2 * s
    let goodAll := match x.goodSince with | some g => g + 10 * secTicks ≤ p.now + 250 * msTicks | none => false
    if x.state != .running || !x.good || !goodAll || !usableAll || !span || !steady then p
    else
      let m := (meanPart (fun q => q.2.2.2) x.samples).getD 0
      let ratio := f32Div (f32FromInt m 16) (baselineAt s b)
      let i := match x.index with
        | none => ratio
        | some old => f32Add old (f32Div (f32Sub ratio old) (f32Nat 64))
      fanItems t u (ageingFlags t u i (onFanU t u (fun y => { y with index := some i }) p))
  | _, _ => p

/-- A FAN_CONFIG that passed its checks (R340, R341). -/
def configFan (t u : Nat) (r : BitVec 256) (p : Pkg) : Pkg :=
  let x := (p.tile t).fan u
  let was := x.state != .unconfigured && x.state != .blocked
  let leaves := was && (!fcEnable r || fcDrive x.cfg != fcDrive r)
  let p1 := if leaves then releaseFan t u p else p
  if !fcEnable r then
    dropItems t (12 + u) (onFanU t u (fun y => Fan.countRun p.now { y with
      cfg := r, state := .unconfigured, applied := 0, demand := 0, suspended := false, samples := [] }) p1)
  else
    let p2 := onTile t (setClaims (.fan u) [gateKey (fcDrive r)]) p1
    fanObey t u (tripFans t (fanOff t u (onFanU t u (fun y => { y with
      cfg := r, attempts := 0, suspended := false, demand := if fcSlot x.cfg == fcSlot r then y.demand else 0, edges := if fcTach x.cfg == fcTach r then y.edges else []
      flags := y.flags &&& ~~~(0b1000101#16) }) p2)))

/-- The fan status record (R351). -/
def fanStatusBytes (tl : Tile) (u : Nat) (speed : Word) : List Byte :=
  let x := tl.fan u
  le 1 x.state.code ++ le 1 (Nat.min 255 x.attempts) ++ le 2 (fanFlags tl u) ++ le 4 (wordOf x.applied).toNat
    ++ le 4 speed.toNat ++ le 4 (if (baselineOf tl u).isSome then (ageingQ x).toNat else 0)

/-- The fans of a tile at its offline mark (R354). -/
def stopFans (t : Nat) (p : Pkg) : Pkg :=
  onTile t (fun tl => { tl with fans := tl.fans.mapVals (fun _ x =>
    if x.state == .unconfigured || x.state == .blocked then x
    else Fan.countRun p.now { x with
      state := .off, capture := none, lostAt := none, goodSince := none, suspended := false, samples := [] }) }) p

/-- The fans of a tile that is online again (R354): those called to run start. -/
def resumeFans (t : Nat) (p : Pkg) : Pkg :=
  forAll (List.range 4) (fun u q =>
    if ((q.tile t).fan u).state == .unconfigured then q
    else fanObey t u (tripFans t (driveFan t u (fanFlag t u ffTachLost false q)))) p

end Sys2Proof.Machine
end

