-- ==== Sys2Proof/Machine/Governor.lean ====
section
/-!
DEFINITION. The voltage governor of a tile (R70 to R74).
-/

namespace Sys2Proof.Machine

/-- The governor of a tile changed by `f`. -/
def onGov (t : Nat) (f : Governor → Governor) (p : Pkg) : Pkg := onTile t (fun tl => { tl with gov := f tl.gov }) p

/-- VCORE is raised to `mv`, where that is a raise (R70, R71, R73): a raise above the ceiling is an override. -/
def raiseCore (t mv : Nat) (p : Pkg) : Pkg :=
  let g := (p.tile t).gov
  if mv ≤ g.vcore.toNat then p
  else
    let above := mv > g.ceil.toNat
    let steps := (mv - g.vcore.toNat + 9) / 10
    let p1 := onGov t (fun g => { g with
      vcore := BitVec.ofNat 16 mv, lastRaise := some p.now, settleAt := p.now + 20 * usTicks * steps, settling := true
      overrides := if above then incSat g.overrides else g.overrides, toCeil := g.toCeil && !above }) p
    if above then onShared (fun s => { s with counts := { s.counts with overrides := incSat s.counts.overrides } }) p1 else p1

/-- A completion records its slack in 0.1 % with the governor (R70). -/
def govSlack (t slack : Nat) (p : Pkg) : Pkg :=
  let g := (p.tile t).gov
  let p1 := onGov t (fun g => { g with allHigh := g.allHigh && slack > 500
                                       allFloor := g.allFloor && slack ≥ g.slackFloor.toNat }) p
  let soon := match g.lastRaise with | some r => p.now < r + 100 * usTicks | none => false
  if slack < g.slackFloor.toNat && !soon then raiseCore t (Nat.min 1000 (g.vcore.toNat + 10)) p1 else p1

/-- An overrun (R70). -/
def govOverrun (t : Nat) (p : Pkg) : Pkg :=
  raiseCore t (Nat.min 1000 ((p.tile t).gov.vcore.toNat + 50)) (onGov t (fun g => { g with noOverrun := false }) p)

/-- The end of a 10 ms window (R70, R73): VCORE falls one step where that is allowed, and a new window opens. The 50 % condition
is skipped on the way to a ceiling set below VCORE. It does not fall below `least`, for a change that waits (R71). -/
def govWindow (least now : Nat) (g : Governor) : Governor :=
  let recent := match g.lastRaise with | some r => now < r + secTicks | none => false
  let floor := Nat.max least g.floor.toNat
  let lower := g.noOverrun && (g.allHigh || (g.toCeil && g.allFloor)) && !recent && floor < g.vcore.toNat
  let v := if lower then Nat.max floor (g.vcore.toNat - 10) else g.vcore.toNat
  { g with vcore := BitVec.ofNat 16 v
           toCeil := g.toCeil && v > g.ceil.toNat
           lastStep := if lower then some now else g.lastStep
           allHigh := true, allFloor := true, noOverrun := true, windowAt := now }

/-- VCORE is at least 0.90 V before a change that adds work (R71). -/
def preChange (t : Nat) (p : Pkg) : Pkg := raiseCore t 900 p

/-- VCORE has settled (R70, R71). -/
def coreSettled (p : Pkg) (t : Nat) : Bool := !(p.tile t).gov.settling || (p.tile t).gov.settleAt ≤ p.now

/-- GOVERNOR sets its parameters (R72, R73): VCORE rises to the floor at once, and a ceiling below it is an instruction to
lower. -/
def setGovernor (t : Nat) (ceil floor slack : BitVec 16) (p : Pkg) : Pkg :=
  onGov t (fun g => { g with toCeil := ceil.toNat < g.vcore.toNat })
    (raiseCore t floor.toNat (onGov t (fun g => { g with ceil := ceil, floor := floor, slackFloor := slack }) p))

/-- The parameters of GOVERNOR are in their ranges (R72). -/
def govOk (ceil floor slack : BitVec 16) : Bool :=
  let v (x : BitVec 16) : Bool := 600 ≤ x.toNat && x.toNat ≤ 1000 && x.toNat % 10 == 0
  v ceil && v floor && floor.toNat ≤ ceil.toNat && 100 ≤ slack.toNat && slack.toNat ≤ 400

end Sys2Proof.Machine
end

