-- ==== Sys2Proof/Machine/LoopLaws.lean ====
section
/-!
DEFINITION. The arithmetic and the control laws of a loop slot (R200, R209 to R215, R220 to R222).
-/

namespace Sys2Proof.Machine

/-- A 48-bit value, and whether a sum, difference or product saturated on the way to it (SAT_ARITH, R209). -/
structure Num where
  v : Int
  sat : Bool := false
  deriving DecidableEq, Repr

/-- sat48 of R209. -/
def numSat (x : Int) (s : Bool) : Num := { v := sat48 x, sat := s || sat48 x != x }

/-- sat_add, sat_sub and mul of R209. -/
def numAdd (a b : Num) : Num := numSat (a.v + b.v) (a.sat || b.sat)
def numSub (a b : Num) : Num := numSat (a.v - b.v) (a.sat || b.sat)
def numMul (k : Int) (a : Num) : Num := numSat (roundQ16 (k * a.v)) a.sat

/-- A value that has not saturated. -/
def num (x : Int) : Num := { v := x }

/-- What a law evaluates (R210 to R215): parameters, limits, options, inputs and the force of R214. -/
structure LawIn where
  law : Nat
  p : List Int
  lo : Int
  hi : Int
  rev : Bool
  dOnPv : Bool
  selMax : Bool
  a : Int
  b : Int
  c : Int
  d : Int
  hasB : Bool
  ok : List Bool
  force : Bool
  /-- the forced value; none means the previous output -/
  forced : Option Int
  fresh : Bool
  reseed : Bool
  deriving DecidableEq, Repr

/-- What a law returns: new state, outputs, and the flags SAT_OUT_HI, SAT_OUT_LO, SAT_INT, SAT_ARITH. -/
structure LawRes where
  st : LawSt
  out : Int
  out2 : Int := 0
  hi : Bool := false
  lo : Bool := false
  int_ : Bool := false
  sat : Bool := false
  deriving DecidableEq, Repr

/-- clamp_out of R209, with the saturation of its argument. -/
def clampOut (x : LawIn) (u : Num) (st : LawSt) : LawRes :=
  { st := { st with uPrev := clampInt x.lo x.hi u.v }, out := clampInt x.lo x.hi u.v
    hi := u.v > x.hi, lo := u.v ≤ x.hi && u.v < x.lo, sat := u.sat }

/-- Parameter `i` of a law. -/
def LawIn.par (x : LawIn) (i : Nat) : Int := x.p.getD i 0

/-- error() of R209. -/
def LawIn.err (x : LawIn) : Num := if x.rev then numSub (num x.a) (num x.b) else numSub (num x.b) (num x.a)

/-- The forced value, or the previous output (R214). -/
def LawIn.want (x : LawIn) (prev : Int) : Int := x.forced.getD prev

/-- PID (R210). -/
def lawPid (x : LawIn) (s : LawSt) : LawRes :=
  let e := x.err
  let d : Num := if !x.dOnPv then e else num (if x.rev then x.a else -x.a)
  let xPrev := if x.fresh then d.v else s.xPrev
  let df0 := if x.fresh then 0 else s.df
  let reseed := x.reseed || x.fresh
  let dx := numSub d (num xPrev)
  let df := numAdd (num df0) (numMul (x.par 3) (numSub dx (num df0)))
  let pdf := numAdd (numAdd (numMul (x.par 0) e) (numMul (x.par 2) df)) (numMul (x.par 4) (num x.c))
  let want := x.want s.uPrev
  let (i, isat, arith) : Int × Bool × Bool :=
    if x.force || reseed then
      let t := numSub (num (if x.force then want else s.uPrev)) pdf
      (clampInt x.lo x.hi t.v, t.v > x.hi || t.v < x.lo, t.sat)
    else
      let t := numAdd (num s.integ) (numMul (x.par 1) e)
      let c := clampInt x.lo x.hi t.v
      let u := numAdd (num c) pdf
      if (u.v > x.hi && c > s.integ) || (u.v < x.lo && c < s.integ) then (s.integ, true, t.sat || u.sat)
      else (c, t.v > x.hi || t.v < x.lo, t.sat || u.sat)
  let u := if x.force then num want else numAdd (num i) pdf
  let r := clampOut x u { s with integ := i, e := e.v, xPrev := d.v, df := df.v }
  { r with int_ := isat, sat := r.sat || arith || pdf.sat }

/-- PI with feedforward (R211). -/
def lawPi (x : LawIn) (s : LawSt) : LawRes :=
  let e := x.err
  let eP := if x.fresh then e.v else s.ePrev
  let cP := if x.fresh then x.c else s.cPrev
  let du := numAdd (numAdd (numMul (x.par 0) (numSub e (num eP))) (numMul (x.par 1) e))
    (numMul (x.par 4) (numSub (num x.c) (num cP)))
  let u := if x.force then num (x.want s.uPrev) else numAdd (num s.uPrev) du
  let r := clampOut x u { s with ePrev := e.v, cPrev := x.c, e := e.v }
  { r with sat := r.sat || du.sat }

/-- Lead-lag (R212). -/
def lawLead (x : LawIn) (s : LawSt) : LawRes :=
  let uL := if x.fresh then x.a else s.uLast
  let y := numAdd (numAdd (numMul (x.par 0) (num s.uPrev)) (numMul (x.par 1) (num x.a))) (numMul (x.par 2) (num uL))
  let u := if x.force then num (x.want s.uPrev) else if x.reseed then num s.uPrev else y
  let r := clampOut x u { s with uLast := x.a }
  { r with sat := r.sat || y.sat }

/-- Two-state state-space (R212). -/
def lawSs (x : LawIn) (s : LawSt) : LawRes :=
  let u := if x.hasB then numSub (num x.a) (num x.b) else num x.a
  let three (i j k : Nat) : Num :=
    numAdd (numAdd (numMul (x.par i) (num s.x1)) (numMul (x.par j) (num s.x2))) (numMul (x.par k) u)
  let y := three 6 7 8
  let n1 := three 0 1 4
  let n2 := three 2 3 5
  let v := if x.force then num (x.want s.uPrev) else if x.reseed then num s.uPrev else y
  let r := clampOut x v { s with x1 := n1.v, x2 := n2.v }
  { r with sat := r.sat || y.sat || n1.sat || n2.sat }

/-- sat_inc32 of R213. -/
def incN (n : Nat) : Nat := Nat.min 0xFFFFFFFF (n + 1)

/-- On-off with hysteresis (R213). P1 and P2 count periods. -/
def lawOnOff (x : LawIn) (s : LawSt) : LawRes :=
  let e := x.err
  let on0 := if x.fresh then s.uPrev == x.hi else s.on
  let n0 := if x.fresh then 0xFFFFFFFF else s.n
  let nat32 (i : Int) : Nat := (BitVec.ofInt 32 i).toNat
  if x.force then
    let r := clampOut x (num (x.want s.uPrev)) s
    let on := r.out == x.hi
    { r with st := { r.st with e := e.v, on := on, n := if on != on0 then 0 else incN n0 }, sat := r.sat || e.sat }
  else
    let n := incN n0
    let (on, n) := if !on0 && e.v > x.par 0 && n ≥ nat32 (x.par 2) then (true, 0)
      else if on0 && e.v < -(x.par 0) && n ≥ nat32 (x.par 1) then (false, 0)
      else (on0, n)
    let o := if on then x.hi else x.lo
    { st := { s with e := e.v, on := on, n := n, uPrev := o }, out := o, sat := e.sat }

/-- Rate limiter (R213). -/
def lawRate (x : LawIn) (s : LawSt) : LawRes :=
  let d := numSub (num x.a) (num s.uPrev)
  let t : Num := if d.v > x.par 0 then numAdd (num s.uPrev) (num (x.par 0))
    else if d.v < -(x.par 1) then numSub (num s.uPrev) (num (x.par 1))
    else num x.a
  let r := clampOut x (if x.force then num (x.want s.uPrev) else t) { s with e := d.v }
  { r with sat := r.sat || d.sat || t.sat }

/-- The candidate that a selector takes (R213): the earlier one on a tie. -/
def selPick (mx : Bool) : List (Nat × Int × Bool) → Option (Nat × Int) → Option (Nat × Int)
  | [], k => k
  | (j, v, ok) :: r, k =>
    let better := match k with
      | none => true
      | some (_, w) => if mx then v > w else v < w
    selPick mx r (if ok && better then some (j, v) else k)

/-- Min/max selector (R213). -/
def lawSelect (x : LawIn) (s : LawSt) : LawRes :=
  let k := selPick x.selMax [(0, x.a, x.ok.getD 0 false), (1, x.b, x.ok.getD 1 false), (2, x.c, x.ok.getD 2 false),
    (3, x.d, x.ok.getD 3 false)] none
  let st := match k with | some (j, _) => { s with sel := j } | none => s
  let v := match k with | some (_, v) => v | none => s.uPrev
  clampOut x (num (if x.force then x.want s.uPrev else v)) st

/-- Split-range (R213): the force acts on the input, and the previous value is the last input used. -/
def lawSplit (x : LawIn) (s : LawSt) : LawRes :=
  let u := if x.force then x.want s.uPrevIn else x.a
  let half (g b : Int) : Num := numAdd (num x.lo) (numMul g (numSub (num u) (num b)))
  let o2 := half (x.par 3) (x.par 2)
  let o1 := half (x.par 1) (x.par 0)
  { st := { s with uPrevIn := u, uPrev := clampInt x.lo x.hi o1.v }, out := clampInt x.lo x.hi o1.v
    out2 := clampInt x.lo x.hi o2.v, sat := o1.sat || o2.sat }

/-- The law of a code (R200). -/
def runLaw (x : LawIn) (s : LawSt) : LawRes :=
  match x.law with
  | 1 => lawPid x s
  | 2 => lawPi x s
  | 3 => lawLead x s
  | 4 => lawSs x s
  | 5 => lawOnOff x s
  | 6 => lawRate x s
  | 7 => lawSelect x s
  | _ => lawSplit x s

/-- Inputs A to C of a law: 2 required, 1 may be present, 0 must be none (R200). Input D may be present. -/
def lawInputs (law : Nat) : List Nat :=
  match law with
  | 1 | 2 => [2, 2, 1]
  | 3 | 6 | 8 => [2, 0, 0]
  | 4 => [2, 1, 0]
  | 5 => [2, 2, 0]
  | _ => [1, 1, 1]

/-- The parameters of a law are in their ranges, and the unused ones zero (R200). -/
def lawParamsOk (law : Nat) (p : List Int) : Bool :=
  let z (l : List Nat) : Bool := l.all (fun i => p.getD i 0 == 0)
  match law with
  | 1 => 0 ≤ p.getD 3 0 && p.getD 3 0 ≤ 65536 && z [5, 6, 7, 8]
  | 2 => z [2, 3, 5, 6, 7, 8]
  | 3 => z [3, 4, 5, 6, 7, 8]
  | 4 => true
  | 5 => 0 ≤ p.getD 0 0 && z [3, 4, 5, 6, 7, 8]
  | 6 => 0 ≤ p.getD 0 0 && 0 ≤ p.getD 1 0 && z [2, 3, 4, 5, 6, 7, 8]
  | 7 => z [0, 1, 2, 3, 4, 5, 6, 7, 8]
  | 8 => z [4, 5, 6, 7, 8]
  | _ => false

/-- Regions and hysteresis of a region table (R218), its boundaries and the parameters of one region. -/
def rtCount (b : List Byte) : Nat := leAt b 1 1
def rtHyst (b : List Byte) : Int := sAt b 4
def rtSched (b : List Byte) : Handle := BitVec.ofNat 32 (leAt b 8 4)
def rtBound (b : List Byte) (r : Nat) : Int := sAt b (12 + 40 * r)
def rtParams (b : List Byte) (r : Nat) : List Int := (List.range 9).map (fun i => sAt b (16 + 40 * r + 4 * i))

/-- The region moves up from `q` while `s` calls for it (R220). -/
def regionUp (b : List Byte) (s : Int) : Nat → Nat → Nat
  | 0, q => q
  | fuel + 1, q => if q + 1 < rtCount b && s ≥ sat48 (rtBound b (q + 1) + rtHyst b) then regionUp b s fuel (q + 1) else q

/-- The region moves down from `q` while `s` calls for it (R220). -/
def regionDown (b : List Byte) (s : Int) : Nat → Nat
  | 0 => 0
  | q + 1 => if s < sat48 (rtBound b (q + 1) - rtHyst b) then regionDown b s q else q + 1

/-- next_region of R220. -/
def nextRegion (b : List Byte) (r : Nat) (s : Int) : Nat :=
  let q := regionUp b s 8 r
  if q != r then q else regionDown b s q

/-- The region whose boundaries contain `s` (R220, at a fresh start). -/
def regionOf (b : List Byte) (s : Int) : Nat :=
  ((List.range (rtCount b)).filter (fun r => rtBound b r ≤ s)).getLastD 0

/-- The form of a region table (R219), with the handle of its scheduling point left to the tile. -/
def regionForm (b : List Byte) : Bool :=
  leAt b 0 1 == 0x10 && 1 ≤ rtCount b && rtCount b ≤ 8 && leAt b 2 2 == 0 && 0 ≤ rtHyst b
    && b.length == 12 + 40 * rtCount b && leAt b 12 4 == 0x80000000
    && rising ((List.range (rtCount b)).map (rtBound b))

end Sys2Proof.Machine
end

