-- ==== Sys2Proof/Machine/TableForms.lean ====
section
/-!
DEFINITION. The table formats and when a table is valid: machines, calendars, register maps, polling lists, waveforms,
permit predicates and the seal (R231 to R266, R434, R438, R483). Claims on points are checked where a table is committed.
-/

namespace Sys2Proof.Machine

/-- The number that names tile `n` of a table handle (R232): tiles 0 to 7 are those of the package that holds it. -/
def tableHandle (p : Pkg) (h : Handle) : Handle := if isFar p then h ^^^ 0x00800000#32 else h

/-- A handle at byte `off` of a table, in the numbers of commands. -/
def hAt (p : Pkg) (b : List Byte) (off : Nat) : Handle := tableHandle p (BitVec.ofNat 32 (leAt b off 4))

/-- Indices of a kind (R231). -/
def indexOk (kind idx : Nat) : Bool :=
  match kind with
  | 0 => idx ≤ 255
  | 1 => idx ≤ 511
  | 2 => idx ≤ 31
  | _ => idx ≤ 3 || (16 ≤ idx && idx ≤ 31) || idx == 32 || idx == 48

/-- Largest size and flash area of a kind, in bytes (R231). -/
def kindMax (kind : Nat) : Nat := match kind with | 0 => 7712 | 1 => 4368 | 2 => 1496 | _ => 36864
def kindArea (kind : Nat) : Nat := match kind with | 0 => 288 * 1024 | 1 => 320 * 1024 | 2 => 32 * 1024 | _ => 128 * 1024

/-- Tile `t` may hold the format table `idx` (R263). -/
def formatTile (idx t : Nat) : Bool :=
  if idx ≤ 3 || idx == 32 then t ≤ 1 else if 16 ≤ idx && idx ≤ 31 then t == 0 else true

/-- Bytes that are zero. -/
def zeroAt (b : List Byte) (off len : Nat) : Bool := leAt b off len == 0

/-- Sections of a machine image (R245). -/
def miStates (b : List Byte) : Nat := leAt b 1 1
def miInitial (b : List Byte) : Nat := leAt b 2 1
def miKeep (b : List Byte) : Bool := (leAt b 3 1).testBit 4
def miPaused (b : List Byte) : Bool := (leAt b 3 1).testBit 5
def miTrans (b : List Byte) : Nat := leAt b 4 2
def miTerms (b : List Byte) : Nat := leAt b 6 2
def miActs (b : List Byte) : Nat := leAt b 8 2
def miState (b : List Byte) (i : Nat) : List Byte := slice b (32 + 8 * i) 8
def miTran (b : List Byte) (i : Nat) : List Byte := slice b (32 + 8 * miStates b + 8 * i) 8
def miTerm (b : List Byte) (i : Nat) : List Byte := slice b (32 + 8 * (miStates b + miTrans b) + 16 * i) 16
def miAct (b : List Byte) (i : Nat) : List Byte := slice b (32 + 8 * (miStates b + miTrans b) + 16 * (miTerms b + i)) 16

/-- A first and a count that lie in a section of `n`, with a first of 0 where the count is 0 (R245). -/
def spanOk (first count n : Nat) : Bool := if count == 0 then first == 0 else first + count ≤ n

/-- A handle of a table names a point that exists (R24, R232). -/
def operandOk (p : Pkg) (b : List Byte) (off : Nat) : Bool := handleError p (hAt p b off) == none

/-- A term (R246). `far` allows points of the other package. -/
def termOk (p : Pkg) (permit : Bool) (b : List Byte) : Bool :=
  let op := leAt b 0 1
  let k := leAt b 8 4
  let hOk (off : Nat) : Bool := operandOk p b off && (!permit || leAt b off 4 / 1048576 < 8)
  leAt b 1 1 < 16 && zeroAt b 2 2 && zeroAt b 12 4 &&
    (match op with
     | 0x01 | 0x02 | 0x03 | 0x04 | 0x05 | 0x09 | 0x0A | 0x0D => hOk 4
     | 0x06 | 0x07 => hOk 4 && hOk 8
     | 0x08 => hOk 4 && k ≤ 8
     | 0x0B => !permit && leAt b 4 4 == 0x00FFFFFF
     | 0x0C => !permit && leAt b 4 4 == 0x00FFFFFF && k ≤ 1023
     | 0x0E => leAt b 4 4 == 0x00FFFFFF && k ≤ 127
     | _ => false)

/-- A point that a slot, or with `tmr` a machine, may write on its own tile (R203, R249): a machine's must be writable (R25). -/
def writeTarget (p : Pkg) (t : Nat) (tmr : Bool) (h : Handle) : Bool :=
  let i := handleIdx h
  handleError p h == none && handleTile h == ownNo p t &&
    (match handleClass h with
     | 0x2 => i % 8 == 3 && (!tmr || driveMode ((p.tile t).chan (i / 8)).mode)
     | 0x7 => true
     | 0x6 => tmr
     | 0x4 =>
       let d := ((p.tile t).slot (i / 8)).desc
       (i % 8 == 1 && dIn d 1 == h) || (i % 8 == 2 && dIn d 2 == h)
     | _ => false)

/-- An action (R248, R249). -/
def actionOk (p : Pkg) (t : Nat) (b : List Byte) : Bool :=
  let op := leAt b 0 1
  let arg := leAt b 2 2
  let z (dst value aux : Bool) : Bool := (!dst || zeroAt b 4 4) && (!value || zeroAt b 8 4) && (!aux || zeroAt b 12 4)
  let dst := writeTarget p t true (hAt p b 4)
  zeroAt b 1 1 &&
    (match op with
     | 0x01 => dst && arg == 0 && z false false true
     | 0x02 => dst && arg == 0 && operandOk p b 8 && z false false true
     | 0x03 => dst && arg ≤ 511 && operandOk p b 8 && z false false true
     | 0x04 => dst && arg ≤ 511 && operandOk p b 8 && operandOk p b 12
     | 0x05 => dst && arg == 0 && operandOk p b 8
     | 0x06 => arg ≤ 1023 && z true false true
     | 0x07 => arg ≤ 1023 && z true true true
     | 0x08 => arg ≤ 31 && z true true true
     | 0x09 => arg ≤ 511 && leAt b 8 4 ≤ 3 && z true false (leAt b 8 4 != 0)
     | 0x0A => arg % 256 ≤ 7 && arg / 256 ≤ 15 && z true false true
     | 0x0B => arg ≤ 7 && z true true true
     | 0x0C => arg ≤ 3 && z true false true
     | 0x0D => arg ≤ 3 && z true true true
     | _ => false)

/-- A valid machine image, but for the ownership of its points (R245 to R249). -/
def machineValid (p : Pkg) (t : Nat) (b : List Byte) : Bool :=
  let s := miStates b
  leAt b 0 1 == 1 && 1 ≤ s && s ≤ 64 && miInitial b < s && leAt b 3 1 &&& 0xC8 == 0
    && miTrans b ≤ 256 && miTerms b ≤ 192 && miActs b ≤ 128 && zeroAt b 10 22
    && b.length == 32 + 8 * s + 8 * miTrans b + 16 * miTerms b + 16 * miActs b
    && (List.range s).all (fun i =>
        let r := miState b i
        leAt r 2 1 ≤ 16 && leAt r 6 1 ≤ 16 && zeroAt r 3 1 && zeroAt r 7 1
          && spanOk (leAt r 0 2) (leAt r 2 1) (miTrans b) && spanOk (leAt r 4 2) (leAt r 6 1) (miActs b))
    && (List.range (miTrans b)).all (fun i =>
        let r := miTran b i
        1 ≤ leAt r 2 1 && leAt r 2 1 ≤ 8 && leAt r 3 1 < s && leAt r 6 1 ≤ 16 && zeroAt r 7 1
          && spanOk (leAt r 0 2) (leAt r 2 1) (miTerms b) && spanOk (leAt r 4 2) (leAt r 6 1) (miActs b))
    && (List.range (miTerms b)).all (fun i => termOk p false (miTerm b i))
    && (List.range (miActs b)).all (fun i => actionOk p t (miAct b i))

/-- The predicates of state `i` of an image: the terms of its transitions (R67, R238). -/
def miPreds (b : List Byte) (i : Nat) : Nat :=
  let r := miState b i
  ((List.range (leAt r 2 1)).map (fun j => leAt (miTran b (leAt r 0 2 + j)) 2 1)).sum

/-- The points that a machine image writes (R249). -/
def machineDsts (p : Pkg) (b : List Byte) : List Key :=
  (List.range (miActs b)).filterMap (fun i =>
    let a := miAct b i
    if 1 ≤ leAt a 0 1 && leAt a 0 1 ≤ 5 then some (ownKey (handleKey (hAt p a 4))) else none)

/-- The operands of one term or action, as handles (R251). -/
def termHandles (p : Pkg) (b : List Byte) : List Handle :=
  match leAt b 0 1 with
  | 0x06 | 0x07 => [hAt p b 4, hAt p b 8]
  | 0x0B | 0x0C | 0x0E => []
  | _ => [hAt p b 4]
def actHandles (p : Pkg) (b : List Byte) : List Handle :=
  match leAt b 0 1 with
  | 0x02 | 0x03 | 0x05 => [hAt p b 8]
  | 0x04 => [hAt p b 8, hAt p b 12]
  | _ => []

/-- Every input of a machine image (R251). -/
def machineInputs (p : Pkg) (b : List Byte) : List Handle :=
  ((List.range (miTerms b)).flatMap (fun i => termHandles p (miTerm b i))
    ++ (List.range (miActs b)).flatMap (fun i => actHandles p (miAct b i))).eraseDups

/-- The curve and grid indices that the actions of an image use (R236). -/
def machineCurves (b : List Byte) : List Nat :=
  (List.range (miActs b)).filterMap (fun i =>
    let a := miAct b i
    if leAt a 0 1 == 3 || leAt a 0 1 == 4 then some (leAt a 2 2) else none)

/-- Sections of a calendar (R261). -/
def caProf (b : List Byte) (i : Nat) : List Byte := slice b (24 + 68 * i) 68
def caExc (b : List Byte) (i : Nat) : List Byte := slice b (24 + 68 * leAt b 1 1 + 4 * i) 4
def caHol (b : List Byte) (i : Nat) : List Byte := slice b (24 + 68 * leAt b 1 1 + 4 * leAt b 2 1 + 8 * i) 8
def caOut (p : Pkg) (b : List Byte) : Handle := hAt p b 4

/-- A valid calendar, but for the ownership of its output (R261). -/
def calendarValid (p : Pkg) (t : Nat) (b : List Byte) : Bool :=
  let np := leAt b 1 1
  let ne := leAt b 2 1
  let nh := leAt b 3 1
  let out := caOut p b
  leAt b 0 1 == 4 && 1 ≤ np && np ≤ 16 && ne ≤ 64 && nh ≤ 16 && b.length == 24 + 68 * np + 4 * ne + 8 * nh
    && handleError p out == none && handleClass out == 0x7 && handleTile out == ownNo p t
    && (List.range 7).all (fun i => leAt b (12 + i) 1 < np) && zeroAt b 19 5
    && (List.range np).all (fun i =>
        let r := caProf b i
        let n := leAt r 0 1
        let minute (k : Nat) : Nat := leAt r (4 + 8 * k) 2
        1 ≤ n && n ≤ 8 && zeroAt r 1 3
          && (List.range n).all (fun k => minute k ≤ 1439 && zeroAt r (6 + 8 * k) 2)
          && (List.range (n - 1)).all (fun k => minute k < minute (k + 1))
          && zeroAt r (4 + 8 * n) (64 - 8 * n))
    && (List.range ne).all (fun i => leAt (caExc b i) 2 1 < np && zeroAt (caExc b i) 3 1)
    && (List.range nh).all (fun i =>
        let r := caHol b i
        leAt r 0 2 ≤ leAt r 2 2 && leAt r 4 1 < np && zeroAt r 5 3)

/-- The day profile of day `d` (R262). -/
def profileFor (b : List Byte) (d : Nat) : Nat :=
  match (List.range (leAt b 2 1)).find? (fun i => leAt (caExc b i) 0 2 == d) with
  | some i => leAt (caExc b i) 2 1
  | none =>
    match (List.range (leAt b 3 1)).find? (fun i => leAt (caHol b i) 0 2 ≤ d && d ≤ leAt (caHol b i) 2 2) with
    | some i => leAt (caHol b i) 4 1
    | none => leAt b (12 + (d + 5) % 7) 1

/-- The value of a calendar at a clock reading (R262). -/
def calendarValue (b : List Byte) (secs : Nat) : Word :=
  let d := secs / 86400
  let m := secs % 86400 / 60
  let p := caProf b (profileFor b (d % 65536))
  let sw := (List.range (leAt p 0 1)).filter (fun i => leAt p (4 + 8 * i) 2 ≤ m)
  match sw.getLast? with
  | some k => w32 (leAt p (8 + 8 * k) 4)
  | none =>
    let q := caProf b (profileFor b ((d + 65535) % 65536))
    w32 (leAt q (8 + 8 * (leAt q 0 1 - 1)) 4)

/-- Registers of a type (R433). -/
def regCount (ty : Nat) : Nat := if ty ≤ 1 || ty == 8 then 1 else 2

/-- The type takes this decimal scale (R433). -/
def scaleOk (ty sc : Nat) : Bool := -4 ≤ sgn 8 sc && sgn 8 sc ≤ 4 && ((ty != 4 && ty != 7) || sc == 0)

/-- Entries of a register map (R434). -/
def mpCount (b : List Byte) : Nat := leAt b 2 2
def mpEntry (b : List Byte) (i : Nat) : List Byte := slice b (16 + 8 * i) 8
def meReg (e : List Byte) : Nat := leAt e 0 2
def meType (e : List Byte) : Nat := leAt e 2 1 % 16
def meHolding (e : List Byte) : Bool := (leAt e 2 1).testBit 4
def meWrite (e : List Byte) : Bool := (leAt e 2 1).testBit 5
def meRaw (e : List Byte) : Bool := (leAt e 2 1).testBit 6
def meScale (e : List Byte) : Nat := leAt e 3 1

/-- A handle of a table names a point of the package that holds the table (R434, R438). -/
def nearPoint (p : Pkg) (e : List Byte) (off : Nat) : Bool := leAt e off 4 / 1048576 < 8 && operandOk p e off

/-- A valid register map, but for the ownership of its points (R434). -/
def mapValid (p : Pkg) (b : List Byte) : Bool :=
  let n := mpCount b
  let es := (List.range n).map (mpEntry b)
  leAt b 0 1 == 0x20 && zeroAt b 1 1 && 1 ≤ n && n ≤ 4096 && zeroAt b 4 12 && b.length == 16 + 8 * n
    && es.all (fun e => meType e ≤ 8 && !(leAt e 2 1).testBit 7 && scaleOk (meType e) (meScale e)
        && (!meWrite e || (meHolding e && meType e != 8)) && nearPoint p e 4
        && meReg e + regCount (meType e) ≤ 65536
        && (!meWrite e || [0x7, 0xC].contains (handleClass (hAt p e 4))))
    && (es.zip (es.drop 1)).all (fun q =>
        let k (e : List Byte) : Nat := b2n (meHolding e) * 65536 + meReg e
        k q.1 + regCount (meType q.1) ≤ k q.2)
    && es.foldl (fun a e => a + regCount (meType e)) 0 ≤ 4096

/-- The points that a register map owns: its WRITE handles (R434). -/
def mapWrites (p : Pkg) (b : List Byte) : List Handle :=
  (List.range (mpCount b)).filterMap (fun i => if meWrite (mpEntry b i) then some (hAt p (mpEntry b i) 4) else none)

/-- Items of a polling list (R438). -/
def plCount (b : List Byte) : Nat := leAt b 2 2
def plItem (b : List Byte) (i : Nat) : List Byte := slice b (16 + 32 * i) 32
def piServer (e : List Byte) : Nat := leAt e 0 1
def piFunc (e : List Byte) : Nat := leAt e 1 1
def piReg (e : List Byte) : Nat := leAt e 2 2
def piType (e : List Byte) : Nat := leAt e 4 1 % 16
def piScale (e : List Byte) : Nat := leAt e 5 1
def piRaw (e : List Byte) : Bool := (leAt e 6 1).testBit 0
def piOnChange (e : List Byte) : Bool := (leAt e 6 1).testBit 1
def piPeriod (e : List Byte) : Nat := leAt e 8 4
def piWrites (e : List Byte) : Bool := piFunc e == 0x06 || piFunc e == 0x10
def piSource (p : Pkg) (e : List Byte) : Handle := hAt p e 12

/-- A polling item (R438). -/
def itemOk (p : Pkg) (e : List Byte) : Bool :=
  piServer e == 0 ||
    (piServer e ≤ 247 && [0x03, 0x04, 0x06, 0x10].contains (piFunc e) && piType e ≤ 7 && leAt e 4 1 < 16
      && (piFunc e != 0x06 || regCount (piType e) == 1) && scaleOk (piType e) (piScale e)
      && leAt e 6 1 < 4 && zeroAt e 7 1 && 100 ≤ piPeriod e && piPeriod e ≤ 86400000
      && (if piWrites e then nearPoint p e 12 else leAt e 12 4 == 0x00FFFFFF) && zeroAt e 16 16)

/-- A valid polling list (R438). -/
def listValid (p : Pkg) (b : List Byte) : Bool :=
  let n := plCount b
  leAt b 0 1 == 0x21 && zeroAt b 1 1 && 1 ≤ n && n ≤ 512 && zeroAt b 4 12 && b.length == 16 + 32 * n
    && (List.range n).all (fun i => itemOk p (plItem b i))

/-- A valid waveform (R483). -/
def waveValid (b : List Byte) : Bool :=
  let n := leAt b 1 1
  leAt b 0 1 == 0x22 && 1 ≤ n && n ≤ 64 && leAt b 2 1 < 2 && zeroAt b 3 5 && b.length == 8 + 4 * n
    && (List.range n).all (fun i =>
        let on := leAt b (8 + 4 * i) 1
        let off := leAt b (9 + 4 * i) 1
        let top := leAt b (10 + 4 * i) 1
        on ≤ 3 && off ≤ 3 && top ≤ 3 && zeroAt b (11 + 4 * i) 1 && (top != 3 || (on == 3 && off == 3)))

/-- Predicates and terms of a permit table (R264). -/
def pmPreds (b : List Byte) : Nat := leAt b 1 1
def pmTerms (b : List Byte) : Nat := leAt b 4 2
def pmPred (b : List Byte) (i : Nat) : List Byte := slice b (8 + 4 * i) 4
def pmTerm (b : List Byte) (i : Nat) : List Byte := slice b (8 + 4 * pmPreds b + 16 * i) 16

/-- A valid permit predicate table, but for the permits that use it (R264). -/
def permitTableValid (p : Pkg) (b : List Byte) : Bool :=
  leAt b 0 1 == 0x30 && 1 ≤ pmPreds b && pmPreds b ≤ 16 && zeroAt b 2 2 && 1 ≤ pmTerms b && pmTerms b ≤ 128
    && zeroAt b 6 2 && b.length == 8 + 4 * pmPreds b + 16 * pmTerms b
    && (List.range (pmPreds b)).all (fun i =>
        let r := pmPred b i
        1 ≤ leAt r 2 1 && leAt r 2 1 ≤ 8 && zeroAt r 3 1 && spanOk (leAt r 0 2) (leAt r 2 1) (pmTerms b))
    && (List.range (pmTerms b)).all (fun i => termOk p true (pmTerm b i))

/-- A seal that the image of the tile accepts (R266). -/
def sealValid (tl : Tile) (b : List Byte) : Bool :=
  b.length == 8 && leAt b 0 1 == 0x31 && zeroAt b 1 3 && zeroAt b 6 2 && leAt b 4 2 == tl.images.print.epoch.toNat

/-- The classes that slot inputs and scheduling points may name (R202). -/
def inputClass (c : Nat) : Bool := [0x2, 0x4, 0xC, 0x8, 0x9, 0x7, 0xB].contains c

/-- A handle that R202 allows as an input. -/
def inputOk (p : Pkg) (h : Handle) : Bool := handleError p h == none && inputClass (handleClass h)

/-- A valid region table for one law (R219). -/
def regionValidFor (p : Pkg) (law : Nat) (b : List Byte) : Bool :=
  regionForm b && inputOk p (tableHandle p (rtSched b)) && (List.range (rtCount b)).all (fun r => lawParamsOk law (rtParams b r))

/-- The laws of the slots that name curve `idx`, in force or pending (R219). -/
def regionLaws (tl : Tile) (idx : Nat) : List Nat :=
  tl.slots.flatMap (fun q =>
    let ds := q.2.desc :: (match q.2.pend with | some x => [x.desc] | none => [])
    ds.filterMap (fun d => if dLaw d != 0 && dGain d == idx then some (dLaw d) else none))

/-- A table of kind 1 is valid (R219, R240, R241). -/
def curveTableValid (p : Pkg) (t idx : Nat) (b : List Byte) : Bool :=
  match leAt b 0 1 with
  | 0x02 => curveValid b
  | 0x03 => gridValid b
  | 0x10 => regionForm b && inputOk p (tableHandle p (rtSched b)) && (regionLaws (p.tile t) idx).all (fun l => regionValidFor p l b)
  | _ => false

/-- An enabled permit uses a predicate that the table does not define (R264). -/
def permitsLoseTheir (p : Pkg) (b : List Byte) : Bool :=
  p.sh.permits.permits.any (fun q => q.2.enabled && pmPreds b ≤ q.2.pred.toNat)

/-- The table breaks no rule of its format, ownership apart (R235). -/
def tableValid (p : Pkg) (t kind idx : Nat) (b : List Byte) : Bool :=
  match kind with
  | 0 => machineValid p t b
  | 1 => curveTableValid p t idx b
  | 2 => calendarValid p t b
  | _ =>
    if idx ≤ 1 then mapValid p b
    else if idx ≤ 3 then listValid p b
    else if idx == 32 then permitTableValid p b && !permitsLoseTheir p b
    else if idx == 48 then sealValid (p.tile t) b
    else waveValid b

/-- The points that a table would own, by tile (R31, R249, R434, R439), and who claims them. -/
def tableClaims (p : Pkg) (t kind idx : Nat) (b : List Byte) : Claimer × List (Nat × Key) :=
  match kind with
  | 0 => (.machine idx, (machineDsts p b).eraseDups.map (fun k => (t, k)))
  | 1 => (.map 1024, [])
  | 2 => (.calendar idx, [(t, handleKey (caOut p b))])
  | _ =>
    if idx ≤ 1 then (.map idx, (mapWrites p b).filterMap (fun h => (localOf p (handleTile h)).map (fun u => (u, handleKey h))))
    else if idx ≤ 3 then
      (.map idx, (List.range (plCount b)).filterMap (fun i =>
        if piServer (plItem b i) == 0 then none else some (p.lead, key 0xB ((idx - 2) * 512 + i))))
    else (.map idx, [])

end Sys2Proof.Machine
end

