-- ==== Sys2Proof/Machine/SlotOps.lean ====
section
/-!
DEFINITION. Loop slots: descriptor checks, the loading rule, pending changes, evaluation and commit (R59, R67, R196 to R229,
R534).
-/

namespace Sys2Proof.Machine

/-- Reserved fields of a slot descriptor (R199). -/
def descReservedOk (d : BitVec 512) : Bool := !bit d 11 && bits d 31 21 == 0 && bits d 351 336 == 0

/-- The group of a descriptor that makes its slot assigned (R196). -/
def descGroup (d : BitVec 512) : Option Nat := if dLaw d != 0 && dMode d != 3 then some (dGroup d) else none

/-- Destinations of a descriptor, as keys of its own tile (R203). -/
def descDsts (d : BitVec 512) : List Key :=
  if dLaw d == 0 then [] else (([dDst d, dDst2 d].filter (· != noHandle)).map handleKey).eraseDups

/-- A handle present, absent or free to be either, as the law asks (R200). -/
def inputForm (law i : Nat) (h : Handle) : Bool :=
  match (lawInputs law).getD i 1 with
  | 2 => h != noHandle
  | 0 => h == noHandle
  | _ => true

/-- The parameters P0 to P4 of a descriptor, with zeros for the others. -/
def descParams (d : BitVec 512) : List Int := (List.range 5).map (fun i => (dP d i).toInt)

/-- Why LOOP_WRITE refuses a descriptor for slot `n` (R198, R201, R203). -/
def descError (p : Pkg) (t n : Nat) (d : BitVec 512) : Option Byte :=
  let tl := p.tile t
  let law := dLaw d
  let ins := [dIn d 0, dIn d 1, dIn d 2, dIn d 3]
  let dstOk (h : Handle) : Bool := h == noHandle ||
    (writeTarget p t false h && !(handleClass h == 4 && handleIdx h / 8 == n)
      && !claimedByOther tl (handleKey h) (.slot n))
  if !descReservedOk d then some stBadParam
  else if law == 0 then none
  else
    let ok := law ≤ 8 && dBadAction d ≤ 1
      && (List.range 3).all (fun i => inputForm law i (dIn d i))
      && (law != 7 || 2 ≤ (ins.filter (· != noHandle)).length)
      && (law == 8 || dDst2 d == noHandle)
      && ins.all (fun h => h == noHandle || inputOk p h)
      && dstOk (dDst d) && dstOk (dDst2 d)
      && dOutLo d ≤ dOutHi d
      && (if dGain d == 0xFFFF then law != 4 && lawParamsOk law (descParams d)
          else (descParams d).all (· == 0) && regionValidFor p law (tl.table 1 (dGain d)))
      && !(dMode d == 2 && (dIn d 3 == noHandle || law == 7))
    if ok then none else some stBadParam

/-- The group and period that count for the loading rule (R67): in force while enabled, and pending where that enables,
the shorter of the two. `alt` stands for the pending configuration of a group. -/
def loadN (tl : Tile) (alt : Option (Nat × Bool × Nat)) (g : Nat) : Option Nat :=
  let gr := tl.group g
  let pend : Option Nat := match alt with
    | some (h, en, n) => if h == g then (if en then some n else none)
        else (match gr.pend with | some q => if q.enable then some q.n.toNat else none | none => none)
    | none => match gr.pend with | some q => if q.enable then some q.n.toNat else none | none => none
  match gr.enabled, pend with
  | true, some n => some (Nat.min gr.n.toNat n)
  | true, none => some gr.n.toNat
  | false, o => o

/-- The pending descriptor of a slot, with a proposed one in its place. -/
def pendDesc (tl : Tile) (alt : Option (Nat × BitVec 512)) (n : Nat) : Option (BitVec 512) :=
  match alt with
  | some (m, d) => if m == n then some d else (tl.slot n).pend.map (·.desc)
  | none => (tl.slot n).pend.map (·.desc)

/-- Slots that count for group `g` (R67): assigned in force, or added by a pending change. -/
def loadSlots (tl : Tile) (alt : Option (Nat × BitVec 512)) (g : Nat) : Nat :=
  let ns := (tl.slots.map (·.1) ++ (match alt with | some (m, _) => [m] | none => [])).eraseDups
  (ns.filter (fun n =>
    let now := descGroup (tl.slot n).desc
    now == some g || (match pendDesc tl alt n with | some d => descGroup d == some g | none => false))).length

/-- The loading rule (R67): at most 1,280,000 evaluations a second, that is Σ slots ÷ N ≤ 40. -/
def loadOk (tl : Tile) (altG : Option (Nat × Bool × Nat)) (altS : Option (Nat × BitVec 512)) : Bool :=
  let parts := (List.range 8).filterMap (fun g => (loadN tl altG g).map (fun n => (loadSlots tl altS g, n)))
  let all := parts.foldl (fun a q => a * q.2) 1
  parts.foldl (fun a q => a + q.1 * (all / q.2)) 0 ≤ 40 * all

/-- The periods of the enabled groups stand in group order, with a proposed one for group `g` (R59): the latest one of each, and
the period in force of a group that still waits to be disabled. -/
def orderOk (tl : Tile) (g n : Nat) : Bool :=
  let latest (h : Nat) : Option Nat :=
    if h == g then some n
    else
      let gr := tl.group h
      let now := if gr.enabled then some gr.n.toNat else none
      match gr.pend with
      | some q => if q.enable then some q.n.toNat else now
      | none => now
  let l := (List.range 8).filterMap latest
  (l.zip (l.drop 1)).all (fun q => q.1 ≤ q.2)

/-- LPI item keys. -/
def lpiKey (n i : Nat) : Key := key 4 (8 * n + i)

/-- The previous output of a slot in its next evaluation (R208): at a fresh start that of item 3 within the limits. -/
def prevLaw (tl : Tile) (n : Nat) : LawSt :=
  let s := tl.slot n
  if s.fresh then
    { s.law with uPrev := clampInt (dOutLo s.desc) (dOutHi s.desc) (tl.points.getD (lpiKey n 3) {}).value.toInt }
  else s.law

/-- A descriptor takes effect on slot `n` (R198, R204, R207, R208, R222): a new law or leaving off makes its next evaluation a
fresh start that keeps the last usable inputs, and a LOOP_WRITE of the same law a reseed. A LOOP_WRITE of LAW 0 deconfigures the
slot, which keeps its sticky flags (R223) and an evaluation that still runs. A LOOP_MODE of an unconfigured slot writes its MODE
and MAN_OUT alone (R216). -/
def applyDesc (t n : Nat) (d : BitVec 512) (write : Bool) (p : Pkg) : Pkg :=
  let s := (p.tile t).slot n
  let p1 := onTile t (setClaims (.slot n) (descDsts d)) p
  if write && dLaw d == 0 then
    onTile t (Tile.onSlot n (fun _ => { Slot.reset with flags := s.flags, late := s.late })) p1
  else
    let same := dLaw d == dLaw s.desc
    let s1 : Slot := { s with desc := d }
    let s2 : Slot :=
      if !same then { s1 with law := {}, fresh := true, reseed := s.reseed && dGain d == dGain s.desc && dGain d != 0xFFFF }
      else { s1 with fresh := s.fresh || (dMode s.desc == 3 && dMode d != 3), reseed := s.reseed || write }
    onTile t (Tile.onSlot n (fun _ => s2)) p1

/-- OK for the commands that waited with a slot change (R122). -/
def slotDone (t : Nat) (q : PendSlot) (st : Byte) (p : Pkg) : Pkg :=
  let p1 := match q.write with
    | some c => finish c 0x30 st t p
    | none => p
  match q.mode with
  | some c =>
    match c.src with
    | .machine u m => noteMachine u m st p1
    | _ => finish c 0x32 st t p1
  | none => p1

/-- A descriptor with a mode of LOOP_MODE: mode 0 also writes MAN_OUT (R216). -/
def withMode (d : BitVec 512) (mode : Nat) (man : Word) : BitVec 512 :=
  let d1 := setBits d 13 12 mode
  if mode == 0 then setBits d1 319 288 man.toNat else d1

/-- What is left of a pending change of a slot with the descriptor `d` in force, when its LOOP_WRITE or its LOOP_MODE is denied at
the commit instant (R472). -/
def PendSlot.allowed (d : BitVec 512) (noWrite noMode : Bool) (q : PendSlot) : Option PendSlot :=
  if !noWrite && !noMode then some q
  else if noWrite && noMode then none
  else if noWrite then q.mode.map (fun c => { desc := withMode d (dMode q.desc) (dMan q.desc), write := none, mode := some c })
  else q.write.map (fun c => { desc := q.asWritten, write := some c, mode := none })

/-- The commit check of a pending change of slot `n` (R472). -/
def recheckSlot (t n : Nat) (p : Pkg) : Pkg :=
  let s := (p.tile t).slot n
  match s.pend with
  | none => p
  | some q =>
    let noWrite := q.write.any (deniedNow p t 0x30)
    let noMode := q.mode.any (deniedNow p t 0x32)
    if !noWrite && !noMode then p
    else
      let p1 := onTile t (fun x => Tile.onSlot n (fun y => { y with pend := q.allowed s.desc noWrite noMode })
        (if noWrite then dropPending (.slot n) x else x)) p
      let p2 := if noWrite then q.write.toList.foldl (fun a c => denyCommit t 0x30 c a) p1 else p1
      if noMode then q.mode.toList.foldl (fun a c => denyCommit t 0x32 c a) p2 else p2

/-- The pending change of slot `n` takes effect (R207, R216, R472, R534). -/
def applySlot (t n : Nat) (p0 : Pkg) : Pkg :=
  let p := recheckSlot t n p0
  let s := (p.tile t).slot n
  match s.pend with
  | none => p
  | some q =>
    let oldG := (p.tile t).group (dGroup s.desc)
    let newG := (p.tile t).group (dGroup q.desc)
    let moves := oldG.enabled && dGroup s.desc != dGroup q.desc && (descGroup q.desc).isSome && newG.enabled
      && (descGroup s.desc).isSome
    let p1 := applyDesc t n q.desc q.write.isSome p
    if moves then onTile t (Tile.onSlot n (fun x => { x with pend := none, moved := some (q, p.now) })) p1
    else
      slotDone t q stOk (onTile t (Tile.onSlot n (fun x =>
        { x with pend := none, fresh := x.fresh || (!oldG.enabled && newG.enabled && (descGroup q.desc).isSome) })) p1)

/-- The change adds its slot to a group (R71, R198). -/
def addsSlot (tl : Tile) (n : Nat) (d : BitVec 512) : Bool :=
  (descGroup d).isSome && descGroup d != descGroup (tl.slot n).desc

/-- A pending change of a slot waits for VCORE (R71, R534). -/
def slotWaits (p : Pkg) (t n : Nat) (d : BitVec 512) : Bool :=
  let tl := p.tile t
  let s := tl.slot n
  addsSlot tl n d && !coreSettled p t
    && ((tl.group (dGroup d)).enabled || (tl.group (dGroup s.desc)).enabled)

/-- A checked change of slot `n` joins the slot (R122, R534): it takes effect at the next boundary, or at once where the
slot's group in force is not enabled. -/
def queueSlot (t n : Nat) (q : PendSlot) (acc : Option (Ctx × Byte)) (p : Pkg) : Pkg :=
  let tl := p.tile t
  let s := tl.slot n
  let p0 := if addsSlot tl n q.desc then preChange t p else p
  let who : Claimer := .slot n
  let p1 := onTile t (fun x =>
    let y := dropPending who x
    addClaims who true ((descDsts q.desc).filter (fun k => !y.claims.any (fun c => c.key == ownKey k && c.who == who)))
      (Tile.onSlot n (fun z => { z with pend := some q }) y)) p0
  if !(tl.group (dGroup s.desc)).enabled && !slotWaits p1 t n q.desc then applySlot t n p1
  else match acc with
    | some (c, op) => accept c op t p1
    | none => p1

/-- The pending commands of a slot complete SUPERSEDED (R122). A change that has moved its slot is in force, and posts OK at the
new group's boundary whatever comes after it (R207). -/
def supersedeSlot (t n : Nat) (p : Pkg) : Pkg :=
  match ((p.tile t).slot n).pend with
  | none => p
  | some q =>
    slotDone t q stSuperseded (onTile t (fun x => Tile.onSlot n (fun y => { y with pend := none }) (dropPending (.slot n) x)) p)

/-- A LOOP_WRITE reaches its slot (R122, R198, R201). -/
def loopWrite (t n : Nat) (d : BitVec 512) (c : Ctx) (p : Pkg) : Pkg :=
  match descError p t n d with
  | some st => finish c 0x30 st t p
  | none =>
    if addsSlot (p.tile t) n d && !loadOk (p.tile t) none (some (n, d)) then finish c 0x30 stCapacity t p
    else queueSlot t n { desc := d, write := some c, mode := none } (some (c, 0x30)) (supersedeSlot t n p)

/-- The completion of a LOOP_MODE, or of a machine's LOOP_MODE action. -/
def modeDone (t : Nat) (c : Ctx) (st : Byte) (p : Pkg) : Pkg :=
  match c.src with
  | .machine u m => noteMachine u m st p
  | _ => finish c 0x32 st t p

/-- A LOOP_MODE reaches its slot (R122, R216). -/
def loopMode (t n mode : Nat) (man : Word) (c : Ctx) (p : Pkg) : Pkg :=
  let tl := p.tile t
  let s := tl.slot n
  let afterWrite := match s.pend with | some q => q.write.isSome | none => false
  let base := match s.pend with | some q => if q.write.isSome then q.asWritten else s.desc | none => s.desc
  let d := withMode base mode man
  let acc : Option (Ctx × Byte) := match c.src with | .machine _ _ => none | _ => some (c, 0x32)
  if mode == 2 && (dIn base 3 == noHandle || dLaw base == 7) then modeDone t c stBadParam p
  else if afterWrite && (descError p t n d).isSome then modeDone t c stBadParam p
  else if addsSlot tl n d && !loadOk tl none (some (n, d)) then modeDone t c stCapacity p
  else match s.pend with
    | some q =>
      if afterWrite then
        let p1 := match q.mode with
          | some c0 => modeDone t c0 stSuperseded p
          | none => p
        queueSlot t n { q with desc := d, mode := some c } acc p1
      else queueSlot t n { desc := d, write := none, mode := some c } acc (supersedeSlot t n p)
    | none => queueSlot t n { desc := d, write := none, mode := some c } acc (supersedeSlot t n p)

/-- The region table that slot `n` uses: the old copy until the slot has switched (R236). -/
def slotTable (tl : Tile) (n idx : Nat) : List Byte :=
  match tl.tables.commits.find? (fun c => c.kind == 1 && c.idx == idx && c.written && c.waiting.contains (.slot n)) with
  | some c => c.old
  | none => tl.table 1 idx

/-- The value of a latched record as an input (R202, R204): its Q16.16 value, none when it is a NaN or unusable. -/
def inputValue (d : BitVec 512) (h : Handle) (r : Rec) : Option Int :=
  let v := if handleClass h == 8 || handleClass h == 9 then f32ToQ r.value else some r.value.toInt
  if usable r.q (bit d 16) (bit d 17) then v else none

/-- The value that an LPI item shows of inputs B and C: as latched, and for a NaN the last usable one. Item 0 always shows the
last usable one where the latched one is not. -/
def shownValue (h : Handle) (l : Latch) (last : Int) : Int :=
  match l with
  | some r => (if handleClass h == 8 || handleClass h == 9 then (f32ToQ r.value).getD last else r.value.toInt)
  | none => 0

/-- STATUS, item 4 (R225). -/
def slotStatus (d : BitVec 512) (flags : BitVec 7) (badHeld on : Bool) : Word :=
  w32 (flags.toNat * 65536 + dMode d * 16777216 + b2n badHeld * 67108864 + b2n on * 134217728)

/-- Flag bits of a slot from its conditions (R223). -/
def slotFlags (r : LawRes) (inputBad region : Bool) : BitVec 7 :=
  BitVec.ofNat 7 (b2n r.hi + 2 * b2n r.lo + 4 * b2n r.int_ + 8 * b2n r.sat + 32 * b2n inputBad + 64 * b2n region)

/-- view32 of R209. -/
def view32 (x : Int) : Word := wordOf (sat32 x)

/-- Items 6 and 7 after an evaluation (R225). -/
def items67 (law : Nat) (before st : LawSt) (r : LawRes) : Word × Word :=
  match law with
  | 1 => (view32 st.integ, view32 st.e)
  | 2 => (view32 before.uPrev, view32 st.e)
  | 3 => (view32 before.uPrev, 0)
  | 4 => (view32 st.x1, view32 st.x2)
  | 5 => (w32 (Nat.min st.n 32767 * 65536), view32 st.e)
  | 6 => (view32 before.uPrev, view32 st.e)
  | 7 => (0, 0)
  | _ => (wordOf r.out2, 0)

/-- One evaluation of a slot (R204, R205, R214 to R222). With a region table that is not valid the law falls back, and its
tracking path runs in the record of the present region, or with free parameters where no record is left (R214, R219). -/
def evalSlot (tl : Tile) (n : Nat) (rel : Handle → Handle) : EvalOut :=
  let s := tl.slot n
  let d := s.desc
  let law := dLaw d
  let pick (i : Nat) (l : Latch) : Option Int :=
    match l with
    | some r => if dIn d i == noHandle then none else inputValue d (dIn d i) r
    | none => none
  let va := pick 0 s.inA
  let vb := pick 1 s.inB
  let vc := pick 2 s.inC
  let vd := pick 3 s.inD
  let last : LastIn := { a := va.getD s.last.a, b := vb.getD s.last.b, c := vc.getD s.last.c, d := vd.getD s.last.d }
  let missing (i : Nat) (v : Option Int) : Bool := dIn d i != noHandle && v.isNone
  let bad := missing 0 va || missing 1 vb || missing 2 vc || missing 3 vd
  let need (i : Nat) (v : Option Int) : Bool := (lawInputs law).getD i 0 == 2 && v.isNone
  let fall0 := if law == 7 then va.isNone && vb.isNone && vc.isNone && vd.isNone else need 0 va || need 1 vb
  let rt := slotTable tl n (dGain d)
  let table := dGain d != 0xFFFF
  let law0 := prevLaw tl n
  let rtOk := !table || (regionForm rt && (List.range (rtCount rt)).all (fun r => lawParamsOk law (rtParams rt r)))
  let sv : Option Int := match s.sched with
    | some r => if table && rtOk then inputValue d (rel (rtSched rt)) r else none
    | none => none
  let region := if table && rtOk then
      (match sv with
       | some x => if s.fresh then regionOf rt x else nextRegion rt s.law.region x
       | none => Nat.min s.law.region (rtCount rt - 1))
    else s.law.region
  let changed := table && rtOk && !s.fresh && region != s.law.region
  let schedBad := table && rtOk && sv.isNone
  let reseed := s.reseed || changed
  let fall := fall0 || (table && !rtOk)
  let held := fall && dMode d == 1
  let (force, forced) : Bool × Option Int := match dMode d with
    | 0 => (true, some (dMan d).toInt)
    | 2 => (true, vd)
    | _ => if fall then (true, if dBadAction d == 1 then some (dMan d).toInt else none) else (false, none)
  let ps : List Int := if !table then descParams d
    else if regionForm rt then rtParams rt (Nat.min region (rtCount rt - 1))
    else (List.range 9).map (fun i => (Config.lostParam n rt i).toInt)
  let x : LawIn := { law := law, p := ps, lo := dOutLo d, hi := dOutHi d
                     rev := bit d 19, dOnPv := bit d 18, selMax := bit d 20
                     a := last.a, b := last.b, c := if dIn d 2 == noHandle then 0 else last.c, d := last.d
                     hasB := dIn d 1 != noHandle, ok := [va.isSome, vb.isSome, vc.isSome, vd.isSome]
                     force := force, forced := forced, fresh := s.fresh, reseed := reseed }
  let r := runLaw x law0
  let (i6, i7) := items67 law law0 r.st r
  { law := { r.st with region := region }, last := last, out := wordOf r.out, out2 := wordOf r.out2
    flags := slotFlags r (bad || schedBad || (table && !rtOk)) (changed || s.reseed), badHeld := held
    item6 := i6, item7 := i7 }

/-- The commit of an evaluated slot (R205 step 2, R225, R229): destinations, items, state and flags. The result says which
flags went from 0 to 1. -/
def commitSlot (t n : Nat) (p : Pkg) : Pkg × BitVec 7 :=
  let s := (p.tile t).slot n
  match s.result with
  | none => (p, 0)
  | some r =>
    let d := s.desc
    let new := r.flags &&& ~~~s.flags
    let flags := s.flags ||| r.flags
    let put (h : Handle) (v : Word) (q : Pkg) : Pkg :=
      if h == noHandle || ownerOf (q.tile t) (handleKey h) != some (.slot n) then q else ownerWrite t (handleKey h) v .good q
    let p1 := put (dDst2 d) r.out2 (put (dDst d) r.out p)
    let named (i : Nat) : Bool := dIn d i == mkHandle (ownNo p t) (lpiKey n i)
    let item (i : Nat) (v : Word) (q : Pkg) : Pkg := putNow t (lpiKey n i) v .good q
    let shown (i : Nat) (l : Latch) (last : Int) : Word := wordOf (shownValue (dIn d i) l last)
    let p2 := item 0 (if s.inA.isNone then 0 else wordOf r.last.a) p1
    let p3 := if named 1 then p2 else item 1 (shown 1 s.inB r.last.b) p2
    let p4 := if named 2 then p3 else item 2 (shown 2 s.inC r.last.c) p3
    let reg := if dLaw d == 7 then r.law.sel else r.law.region
    let p5 := item 7 r.item7 (item 6 r.item6 (item 5 (w32 (reg * 65536))
      (item 4 (slotStatus d flags r.badHeld r.law.on) (item 3 r.out p4))))
    let p6 := onTile t (Tile.onSlot n (fun x => { x with
      law := r.law, last := r.last, flags := flags, badHeld := r.badHeld, result := none, due := false, fresh := false
      reseed := false, evaluatedOnce := true })) p5
    (fanDemand t n p6, new)

/-- A slot that was not evaluated by its deadline sets OVERRUN (R205 step 1). -/
def overrunSlot (n : Nat) (tl : Tile) : Tile :=
  tl.onSlot n (fun s => { s with flags := s.flags ||| 0b0010000#7, due := false, result := none })

/-- The slots of a tile at its offline mark (R228): pending changes are lost, and nothing is under way. -/
def stopSlots (tl : Tile) : Tile :=
  { tl with
    slots := tl.slots.mapVals (fun _ s => { s with pend := none, moved := none, due := false, result := none, late := false })
    groups := tl.groups.mapVals (fun _ g => { g with pend := none, working := false, awaited := [] })
    claims := tl.claims.filter (fun c => !(c.pending && (match c.who with | .slot _ => true | _ => false))) }

/-- The slots of a tile that is online again start fresh (R208, R228). -/
def resumeSlots (tl : Tile) : Tile :=
  tl.slots.foldl (fun a q => if dLaw q.2.desc == 0 then a else a.onSlot q.1 (fun s => { s with fresh := true })) tl

end Sys2Proof.Machine
end

