-- ==== Sys2Proof/Machine/TrackerOps.lean ====
section
/-!
DEFINITION. Angle trackers: configuration, synchronisation, tooth windows and scheduled firings (R314 to R324).
-/

namespace Sys2Proof.Machine

/-- Fields of a tracker configuration (R314). -/
def tcCh (r : BitVec 128) : Nat := bits r 4 0
def tcFalling (r : BitVec 128) : Bool := bit r 8
def tcEnable (r : BitVec 128) : Bool := bit r 9
def tcTeeth (r : BitVec 128) : Nat := bits r 31 16
def tcMissing (r : BitVec 128) : Bool := bits r 39 32 == 1
def tcWindow (r : BitVec 128) : Nat := if bits r 47 40 == 0 then 25 else bits r 47 40
def tcOffset (r : BitVec 128) : Nat := bits r 63 48

/-- A configuration record in range, with an input channel in digital input mode (R314). -/
def trackerCfgOk (tl : Tile) (r : BitVec 128) : Bool :=
  bits r 7 5 == 0 && bits r 15 10 == 0 && bits r 127 64 == 0
    && 1 ≤ tcTeeth r && tcTeeth r ≤ 360 && bits r 39 32 ≤ 1 && (!tcMissing r || 3 ≤ tcTeeth r)
    && (bits r 47 40 == 0 || (5 ≤ bits r 47 40 && bits r 47 40 ≤ 50))
    && tcOffset r ≤ 3599 && (tl.chan (tcCh r)).mode == 0x10

/-- A tracker of a tile changed by `f`. -/
def onTrk (t k : Nat) (f : Tracker → Tracker) (p : Pkg) : Pkg := onTile t (Tile.onTracker k f) p

/-- Teeth of a tracker changed by `f`. -/
def onTeeth (f : Teeth → Teeth) (x : Tracker) : Tracker := { x with teeth := f x.teeth }

/-- The ACT items of a tracker (R324). -/
def trackerItems (t k : Nat) (p : Pkg) : Pkg :=
  let x := (p.tile t).tracker k
  let locked := x.state == .tracking || x.state == .sync
  let speed : Int := if locked && x.teeth.period != 0 then
      divRound (1920000000 * 65536) (x.teeth.period * tcTeeth x.cfg) else 0
  let (sp, q) := q16Word speed p
  putItems t (16 + k) [w32 x.state.code, w32 x.teeth.period, sp, w32 x.teeth.pos, x.synthetic, x.rejected, x.suppressed,
    x.losses] q

/-- `n` more in a counter that saturates. -/
def addSat (n : Nat) (w : Word) : Word := w32 (satNat 32 (w.toNat + n))

/-- The tracker leaves SYNC or TRACKING for UNSYNC (R317, R320, R322): event 61 + k, pending firings cancelled and
counted, a pending schedule in force at once (R321). -/
def loseSync (t k : Nat) (p : Pkg) : Pkg :=
  raise t (61 + k) (onTrk t k (fun x => { x with
    state := .unsync, losses := incSat x.losses, suppressed := addSat x.firings.length x.suppressed, firings := []
    schedule := x.pendSchedule.getD x.schedule, pendSchedule := none
    teeth := { x.teeth with clean := 0, gapSeen := false, anomalies := 0, second := false } }) p)

/-- One scheduled firing is due (R309, R323): its profile starts, or it is suppressed and counted. -/
def fireAngle (t k : Nat) (f : Firing) (p : Pkg) : Pkg :=
  let tl := p.tile t
  let x := tl.engine f.engine
  match x.binding with
  | some b =>
    if (tl.tracker k).state == .sync && x.phase == .idle && canFire tl f.engine f.program.toNat b then
      startFire t f.engine f.program.toNat b (.angle k) p
    else onTrk t k (fun y => { y with suppressed := incSat y.suppressed }) p
  | none => onTrk t k (fun y => { y with suppressed := incSat y.suppressed }) p

/-- The pending firings that `f` selects start now, in order. -/
def fireDue (t k : Nat) (f : Firing → Bool) (p : Pkg) : Pkg :=
  let l := ((p.tile t).tracker k).firings
  forAll (l.filter f) (fireAngle t k) (onTrk t k (fun x => { x with firings := l.filter (fun y => !f y) }) p)

/-- Tooth positions from the last tooth to the next expected one (R319): two after the tooth before the gap. -/
def pitch (x : Tracker) : Nat :=
  if x.state == .sync && tcMissing x.cfg && x.teeth.pos + 2 == tcTeeth x.cfg then 2
  else if x.teeth.second then 2
  else 1

/-- The firings of a schedule that a tooth brings (R322). -/
def firingsOf (x : Tracker) (tk now : Nat) : List Firing :=
  let n := tcTeeth x.cfg
  let k := x.teeth.pos
  x.schedule.filterMap (fun en =>
    let r := ((bits en 15 0 + 3600 - tcOffset x.cfg) % 3600) * n
    if 3600 * k ≤ r && r < 3600 * (k + pitch x) then
      some { at_ := Nat.max now (tk + (r - 3600 * k) * x.teeth.period / 3600), engine := bits en 23 16
             program := BitVec.ofNat 8 (bits en 31 24) }
    else none)

/-- A tooth of a tracker in SYNC at `tk` (R321, R322): a pending schedule comes into force at tooth 0, and the entries up
to the next expected tooth are scheduled. One whose time is past fires at once. -/
def scheduleTooth (t k tk : Nat) (p : Pkg) : Pkg :=
  let x := (p.tile t).tracker k
  if x.state != .sync then p
  else
    let p1 := if x.teeth.pos == 0 then
        onTrk t k (fun y => { y with schedule := y.pendSchedule.getD y.schedule, pendSchedule := none }) p
      else p
    let new := firingsOf ((p1.tile t).tracker k) tk p1.now
    fireDue t k (fun f => f.at_ ≤ p1.now) (onTrk t k (fun y => { y with firings := y.firings ++ new }) p1)

/-- A tooth accepted or synthesised at `tk`: its firings (R322), and trigger source 0x60 or 0x61 (R172, R320). -/
def toothFirings (t k tk : Nat) (p : Pkg) : Pkg := trigger t (0x60 + k) (scheduleTooth t k tk p)

/-- The position after a tooth that lies `n` positions on. -/
def nextPos (x : Tracker) (n : Nat) : Nat :=
  if tcTeeth x.cfg == 0 then 0 else (x.teeth.pos + n) % tcTeeth x.cfg

/-- A real tooth at `at_`, `n` positions after the last tooth (R319, R320). Firings still pending start at once (R322). -/
def acceptTooth (t k n at_ : Nat) (p : Pkg) : Pkg :=
  let p1 := fireDue t k (fun _ => true) p
  let p2 := onTrk t k (fun x =>
    let found := x.teeth.second
    let pos := if found then 0 else if x.state == .tracking then 0 else nextPos x n
    { x with
      state := if found then .sync else x.state
      teeth := { x.teeth with period := (at_ - x.teeth.lastReal) / (x.teeth.sinceReal + n), lastReal := at_, last := at_
                              sinceReal := 0, pos := pos, second := false, anomalies := 0 } }) p1
  trackerItems t k (toothFirings t k at_ p2)

/-- One more anomaly (R320): the second in a row loses synchronisation. -/
def anomaly (t k : Nat) (p : Pkg) : Pkg :=
  let p1 := onTrk t k (onTeeth (fun h => { h with anomalies := h.anomalies + 1 })) p
  if ((p1.tile t).tracker k).teeth.anomalies ≥ 2 then trackerItems t k (loseSync t k p1) else p1

/-- A synthetic tooth at `at_`, `n` positions after the last tooth (R319, R320). -/
def synthTooth (t k n at_ : Nat) (p : Pkg) : Pkg :=
  let p1 := onTrk t k (fun x => { x with
    synthetic := incSat x.synthetic
    teeth := { x.teeth with last := at_, sinceReal := x.teeth.sinceReal + n, second := false
                            pos := if x.state == .tracking then 0 else nextPos x n } }) p
  anomaly t k (trackerItems t k (toothFirings t k at_ p1))

/-- Distance to the next expected tooth, and half the width of its window (R319). -/
def toothWindow (x : Tracker) : Nat × Nat :=
  let e := x.teeth.period * pitch x
  (e, tcWindow x.cfg * e / 100)

/-- The window of the next tooth closes empty (R320). -/
def emptyWindow (t k : Nat) (p : Pkg) : Pkg :=
  let x := (p.tile t).tracker k
  let (e, _) := toothWindow x
  if x.state == .sync then synthTooth t k (pitch x) (x.teeth.last + e) p
  else if x.teeth.second then synthTooth t k 2 (x.teeth.last + e) p
  else onTrk t k (onTeeth (fun h => { h with second := true })) p

/-- The tick at which the window of the next tooth closes. -/
def windowCloses (x : Tracker) : Nat := let (e, w) := toothWindow x; x.teeth.last + e + w

/-- An edge of a tracker in UNSYNC at `at_` (R318). `i` is the interval it closes, `j` the one before. -/
def acquire (t k at_ : Nat) (i j : Option Nat) (p : Pkg) : Pkg :=
  let x := (p.tile t).tracker k
  let win := tcWindow x.cfg
  let near (a b lim : Nat) : Bool := ((a : Int) - (b : Int)).natAbs * 100 ≤ win * lim
  let i1 := i.getD 0
  let (agrees, gap) := match i, j with
    | some a, some b =>
      if a > 67108864 then (false, false)
      else if near a b b then (true, false)
      else if tcMissing x.cfg && near a (2 * b) (2 * b) then (true, true)
      else if tcMissing x.cfg && near (2 * a) b b then (true, false)
      else (false, false)
    | _, _ => (false, false)
  let h := x.teeth
  let pos := if gap then 0 else (h.pos + 1) % Nat.max 1 (tcTeeth x.cfg)
  let h1 : Teeth := if agrees then { h with clean := h.clean + 1, gapSeen := h.gapSeen || gap, pos := pos }
    else { h with clean := 0, gapSeen := false, pos := 0 }
  if h1.clean < 4 then onTrk t k (onTeeth (fun _ => h1)) p
  else
    let st : TrackState := if tcMissing x.cfg && !h1.gapSeen then .tracking else .sync
    let h2 : Teeth := { h1 with pos := if !tcMissing x.cfg || st == .tracking then 0 else pos
                                period := if gap then i1 / 2 else i1, lastReal := at_, last := at_, sinceReal := 0
                                second := false, anomalies := 0 }
    let p1 := onTrk t k (fun y => { y with state := st, teeth := h2 }) p
    trackerItems t k (toothFirings t k at_ p1)

/-- An edge is rejected (R316, R320). -/
def rejectEdge (t k : Nat) (p : Pkg) : Pkg := onTrk t k (fun y => { y with rejected := incSat y.rejected }) p

/-- An edge of a tracker in SYNC or TRACKING (R320). A window that has closed empty before it is treated first. One that comes
`early` after the previous edge is rejected wherever it lies (R316). -/
def followEdge (early : Bool) : Nat → Nat → Nat → Nat → Pkg → Pkg
  | 0, _, _, _, p => p
  | fuel + 1, t, k, at_, p =>
    let x := (p.tile t).tracker k
    let (e, w) := toothWindow x
    let mid := x.teeth.last + e
    if x.state != .sync && x.state != .tracking then p
    else if at_ > mid + w then followEdge early fuel t k at_ (emptyWindow t k p)
    else if at_ + w < mid then anomaly t k (rejectEdge t k p)
    else if early then rejectEdge t k p
    else acceptTooth t k (pitch x) at_ p

/-- An edge of the chosen polarity of the input channel of a tracker (R316). -/
def trackerEdge (t k : Nat) (p : Pkg) : Pkg :=
  let x := (p.tile t).tracker k
  let at_ := p.now
  let early : Bool := match x.teeth.edgeAt with | some l => at_ < l + 5 * usTicks | none => false
  let i := x.teeth.lastEdge.map (fun l => at_ - l)
  let p1 := onTrk t k (onTeeth (fun h =>
    if early then { h with edgeAt := some at_ }
    else { h with edgeAt := some at_, lastEdge := some at_, lastInterval := i })) p
  if x.state != .unsync then followEdge early 4 t k at_ p1
  else if early then rejectEdge t k p1
  else acquire t k at_ i x.teeth.lastInterval p1

/-- A change of the comparator of channel `c` reaches the trackers (R316), from the offline mark on no more (R325). -/
def trackersEdge (t c : Nat) (level : Bool) (p : Pkg) : Pkg :=
  forAll [0, 1] (fun k q =>
    let x := (q.tile t).tracker k
    if online q t && x.state != .off && tcCh x.cfg == c && ((q.tile t).chan c).mode == 0x10 && level != tcFalling x.cfg then trackerEdge t k q
    else q) p

/-- A tracker starts in UNSYNC. -/
def startTracker (x : Tracker) : Tracker :=
  { x with state := .unsync, teeth := {}, schedule := x.pendSchedule.getD x.schedule, pendSchedule := none }

/-- A tracker is off (R315): its pending firings are cancelled without counting them. -/
def stopTracker (x : Tracker) : Tracker :=
  { x with state := .off, firings := [], teeth := {}, schedule := x.pendSchedule.getD x.schedule, pendSchedule := none }

/-- The trackers of a tile at its offline mark (R325). -/
def stopTrackers (tl : Tile) : Tile :=
  { tl with trackers := tl.trackers.mapVals (fun _ x => { x with firings := [] }) }

/-- The trackers of a tile that is online again start in UNSYNC, without an event (R325). -/
def resumeTrackers (t : Nat) (p : Pkg) : Pkg :=
  forAll [0, 1] (fun k q =>
    let x := (q.tile t).tracker k
    if tcEnable x.cfg && x.configured then trackerItems t k (onTrk t k startTracker q) else q) p

end Sys2Proof.Machine
end

