-- ==== Sys2Proof/Machine/MachineOps.lean ====
section
/-!
DEFINITION. Machines: terms, actions, evaluation, commit and control (R245 to R259).
-/

namespace Sys2Proof.Machine

/-- The latched record of an operand of a machine. -/
def latched (m : MachineSt) (h : Handle) : Rec := ((m.inputs.find? (fun q => q.1 == h)).map (·.2)).getD {}

/-- The value of an operand (R246, R248): binary32 classes are converted; none when it is a NaN. -/
def operandVal (h : Handle) (r : Rec) : Option Word :=
  if handleClass h == 8 || handleClass h == 9 then (f32ToQ r.value).map wordOf else some r.value

/-- The comparison of a term (R246). -/
def termCompare (unsigned : Bool) (op : Nat) (a b : Word) : Bool :=
  let lt (x y : Word) : Bool := if unsigned then x.toNat < y.toNat else x.toInt < y.toInt
  match op with
  | 0x01 | 0x06 => lt b a
  | 0x02 | 0x07 => lt a b
  | 0x03 => !lt a b
  | 0x04 => !lt b a
  | _ => a == b

/-- What terms are judged by: the records of points, the timers that count, time in state in ms, events raised, and the latch instant in µs
(R246, R253). -/
structure TermEnv where
  look : Handle → Rec
  timers : List Nat
  stateMs : Nat
  since : BitVec 128
  latchUs : Nat

/-- A term (R246, R247): whether it is true, and whether a value operand was unusable. -/
def evalTerm (e : TermEnv) (p : Pkg) (t : Nat) (b : List Byte) : Bool × Bool :=
  let op := leAt b 0 1
  let fl := leAt b 1 1
  let k := leAt b 8 4
  let ha := hAt p b 4
  let hb := hAt p b 8
  let ra := e.look ha
  let val (h : Handle) (r : Rec) : Option Word :=
    if usable r.q (fl.testBit 2) (fl.testBit 3) then operandVal h r else none
  let inv (x : Bool) : Bool × Bool := (x != fl.testBit 0, false)
  match op with
  | 0x01 | 0x02 | 0x03 | 0x04 | 0x05 =>
    match val ha ra with
    | some a => inv (termCompare (fl.testBit 1) op a (w32 k))
    | none => (false, true)
  | 0x06 | 0x07 =>
    match val ha ra, val hb (e.look hb) with
    | some a, some b => inv (termCompare (fl.testBit 1) op a b)
    | _, _ => (false, true)
  | 0x0D =>
    match val ha ra with
    | some a => inv ((a &&& w32 k) != 0)
    | none => (false, true)
  | 0x08 => inv (ra.q.code == k)
  | 0x09 => inv (usable ra.q (fl.testBit 2) (fl.testBit 3))
  | 0x0A => inv ((e.latchUs + 2 ^ 48 - ra.time.toNat) % 2 ^ 48 / 1000 > k)
  | 0x0B => inv (e.stateMs ≥ k)
  | 0x0C => inv ((e.look (mkHandle (ownNo p t) (key 6 k))).value == 0#32 && !e.timers.contains k)
  | 0x0E => inv (e.since.getLsbD k)
  | _ => (false, false)

/-- The terms of a transition, all of them judged up to the first false one (R246). -/
def evalTerms (e : TermEnv) (p : Pkg) (t : Nat) : List (List Byte) → Bool × Bool
  | [] => (true, false)
  | b :: r =>
    let (x, bad) := evalTerm e p t b
    let (y, bad') := evalTerms e p t r
    (x && y, bad || bad')

/-- The curve or grid that machine `m` uses: the old copy until the machine has switched (R236). -/
def machineTable (tl : Tile) (m idx : Nat) : List Byte :=
  match tl.tables.commits.find? (fun c => c.kind == 1 && c.idx == idx && c.written && c.waiting.contains (.machine m)) with
  | some c => c.old
  | none => tl.table 1 idx

/-- One action from latched values (R248, R250): what it does, or INPUT_BAD. -/
def evalAction (p : Pkg) (t m : Nat) (b : List Byte) : Option MAct :=
  let tl := p.tile t
  let ms := tl.machine m
  let op := leAt b 0 1
  let arg := leAt b 2 2
  let dst := handleKey (hAt p b 4)
  let v := w32 (leAt b 8 4)
  let aux := w32 (leAt b 12 4)
  let src (off : Nat) : Option (Int × Quality) :=
    let h := hAt p b off
    let r := latched ms h
    if usable r.q false false then (operandVal h r).map (fun w => (w.toInt, r.q)) else none
  match op with
  | 0x01 => some (.write dst v .good)
  | 0x02 => (src 8).map (fun s => .write dst (wordOf s.1) .good)
  | 0x03 =>
    let c := machineTable tl m arg
    if c.isEmpty || leAt c 0 1 != 2 then none
    else (src 8).map (fun s => let (y, r) := curveEval c s.1; .write dst (wordOf y) (rangeQ s.2 r))
  | 0x04 =>
    let g := machineTable tl m arg
    if g.isEmpty || leAt g 0 1 != 3 then none
    else match src 8, src 12 with
      | some x, some y => let (z, r) := gridEval g x.1 y.1; some (.write dst (wordOf z) (rangeQ (worse x.2 y.2) r))
      | _, _ => none
  | 0x05 => (src 8).map (fun s => .write dst (wordOf (sat32 (s.1 + aux.toInt))) s.2)
  | 0x06 => some (.timerStart arg v)
  | 0x07 => some (.timerStop arg)
  | 0x08 => some (.event arg)
  | 0x09 => some (.loopMode arg v.toNat aux)
  | 0x0A => some (.fire (arg % 256) (arg / 256) v)
  | 0x0B => some (.cancel arg)
  | 0x0C => some (.stepMove arg v)
  | _ => some (.stepStop arg)

/-- The ticks that a machine has been in its state at tick `at_`, from the first boundary since it entered it (R253, R258). -/
def MachineSt.ticks (m : MachineSt) (at_ : Nat) : Nat := if m.paused then m.heldTicks else if m.started then at_ - m.stateAt else 0

/-- The time in state of a machine at tick `at_`, in ms (R253). -/
def stateMs (m : MachineSt) (at_ : Nat) : Nat := Nat.min 0xFFFFFFFF (m.ticks at_ / msTicks)

/-- The first transition of the present state that is true (R251), with its index within the state, and whether an operand
of those examined was unusable. -/
def firstTrue (e : TermEnv) (p : Pkg) (t : Nat) (img : List Byte) (first : Nat) : Nat → Nat → Option Nat × Bool
  | 0, _ => (none, false)
  | k + 1, j =>
    let r := miTran img (first + j)
    let (x, bad) := evalTerms e p t ((List.range (leAt r 2 1)).map (fun i => miTerm img (leAt r 0 2 + i)))
    if x then (some j, bad) else let (y, bad') := firstTrue e p t img first k (j + 1); (y, bad || bad')

/-- The actions of a span of an image. -/
def spanActs (img r : List Byte) : List (List Byte) := (List.range (leAt r 6 1)).map (fun i => miAct img (leAt r 4 2 + i))

/-- One evaluation of machine `m` (R251): at most one transition fires. -/
def evalMachine (p : Pkg) (t m : Nat) : MResult :=
  let ms := (p.tile t).machine m
  let img := ms.image
  let e : TermEnv := { look := latched ms, timers := ms.timers, stateMs := stateMs ms ms.latchedAt, since := ms.since, latchUs := ms.latchedAt / usTicks }
  let st := miState img ms.state
  let (fired, bad) := if ms.entryDue then (none, false) else firstTrue e p t img (leAt st 0 2) (leAt st 2 1) 0
  let acts : List (List Byte) := match fired with
    | some j =>
      let r := miTran img (leAt st 0 2 + j)
      spanActs img r ++ spanActs img (miState img (leAt r 3 1))
    | none => if ms.entryDue then spanActs img st else []
  let done := acts.map (evalAction p t m)
  { fired := fired.map (fun j => (leAt (miTran img (leAt st 0 2 + j)) 3 1, ms.state, j))
    entered := ms.entryDue, acts := done.filterMap id, inputBad := bad || done.any (·.isNone) }

/-- A machine of a tile changed by `f`. -/
def onMach (t m : Nat) (f : MachineSt → MachineSt) (p : Pkg) : Pkg := onTile t (Tile.onMachine m f) p

/-- Machine `m` is evaluated (R256, R267): it is not paused, its tile is online with its seal, its group enabled. -/
def machineEvaluated (p : Pkg) (t m : Nat) : Bool :=
  let x := (p.tile t).machine m
  !x.paused && online p t && sealedTile p t && ((p.tile t).group (machineGroup x.image)).enabled

/-- Machine flags, item 2 (R256). -/
def machineFlags (evaluated : Bool) (m : MachineSt) : Nat :=
  b2n evaluated + 2 * b2n m.paused + 4 * b2n m.refused + 8 * b2n m.inputBad + 16 * b2n m.overrun

/-- The MCH items of a machine (R256). -/
def machineItems (t m ms : Nat) (p : Pkg) : Pkg :=
  let x := (p.tile t).machine m
  let put (i : Nat) (v : Word) (q : Pkg) : Pkg := putNow t (key 5 (4 * m + i)) v .good q
  put 3 x.last (put 2 (w32 (machineFlags (machineEvaluated p t m) x)) (put 1 (w32 ms) (put 0 (w32 x.state) p)))

/-- A timer of a tile starts or stops (R254); under an override its owner's start or stop is discarded (R32). -/
def timerStart (t n : Nat) (v : Word) (p : Pkg) : Pkg :=
  if overridden (p.tile t) (key 6 n) then countOverridden t p else
  let p1 := ownerWrite t (key 6 n) v .good p
  if v == 0 then p1 else onTile t (fun tl => { tl with counting := (tl.counting.filter (·.1 != n)) ++ [(n, p.now)] }) p1
def timerStop (t n : Nat) (p : Pkg) : Pkg :=
  if overridden (p.tile t) (key 6 n) then countOverridden t p else
  onTile t (fun tl => { tl with counting := tl.counting.filter (·.1 != n) }) p

/-- The context of an internal request of a machine (R252). -/
def machineCtx (p : Pkg) (t m : Nat) : Ctx :=
  { src := .machine t m, tile := BitVec.ofNat 4 (ownNo p t), cls := 1, epoch := 0 }

/-- One action at its commit, for step `k` of R252: 2 writes, 3 timers, 4 events, 5 requests. -/
def doAct (t m k : Nat) (a : MAct) (p : Pkg) : Pkg :=
  match a, k with
  | .write key v q, 2 => ownerWrite t key v q p
  | .timerStart n v, 3 => timerStart t n v p
  | .timerStop n, 3 => timerStop t n p
  | .event n, 4 => trigger t (0x80 + n) (raiseWith t (94 + n) m p)
  | .loopMode s mode man, 5 => loopMode t s mode man (machineCtx p t m) p
  | .fire e pr v, 5 => fire t e pr v (.action m) p
  | .cancel e, 5 => cancelProfile t e p
  | .stepMove u x, 5 => stepperMove t u x.toInt (.action m) p
  | .stepStop u, 5 => stepperStop t u (.action m) p
  | _, _ => p

/-- The commit of an evaluated machine (R252). -/
def commitMachine (t m : Nat) (p : Pkg) : Pkg :=
  let x := (p.tile t).machine m
  match x.result with
  | none => p
  | some r =>
    let y : MachineSt := { x with due := false, result := none, inputBad := x.inputBad || r.inputBad
                                  entryDue := x.entryDue && !r.entered }
    let z : MachineSt := match r.fired with
      | some (target, source, j) =>
        { y with state := target, stateAt := p.now, last := w32 (target + source * 256 + j * 65536) }
      | none => y
    let ms := if r.fired.isSome then 0 else stateMs x x.latchedAt
    let p1 := machineItems t m ms (onMach t m (fun _ => z) p)
    [2, 3, 4, 5].foldl (fun q k => forAll r.acts (doAct t m k) q) p1

/-- A machine that was not evaluated by its deadline (R255). -/
def overrunMachine (m : Nat) (tl : Tile) : Tile :=
  tl.onMachine m (fun x => { x with overrun := true, due := false, result := none })

/-- A machine image switches, or with no bytes the machine is erased (R239, R257, R258); the controls that wait at the same boundary
come after it (R259). -/
def switchMachine (t m : Nat) (img : List Byte) (p : Pkg) : Pkg :=
  let x := (p.tile t).machine m
  if img.isEmpty then
    let p1 := onTile t (fun tl => releaseClaims (.machine m) (Tile.onMachine m (fun _ => { MachineSt.reset with ctl := x.ctl, late := x.late }) tl)) p
    forAll [0, 1, 2, 3] (fun i => goOffline t (key 5 (4 * m + i))) p1
  else
    let keep := miKeep img && !x.image.isEmpty && x.state < miStates img
    let base : MachineSt := { x with image := img, refused := false, inputBad := false, overrun := false, due := false
                                     result := none, inputs := [] }
    let y : MachineSt := if keep then { base with entryDue := false }
      else { base with state := miInitial img, heldTicks := 0, started := false, entryDue := true
                       paused := miPaused img, last := 0xFFFFFFFF }
    onTile t (fun tl => setClaims (.machine m) (machineDsts p img).eraseDups (Tile.onMachine m (fun _ => y) tl)) p

/-- MACHINE_CONTROL takes effect (R259); it posts OK with the state after the action, and the items show it (R256). -/
def machineControl (t m : Nat) (c : Ctx) (action : Nat) (p : Pkg) : Pkg :=
  let x := (p.tile t).machine m
  if x.image.isEmpty then finish c 0x43 stBadHandle t p
  else
    let y : MachineSt := match action with
      | 0 => if x.paused then { x with paused := false, stateAt := p.now - x.heldTicks, heldTicks := 0 } else x
      | 1 => if x.paused then x else { x with paused := true, heldTicks := x.ticks p.now, due := false, result := none }
      | _ => { x with state := miInitial x.image, started := false, heldTicks := 0, paused := false, entryDue := true
                      refused := false, inputBad := false, overrun := false, due := false, result := none }
    reply c 0x43 t (le 1 y.state ++ [0, 0, 0]) (machineItems t m (stateMs y p.now) (onMach t m (fun _ => y) p))

/-- The inputs of a machine as records, with the timers its terms name (R251, R254). -/
def machineOperands (p : Pkg) (t : Nat) (img : List Byte) : List Handle :=
  machineInputs p img ++ ((List.range (miTerms img)).filterMap (fun i =>
    let b := miTerm img i
    if leAt b 0 1 == 0x0C then some (mkHandle (ownNo p t) (key 6 (leAt b 8 4))) else none)).eraseDups

/-- A calendar is evaluated and writes its output (R262). -/
def runCalendar (t idx : Nat) (p : Pkg) : Pkg :=
  let b := (p.tile t).table 2 idx
  if b.isEmpty || !online p t || !sealedTile p t then p
  else
    let v := if p.sh.rtc.valid then calendarValue b p.sh.rtc.secs.toNat else w32 (leAt b 8 4)
    let k := handleKey (caOut p b)
    if ownerOf (p.tile t) k == some (.calendar idx) then ownerWrite t k v .good p else p

/-- Every calendar of a tile (R262). -/
def runCalendars (t : Nat) (p : Pkg) : Pkg := forAll (List.range 32) (runCalendar t) p

/-- The machines of a tile at its offline mark (R228, R253): controls are lost and nothing is under way. -/
def stopMachines (tl : Tile) : Tile :=
  { tl with machines := tl.machines.mapVals (fun _ x => { x with ctl := [], due := false, result := none, late := false }) }

end Sys2Proof.Machine
end

