-- ==== Sys2Proof/Machine/AdviceOps.lean ====
section
/-!
DEFINITION. Pre-advice (R290) and the retraction of plans (R292): the messages, the advice VARs of the receiving tile, and
the fields of the planning record (R282).
-/

namespace Sys2Proof.Machine

/-- Fields of the planning record (R282). -/
def prCycle (r : BitVec 256) : Nat := bits r 15 0
def prHorizon (r : BitVec 256) : Nat := bits r 31 16
def prStep (r : BitVec 256) : Nat := bits r 47 32
def prBrackets (r : BitVec 256) : Nat := bits r 55 48
def prEnable (r : BitVec 256) : Bool := bit r 56
def prApprove (r : BitVec 256) : Bool := bit r 57
def prCoord (r : BitVec 256) : Nat := bits r 71 64
def prAdvTile (r : BitVec 256) : Nat := bits r 79 72
def prAdvVar (r : BitVec 256) : Nat := bits r 95 80
def prHst (r : BitVec 256) : Nat := bits r 111 96
def prWeather (r : BitVec 256) : Nat := bits r 127 112
def prCop (r : BitVec 256) : Nat := bits r 143 128
def prWc (r : BitVec 256) : Word := r.extractLsb' 160 32
def prSw (r : BitVec 256) : Word := r.extractLsb' 192 32
def prStepK (r : BitVec 256) : Nat := bits r 231 224

/-- The reset planning record (R282): CYCLE 15, HORIZON 1,455, STEP 60, NBRACKET 8, STEP_K 5. -/
def planRecReset : BitVec 256 := BitVec.ofNat 256 (15 + 1455 * 2 ^ 16 + 60 * 2 ^ 32 + 8 * 2 ^ 48 + 5 * 2 ^ 224)

/-- The planning record in force, or the reset record without one (R282). -/
def planRec (p : Pkg) : BitVec 256 := p.sh.planner.record.getD planRecReset

/-- The coordinating tile. -/
def planCoord (p : Pkg) : Nat := prCoord (planRec p)

/-- The planner changed by `f`. -/
def onPlanner (f : Planner → Planner) (p : Pkg) : Pkg := onShared (fun s => { s with planner := f s.planner }) p

/-- The advice of a tile changed by `f`. -/
def onAdvice (t : Nat) (f : Advice → Advice) (p : Pkg) : Pkg :=
  onTile t (fun tl => { tl with pred := { tl.pred with advice := f tl.pred.advice } }) p

/-- The keys of three advice VARs (R290). -/
def adviceKeys (var : Nat) : List Key := (List.range 3).map (fun i => key 7 (var % 4094 + i))

/-- Three values are written to the advice VARs of a tile. -/
def writeAdvice (t : Nat) (vs : List Word) (q : Quality) (p : Pkg) : Pkg :=
  forAll ((adviceKeys (p.tile t).pred.advice.var).zip vs) (fun kv => ownerWrite t kv.1 kv.2 q) p

/-- The latent advice in the VARs goes (R290): the fixed values come back, or 0 with OFFLINE when there are none. -/
def restoreAdvice (t : Nat) (p : Pkg) : Pkg :=
  let a := (p.tile t).pred.advice
  let p1 := if a.got then writeAdvice t a.values .good p else writeAdvice t [0, 0, 0] .offline p
  onAdvice t (fun a => { a with latent := none }) p1

/-- The three advice VARs of a tile have another owner (R31). -/
def adviceClaimed (p : Pkg) (t var : Nat) : Bool := (adviceKeys var).any (fun k => claimedByOther (p.tile t) k .advice)

/-- Tile `t` owns the advice VARs from `var` on (R290). -/
def claimAdviceVars (t var : Nat) (p : Pkg) : Pkg :=
  onTile t (setClaims .advice (adviceKeys var)) (onAdvice t (fun a => { a with var := var }) p)

/-- The tile of this package that the planning record makes the receiver of advice owns its VARs (R282, R290). -/
def claimAdvice (t : Nat) (p : Pkg) : Pkg :=
  match p.sh.planner.record with
  | some r => if localOf p (prAdvTile r) == some t && !adviceClaimed p t (prAdvVar r) then claimAdviceVars t (prAdvVar r) p else p
  | none => p

/-- An advice message (R290). -/
def adviceMsg (typ var : Nat) (plan : Word) (expiryUs : Nat) (vs : List Word) : BitVec 224 :=
  recOf 224 ([BitVec.ofNat 8 typ, 0] ++ le 2 var ++ le 4 plan.toNat ++ le 6 expiryUs ++ [0, 0]
    ++ vs.flatMap (fun v => le 4 v.toNat))

/-- An advice message reaches tile `t` (R290). -/
def receiveAdvice (t : Nat) (m : BitVec 224) (p : Pkg) : Pkg :=
  let var := bits m 31 16
  let plan : Word := m.extractLsb' 32 32
  let expiry := bits m 111 64 * usTicks
  let vs : List Word := [m.extractLsb' 128 32, m.extractLsb' 160 32, m.extractLsb' 192 32]
  if var > 4093 || adviceClaimed p t var then p
  else
    let p1 := claimAdviceVars t var p
    match bits m 7 0 with
    | 1 => onAdvice t (fun a => { a with latent := some (plan, expiry) }) (writeAdvice t vs .latent p1)
    | 2 =>
      onAdvice t (fun a => { a with latent := none, fixedUntil := some expiry, got := true, values := vs }) (writeAdvice t vs .good p1)
    | 3 =>
      match (p.tile t).pred.advice.latent with
      | some (id, _) => if id == plan then restoreAdvice t p else p
      | none => p
    | _ => p

/-- A time of this package in µs, in the timebase of the other one (R419): OFFSET is far minus near. -/
def otherTimebase (us : Int) (p : Pkg) : Int :=
  let off := p.sh.tether.status.offsetNs / 1000
  if isFar p then us - off else us + off

/-- Advice leaves the coordinator as a class 1 request (R290): to a tile of the package, or over the tether in the receiver's
timebase. -/
def sendAdvice (typ : Nat) (plan : Word) (expiry : Nat) (vs : List Word) (p : Pkg) : Pkg :=
  let r := planRec p
  let at_ : Int := (expiry / usTicks : Nat)
  let us := if (localOf p (prAdvTile r)).isSome then at_ else otherTimebase at_ p
  issue (planCoord p) (prAdvTile r) 1 .advice (.advice (adviceMsg typ (prAdvVar r) plan us.toNat vs)) (p.now + 10 * msTicks) p

/-- The latent plan is retracted (R292): RETRACT advice, event 64 on the coordinator, and RETRACTED to the PLAN_FIX commands
that named it. -/
def retractPlan (p : Pkg) : Pkg :=
  match p.sh.planner.latent with
  | none => p
  | some pl =>
    let co := planCoord p
    let p1 := forAll p.sh.planner.fixers (fun c => finish c 0x55 stRetracted co) p
    raise co 64 (sendAdvice 3 pl.id 0 [0, 0, 0] (onPlanner (fun x => { x with latent := none, fixers := [] }) p1))

/-- The tile holds nodes or zones (R289, R292). -/
def holdsModel (tl : Tile) : Bool :=
  tl.pred.nodes.any (fun q => nodeInUse q.2) || tl.pred.zones.any (fun q => bit q.2.rc 16)

/-- Tile `t` leaves Online or announces a new incarnation (R292): a latent plan is retracted; where it is the coordinator
itself, plan and evaluation are lost without a word, and PLAN_FIX commands are answered for it (R48). -/
def planLoses (t : Nat) (p : Pkg) : Pkg :=
  if t == planCoord p then
    onPlanner (fun x => { x with latent := none, fixers := [], eval := none })
      (forAll p.sh.planner.fixers (fun c => finish c 0x55 stTileOffline t) p)
  else if holdsModel (p.tile t) then retractPlan p else p

end Sys2Proof.Machine
end

