-- ==== Sys2Proof/Machine/BusFault.lean ====
section
/-!
DEFINITION. The building bus ports and their FAULTS bits (R444, R445).
-/

namespace Sys2Proof.Machine

/-- An RS-485 port of the package, and the port changed by `f`. -/
def rsOf (p : Pkg) : RsPort → RsState
  | .bus0 => p.sh.bus0
  | .bus1 => p.sh.bus1
def onRs (b : RsPort) (f : RsState → RsState) (p : Pkg) : Pkg :=
  onShared (fun s => match b with
    | .bus0 => { s with bus0 := f s.bus0 }
    | .bus1 => { s with bus1 := f s.bus1 }) p

/-- The T1S port changed by `f`. -/
def onT1s (f : T1sState → T1sState) (p : Pkg) : Pkg := onShared (fun s => { s with t1s := f s.t1s }) p

/-- Status of a bus port changed by `f`. -/
def onBusStatus (b : BusPort) (f : BusStatus → BusStatus) (p : Pkg) : Pkg :=
  match b with
  | .rs q => onRs q (fun r => { r with status := f r.status }) p
  | .t1s => onT1s (fun r => { r with status := f r.status }) p
def busStatusOf (p : Pkg) : BusPort → BusStatus
  | .rs q => (rsOf p q).status
  | .t1s => p.sh.t1s.status

/-- The event of a port's faults (R445). -/
def busEvent : BusPort → Nat
  | .rs .bus0 => 76
  | .rs .bus1 => 77
  | .t1s => 78

/-- A FAULTS bit of a port sets; from 0 to 1 it raises the port's event on the lead (R445). -/
def busFault (b : BusPort) (i : Nat) (p : Pkg) : Pkg :=
  if (busStatusOf p b).faults.getLsbD i then p
  else raise p.lead (busEvent b) (onBusStatus b (fun s => { s with faults := s.faults ||| (1#16 <<< i) }) p)

/-- A denial is recorded at its target, and sets POLICY of the port (R444, R472). -/
def denyBus (u : Nat) (b : RsPort) (p : Pkg) : Pkg := busFault (.rs b) 6 (refusedByPolicy u p)

end Sys2Proof.Machine
end

