-- ==== Sys2Proof/Machine/Requests.lean ====
section
/-!
DEFINITION. Fabric requests at their target and their replies (R35, R37, R46, R48, R414), and the start of admitted work
(R102, R103).
-/

namespace Sys2Proof.Machine

/-- The work of a flight table entry is this request. -/
def isRequest (r : FabricReq) (w : Work) : Bool :=
  match w with
  | .request x => x == r
  | .command _ => false

/-- The request `r` is answered by tile `t`. When its source has left service since, the reply is discarded and counted
there (R48). -/
def answerBy (t : Nat) (r : FabricReq) (rep : FabReply) (p : Pkg) : Pkg :=
  if (p.tile r.origin).fabric.out.any (fun o => o.req == r) then
    onTile r.origin (fun tl => { tl with fabric := { tl.fabric with
      out := tl.fabric.out.map (fun o => if o.req == r then { o with reply := some rep, repliedAt := p.now } else o) } }) p
  else countDiscarded t (freeFlights t (isRequest r) p)

/-- A failure of a request: a status without a payload. -/
def failure (st : Byte) : FabReply := { status := st, payload := [] }

/-- A failure that tile `t` makes. -/
def failureAt (p : Pkg) (t : Nat) (st : Byte) : FabReply := { failure st with tile := BitVec.ofNat 4 (ownNo p t) }

/-- Tile `t` answers a request with a failure. -/
def refuseAt (t : Nat) (r : FabricReq) (st : Byte) (p : Pkg) : Pkg := answerBy t r (failureAt p t st) p

/-- What a read, a write or a probe does at target tile `t`, and its reply (R46, R132, R437). -/
def serve (t : Nat) (op : FabricOp) (p : Pkg) : FabReply × Pkg :=
  match op with
  | .read h =>
    if keyValid p t (handleKey h) then ({ status := stOk, payload := pointBytes (readPoint p t (handleKey h)) }, p)
    else (failure stBadHandle, p)
  | .write h v =>
    if keyValid p t (handleKey h) then ({ status := stOk, payload := [] }, ownerWrite t (handleKey h) v .good p)
    else (failure stBadHandle, p)
  | .probe => ({ status := stOk, payload := [] }, p)
  | .advice m => ({ status := stOk, payload := [] }, receiveAdvice t m p)
  | .command .. | .unpair => (failure stBadOpcode, p)

/-- A key is one of the die temperature points, SYS 32 to 35 (R370). -/
def dieKey (k : Key) : Bool := keyClass k == 0 && 32 ≤ keyIdx k && keyIdx k ≤ 35

/-- A request of a machine or permit term reads a die temperature: it is measured first (R370). -/
def asksDie (r : FabricReq) : Bool :=
  match r.purpose, r.op with
  | .groupInput _ _, .read h => dieKey (handleKey h)
  | .permitCopy, .read h => dieKey (handleKey h)
  | .far _ die, .read h => die && dieKey (handleKey h)
  | _, _ => false


/-- The entry numbered `order` of tile `t` has started. -/
def markStarted (t order : Nat) (p : Pkg) : Pkg :=
  onTile t (fun tl => { tl with fabric := { tl.fabric with
    flights := tl.fabric.flights.map (fun f => if f.order == order then { f with started := true } else f) } }) p

/-- A number identifies the request in its flight table and queue. -/
def heldAt (p : Pkg) (t : Nat) (w : Work) : Bool :=
  (p.tile t).fabric.flights.any (fun f => f.work == w) || (p.tile t).fabric.queue.any (fun q => q.work == w)

/-- The tick at which a request that finds no entry is refused (R38, R60). -/
def admissionLimit (o : Outstanding) (now : Nat) : Nat :=
  match o.req.purpose with
  | .groupInput _ _ => o.limit
  | _ => now + admissionTicks o.req.cls.toNat

/-- The right that a read or a write of another package needs at its target (R471), and the points it may never reach
(R512). -/
def farDenied (p : Pkg) (t : Nat) (op : FabricOp) : Bool :=
  let pol := (p.tile t).policy portTether
  match op with
  | .read h => handleClass h == 0xE || !granted pol 1 h
  | .write h _ => handleClass h == 0xE || !granted pol 2 h
  | _ => false

/-- The number of a bus port among the policy ports, where a server's write came from it (R469, R472). -/
def serverPort (r : FabricReq) : Option (Nat × RsPort) :=
  match r.purpose, r.op with
  | .server b, .write _ _ => some (match b with | .bus0 => portBus0 | .bus1 => portBus1, b)
  | _, _ => none

/-- The request came over the tether. -/
def fromFar (r : FabricReq) : Bool :=
  match r.purpose with
  | .far .. => true
  | _ => false

/-- The write of a server, or of the other package, is denied at its commit instant (R472). -/
def writeDenied (p : Pkg) (t : Nat) (r : FabricReq) : Bool :=
  match r.op with
  | .write h _ => match serverPort r with
    | some (port, _) => handleClass h == 0xE || !granted ((p.tile t).policy port) 2 h
    | none => fromFar r && farDenied p t r.op
  | _ => false

/-- A denial is recorded at its target, and for a bus port sets the POLICY bit of that port (R444, R472). -/
def recordDenial (t : Nat) (r : FabricReq) (p : Pkg) : Pkg :=
  match serverPort r with
  | some (_, b) => denyBus t b p
  | none => refusedByPolicy t p

/-- A request to the other package leaves its lead tile as a REQUEST frame, once (R16, R36, R414). -/
def crossLink (r : FabricReq) (p : Pkg) : Pkg :=
  if p.sh.tether.requests.any (fun x => x.2 == r) then p
  else if !linkOpen p.sh.tether then answerBy p.lead r (failure stTetherLost) p
  else
    let id := p.sh.tether.nextId
    sendRequest { r with id := id } (onTether (fun te => { te with nextId := id + 1, requests := te.requests ++ [(id, r)] }) p)

/-- The request has its effect at its target, and its reply is under way. A write from a
bus or over the tether that the policy has come to deny is not made (R472). -/
def performRequest (t : Nat) (r : FabricReq) (p : Pkg) : Pkg :=
  if (localOf p r.tile.toNat).isNone then crossLink r p
  else if writeDenied p t r then answerBy t r (failure stPolicyChanged) (recordDenial t r p)
  else
    let (rep, q) := serve t r.op (if asksDie r then measureDie t p else p)
    answerBy t r rep q

/-- The tile whose incarnation a request to tile `t` is compared with (R46): that which performs it. -/
def targetOf (p : Pkg) (r : FabricReq) (t : Nat) : Nat :=
  match r.op with
  | .command _ op _ => servingTile p op t
  | _ => t

/-- The tile that takes a request to tile `t` (R16, R110, R117): a command that acts on a stopped tile is served by the lead. -/
def meetingTile (p : Pkg) (r : FabricReq) (t : Nat) : Nat :=
  let u := targetOf p r t
  match r.op with
  | .command _ op pl => if actsOnStopped op pl && !online p u then p.lead else u
  | _ => u

/-- A command of the near package reaches tile `t` of this far package (R37, R107, R411, R472). The far end issues no commands, so a
near package takes none. -/
def commandAt (t : Nat) (o : Outstanding) (cls : BitVec 2) (op : Byte) (pl : List Byte) (p : Pkg) : Pkg :=
  let r := o.req
  let id := match r.purpose with | .far n _ => n | _ => 0
  let c : Ctx := { src := .far id, tile := r.tile, cls := cls, epoch := policyEpoch p t (.far id) }
  match (if isFar p then commandOf c op pl else none) with
  | none => refuseAt t r stBadOpcode p
  | some i =>
    if !allowedAt p t (.far id) op pl then refuseAt t r stPolicy (refusedByPolicy t p)
    else
      match arrive (.command i) t cls.toNat (admissionLimit o p.now) p with
      | (q, .served) => q
      | (q, .delayed) => replyFar id false (failureAt q t stDelayed) q
      | (q, .refused) => refuseAt t r stCapacity q

/-- A request to tile `named` of its own package reaches the tile that takes it (R37, R46, R48, R472). -/
def requestAt (named : Nat) (o : Outstanding) (p : Pkg) : Pkg :=
  let r := o.req
  let t := meetingTile p r named
  if !online p t then refuseAt (answerTile p r.origin t) r stTileOffline p
  else if r.inc.toNat != 0 && r.inc != (p.tile (targetOf p r named)).boot.incarnation then refuseAt t r stStaleInc p
  else
    match r.op with
    | .command cls op pl => commandAt t o cls op pl p
    | _ =>
      if fromFar r && farDenied p t r.op then answerBy t r (failure stPolicy) (refusedByPolicy t p)
      else match arrive (.request r) t r.cls.toNat (admissionLimit o p.now) p with
      | (q, .refused) => answerBy t r (failure stCapacity) q
      | (q, .delayed) => q
      | (q, .served) => performRequest t r (markStarted t (p.tile t).fabric.nextOrder q)

/-- A request changes no state at its target: a read, or a probe (R425). -/
def onlyReads (op : FabricOp) : Bool :=
  match op with
  | .read _ | .probe => true
  | _ => false

/-- A request to the other package takes an entry of its own class in the lead tile and crosses the tether (R16, R36, R425). The
reads of the first session are served before its tiles count as present (R412). -/
def farRequest (o : Outstanding) (p : Pkg) : Pkg :=
  let r := o.req
  let link := linkOpen p.sh.tether
  if !(farPresent p r.tile.toNat || (link && farNamed p r.tile.toNat)) then answerBy p.lead r (failure stBadParam) p
  else if !link then answerBy p.lead r (failure stTetherLost) p
  else if p.sh.tether.state == .rejoining && !onlyReads r.op then answerBy p.lead r (failure stRefusedState) p
  else match arrive (.request r) p.lead r.cls.toNat (admissionLimit o p.now) p with
    | (q, .refused) => answerBy p.lead r (failure stCapacity) q
    | (q, .delayed) => q
    | (q, .served) => crossLink r (markStarted p.lead (p.tile p.lead).fabric.nextOrder q)

/-- The tag of an earlier command of the same port that has not posted its final completion (R103). -/
def tagWaits (tags : List OutTag) (tag : BitVec 16) : Bool :=
  match tags.find? (fun o => o.tag == tag) with
  | some o => tags.any (fun x => x.order < o.order)
  | none => false

/-- A command with ORDERED waits for every command taken before it from its port (R103, R450). -/
def orderedWaits (s : State) (c : Ctx) : Bool :=
  c.ordered && (match c.src with
    | .host tag _ => tagWaits s.hp.tags tag
    | .service tag _ => tagWaits s.pkg.sh.service.tags tag
    | _ => false)

/-- An entry whose work has not started and may start. -/
def mayStart (s : State) (f : Flight) : Bool :=
  !f.started && (match f.work with
    | .request _ => true
    | .command i => match commandParts i with
      | some (c, _, _) => !orderedWaits s c
      | none => false)

/-- The next admitted entry that may start, with its tile (R102): within a tile the one taken first. -/
def nextStart (s : State) : Option (Nat × Flight) :=
  (List.range s.pkg.n).findSome? (fun t => ((s.pkg.tile t).fabric.flights.find? (mayStart s)).map (fun f => (t, f)))

end Sys2Proof.Machine
end

