-- ==== Sys2Proof/Machine/TableOps.lean ====
section
/-!
DEFINITION. Tables: loading, commits, flash writes, and the switching of users (R122, R231 to R239, R263, R358, R361).
-/

namespace Sys2Proof.Machine

/-- A table that the pair of leads holds together (R263). -/
def pairTable (kind idx : Nat) : Bool := kind == 3 && (idx ≤ 3 || idx == 32)

/-- The tiles that hold a table committed to tile `t` (R263). -/
def tableTiles (t kind idx : Nat) : List Nat := if pairTable kind idx && t ≤ 1 then [0, 1] else [t]

/-- The tiles whose points a table committed to tile `t` may own: any, for a map (R434). -/
def claimTiles (p : Pkg) (t kind : Nat) : List Nat := if kind == 3 then List.range p.n else [t]

/-- The commits of a table changed by `f`, on each tile that may hold one. -/
def onCommits (t : Nat) (f : List Commit → List Commit) (p : Pkg) : Pkg :=
  onTile t (fun tl => { tl with tables := { tl.tables with commits := f tl.tables.commits } }) p

/-- The points that the commits of a table which wait would own, by tile (R31). -/
def pendingClaims (p : Pkg) (t kind idx : Nat) : List (Nat × Key) :=
  ((tableTiles t kind idx).flatMap (fun v => (p.tile v).tables.commits.filter (fun x => x.kind == kind && x.idx == idx && !x.bytes.isEmpty))).flatMap
    (fun x => (tableClaims p t kind idx x.bytes).2) |>.eraseDups

/-- The reservations of a table's claimer become those of the commits that wait: on each tile, their points but the ones that it
owns (R31). -/
def reserveClaims (t kind idx : Nat) (p : Pkg) : Pkg :=
  let who := (tableClaims p t kind idx []).1
  let ks := pendingClaims p t kind idx
  forAll (claimTiles p t kind) (fun u q =>
    let mine := (ks.filter (fun k => k.1 == u)).map (·.2)
    onTile u (fun tl =>
      let x := dropPending who tl
      addClaims who true (mine.filter (fun k => !x.claims.any (fun c => c.key == ownKey k && c.who == who))) x) q) p

/-- The claims of a table come into force in place of the old ones; commits of it that wait keep their reservations (R31). -/
def enforceClaims (t kind idx : Nat) (b : List Byte) (p : Pkg) : Pkg :=
  let (who, ks) := if b.isEmpty then ((tableClaims p t kind idx b).1, []) else tableClaims p t kind idx b
  reserveClaims t kind idx (forAll (claimTiles p t kind) (fun u q =>
    onTile u (setClaims who ((ks.filter (fun k => k.1 == u)).map (·.2))) q) p)

/-- A point that the table would own is owned or reserved by another (R31, R235). -/
def claimConflict (p : Pkg) (t kind idx : Nat) (b : List Byte) : Bool :=
  let (who, ks) := tableClaims p t kind idx b
  ks.any (fun k => claimedByOther (p.tile k.1) k.2 who)

/-- Bytes that tile `u` holds in the area of a kind (R233): its active tables, the new tables of accepted commits that are not
written, but for one of the same index that a new commit supersedes (R122), and the old copies of those not switched yet. -/
def areaUsed (p : Pkg) (u kind idx : Nat) : Nat :=
  let held (v : Nat) (x : Commit) : Nat :=
    if x.kind != kind || !(tableTiles v kind x.idx).contains u then 0
    else if x.written then x.old.length
    else if x.idx == idx then 0 else x.bytes.length
  ((((p.tile u).tables.active.filter (fun q => q.1 / 1024 == kind)).map (·.2.length)).sum)
    + ((List.range p.n).flatMap (fun v => (p.tile v).tables.commits.map (held v))).sum

/-- Shadow space in use, other than one table (R234). -/
def shadowUsed (tl : Tile) (kind idx : Nat) : Nat :=
  (tl.tables.shadow.filter (fun q => q.1 != kind * 1024 + idx)).foldl (fun a q => a + q.2.length) 0

/-- A table is named wrongly (R9, R231): its kind or index. -/
def tableNameError (kind idx : Nat) : Option Byte :=
  if kind > 3 then some stBadParam
  else if !indexOk kind idx then some stBadHandle
  else none

/-- TABLE_LOAD (R234). -/
def tableLoad (c : Ctx) (t kind idx off : Nat) (chunk : List Byte) (p : Pkg) : Pkg :=
  let tl := p.tile t
  match tableNameError kind idx with
  | some st => finish c 0x40 st t p
  | none =>
    if kind == 3 && !formatTile idx t then finish c 0x40 stBadParam t p
    else
    let old := if off == 0 then some [] else tl.shadow? kind idx
    match old with
    | none => finish c 0x40 stBadState t p
    | some b =>
      if off + chunk.length > kindMax kind then finish c 0x40 stBadParam t p
      else
        let b1 := patch b off chunk
        if shadowUsed tl kind idx + b1.length > 65536 then finish c 0x40 stBadParam t p
        else finish c 0x40 stOk t (onTile t (fun x => { x with tables := { x.tables with
          shadow := x.tables.shadow.set (kind * 1024 + idx) b1 } }) p)

/-- The commits of tile `t` for which `gone` holds end with status `st`, unwritten; their reservations with them (R31, R122,
R237). -/
def endCommits (t : Nat) (gone : Commit → Bool) (st : Byte) (p : Pkg) : Pkg :=
  forAll ((p.tile t).tables.commits.filter gone) (fun x q => finish x.ctx 0x41 st t (reserveClaims t x.kind x.idx q))
    (onCommits t (fun l => l.filter (fun x => !gone x)) p)

/-- A commit of a table is pending, its flash write not completed: SUPERSEDED (R122). -/
def supersedeCommits (t kind idx : Nat) (p : Pkg) : Pkg :=
  forAll (tableTiles t kind idx) (fun u => endCommits u (fun x => x.kind == kind && x.idx == idx && !x.written) stSuperseded) p

/-- A commit adds a machine to a group, or predicates to a state of one (R71, R238). -/
def addsMachine (tl : Tile) (x : Commit) : Bool :=
  let old := (tl.machine x.idx).image
  x.kind == 0 && !x.bytes.isEmpty
    && (old.isEmpty || machineGroup old != machineGroup x.bytes
      || (List.range (miStates x.bytes)).any (fun i => miPreds x.bytes i > (if i < miStates old then miPreds old i else 0)))

/-- The next commit of a tile whose flash write may run: the oldest one unwritten whose table has no earlier commit (R122). -/
def nextWrite (tl : Tile) : Option Commit :=
  (tl.tables.commits.find? (fun x => !x.written &&
    !tl.tables.commits.any (fun y => y.written && y.kind == x.kind && y.idx == x.idx)))

/-- The flash write of the next commit of tile `t` begins (R122, R359): what waited for it is checked again, and one that is refused
completes with the refusal, its shadow kept (R237). `n` bounds the commits passed over. -/
def startWrite (t : Nat) : Nat → Pkg → Pkg
  | 0, p => p
  | n + 1, p =>
    match nextWrite (p.tile t) with
    | none => p
    | some x =>
      if x.started then p
      else
        match flashCheck ((tableTiles t x.kind x.idx).filter (online p)) p with
        | (some st, q) => startWrite t n (endCommits t (· == x) st q)
        | (none, q) => onCommits t (fun l => l.map (fun y => if y == x then { y with started := true } else y)) q

/-- TABLE_COMMIT (R235, R359). -/
def tableCommit (c : Ctx) (t kind idx len crc : Nat) (p : Pkg) : Pkg :=
  let stop (st : Byte) (q : Pkg) : Pkg := finish c 0x41 st t q
  let tiles := (tableTiles t kind idx).filter (online p)
  match tableNameError kind idx with
  | some st => stop st p
  | none =>
    let go (b : List Byte) (q : Pkg) : Pkg :=
      let q1 := supersedeCommits t kind idx q
      let l := (q1.tile t).tables.commits
      let free := (nextWrite (q1.tile t)).isNone && !l.any (fun y => y.kind == kind && y.idx == idx)
      let x : Commit := { kind := kind, idx := idx, bytes := b, ctx := c, started := free }
      let q2 := reserveClaims t kind idx (onCommits t (fun l => l ++ [x]) (if addsMachine (q1.tile t) x then preChange t q1 else q1))
      startWrite t l.length (accept c 0x41 t q2)
    if len == 0 then
      if crc != 0 then stop stBadCheck p
      else
        match flashCheck tiles p with
        | (some st, q) => stop st q
        | (none, q) =>
          if kind == 3 && (idx == 48 || idx == 32 && permitsLoseTheir q []) then stop stBadParam q else go [] q
    else
      match (p.tile t).shadow? kind idx with
      | none => stop stBadState p
      | some b =>
        if b.length != len || (crc32c b).toNat != crc then stop stBadCheck p
        else if !tableValid p t kind idx b || claimConflict p t kind idx b then stop stBadParam p
        else if (tableTiles t kind idx).any (fun u => areaUsed p u kind idx + b.length > kindArea kind) then stop stBadParam p
        else
          match flashCheck tiles p with
          | (some st, q) => stop st q
          | (none, q) => go b q

/-- Commits that every user has switched to post OK (R236), and the next flash write begins (R122). -/
def finishCommits (t : Nat) (p : Pkg) : Pkg :=
  let done (x : Commit) : Bool := x.written && x.waiting.isEmpty
  startWrite t (p.tile t).tables.commits.length (forAll ((p.tile t).tables.commits.filter done) (fun x => finish x.ctx 0x41 stOk t)
    (onCommits t (fun l => l.filter (fun x => !done x)) p))

/-- A slot that uses a region table has a new one: its next evaluation reseeds (R222). -/
def reseedSlot (t n idx : Nat) (p : Pkg) : Pkg :=
  if dLaw ((p.tile t).slot n).desc != 0 && dGain ((p.tile t).slot n).desc == idx then
    onTile t (Tile.onSlot n (fun s => { s with reseed := true })) p
  else p

/-- A user of one commit switches: a machine to its image, with its items (R256), a slot to its region table (R222, R236,
R257). -/
def switchUser (t : Nat) (u : TUser) (x : Commit) (p : Pkg) : Pkg :=
  match u with
  | .machine m =>
    if x.kind != 0 then p
    else
      let q := reserveClaims t 0 m (switchMachine t m x.bytes p)
      if x.bytes.isEmpty then q else machineItems t m (stateMs ((q.tile t).machine m) q.now) q
  | .slot n => reseedSlot t n x.idx p
  | .port _ => enforceClaims t 3 x.idx x.bytes p
  | .permits => p
  | .panel => p

/-- User `u` of tile `t` switches to every table that waits for it (R236). -/
def switchAll (t : Nat) (u : TUser) (p : Pkg) : Pkg :=
  let mine (x : Commit) : Bool := x.written && x.waiting.contains u
  let p1 := forAll ((p.tile t).tables.commits.filter mine) (switchUser t u) p
  finishCommits t (onCommits t (fun l => l.map (fun x => if mine x then { x with waiting := x.waiting.filter (· != u) } else x)) p1)

/-- The rate group at whose boundary machine `m` switches: that of its image in force, else that of the new one (R534). -/
def switchGroup (tl : Tile) (m : Nat) (new : List Byte) : Nat :=
  let img := (tl.machine m).image
  machineGroup (if img.isEmpty then new else img)

/-- A user must wait for a boundary of its group, or for VCORE (R71, R236, R534). -/
def userWaits (p : Pkg) (t : Nat) (u : TUser) (x : Commit) : Bool :=
  let tl := p.tile t
  match u with
  | .machine m =>
    if x.kind == 0 then
      (tl.group (switchGroup tl m x.bytes)).enabled && (!(tl.machine m).image.isEmpty || (tl.group (machineGroup x.bytes)).enabled)
        || (addsMachine tl x && (tl.group (machineGroup x.bytes)).enabled && !coreSettled p t)
    else (tl.group (machineGroup (tl.machine m).image)).enabled
  | .slot n => (tl.group (dGroup (tl.slot n).desc)).enabled
  | .port _ => true
  | .permits => true
  | .panel => true

/-- The users of a table (R236, R263): of a waveform, the update that runs with it and keeps it (R483). -/
def tableUsers (p : Pkg) (t kind idx : Nat) (b : List Byte) : List TUser :=
  let tl := p.tile t
  match kind with
  | 0 => if b.isEmpty && (tl.machine idx).image.isEmpty then [] else [.machine idx]
  | 1 =>
    ((tl.machines.filter (fun q => (machineCurves q.2.image).contains idx)).map (fun q => TUser.machine q.1))
      ++ ((tl.slots.filter (fun q => dLaw q.2.desc != 0 && dGain q.2.desc == idx)).map (fun q => TUser.slot q.1))
  | 2 => []
  | _ =>
    if idx ≤ 3 then
      let r := if idx % 2 == 0 then p.sh.bus0 else p.sh.bus1
      if r.serving.isSome || r.polling.isSome then [.port (idx % 2)] else []
    else if idx == 32 && t ≤ 1 then [.permits]
    else if t == 0 && p.sh.panel.running.isSome && idx == 16 + p.sh.panel.runWave then [.panel]
    else []

/-- CHE sub 0 of the channels whose curve was erased goes OFFLINE (R239). -/
def dropCurve (t idx : Nat) (p : Pkg) : Pkg :=
  forAll ((p.tile t).chans.filter (fun q => curveMode q.2.mode && q.2.curve == idx)) (fun q => goOffline t (key 2 (8 * q.1))) p

/-- Bytes become the active table on a tile (R233). -/
def setActive (kind idx : Nat) (b : List Byte) (tl : Tile) : Tile :=
  { tl with tables := { tl.tables with
      active := if b.isEmpty then tl.tables.active.erase (kind * 1024 + idx) else tl.tables.active.set (kind * 1024 + idx) b } }

/-- Effects at once of a table that is written: calendars are evaluated, channels run under a new seal (R156, R236). -/
def atWrite (t : Nat) (x : Commit) (p : Pkg) : Pkg :=
  match x.kind with
  | 1 => if x.bytes.isEmpty then dropCurve t x.idx p else p
  | 2 => runCalendar t x.idx (enforceClaims t 2 x.idx x.bytes p)
  | 3 => if x.idx == 48 then settleChans t p else if x.idx ≤ 3 && x.waiting.isEmpty then enforceClaims t 3 x.idx x.bytes p else p
  | _ => p

/-- A table commit is denied at its commit instant, when its commit record is due (R472): the old table and the shadow stay. -/
def denyTable (t : Nat) (x : Commit) (p : Pkg) : Pkg :=
  let p1 := onCommits t (fun l => l.filter (fun y => y != x)) p
  startWrite t (p1.tile t).tables.commits.length (denyCommit t 0x41 x.ctx (reserveClaims t x.kind x.idx p1))

/-- The commit record of `x` is written on tile `t` (R236, R358, R472). VCORE is raised for one that adds a machine then, too, where
the commits before it have changed what it adds to (R71, R238). -/
def commitWritten (t : Nat) (x : Commit) (p : Pkg) : Pkg :=
  if deniedNow p t 0x41 x.ctx then denyTable t x p
  else
  let old := (p.tile t).table x.kind x.idx
  let p := if addsMachine (p.tile t) x then preChange t p else p
  let p1 := forAll (tableTiles t x.kind x.idx) (fun u => onTile u (setActive x.kind x.idx x.bytes)) p
  let users := tableUsers p t x.kind x.idx x.bytes
  let now := users.filter (fun u => !userWaits p t u x)
  let p2 := onCommits t (fun l => l.map (fun y => if y == x then { y with written := true, old := old, waiting := users } else y)) p1
  finishCommits t (forAll now (switchAll t) (atWrite t { x with waiting := users } p2))

/-- TABLE_READ (R122). -/
def tableRead (c : Ctx) (t kind copy idx off len : Nat) (p : Pkg) : Pkg :=
  let tl := p.tile t
  if kind > 3 || copy > 1 then finish c 0x42 stBadParam t p
  else if !indexOk kind idx then finish c 0x42 stBadHandle t p
  else if len < 4 || len > 1008 || len % 4 != 0 then finish c 0x42 stBadParam t p
  else
    let b : Option (List Byte) := if copy == 1 then tl.shadow? kind idx
      else if (tl.table kind idx).isEmpty then none else some (tl.table kind idx)
    match b with
    | none => finish c 0x42 stBadState t p
    | some b => if off + len > b.length then finish c 0x42 stBadParam t p else reply c 0x42 t (slice b off len) p

/-- The commits of a tile at its offline mark complete TILE_OFFLINE. A written one stays active, and its users start with it; the
reservations of the others end, on every tile (R31, R236). -/
def stopCommits (t by_ : Nat) (p : Pkg) : Pkg :=
  let l := (p.tile t).tables.commits
  let p1 := onTile t (fun tl => { tl with tables := { tl.tables with commits := [], shadow := [] } }) p
  forAll l (fun x q =>
    let q1 := if !x.written then reserveClaims t x.kind x.idx q
      else forAll x.waiting (fun u a =>
        match u with
        | .machine m => if x.kind == 0 then switchMachine t m x.bytes a else a
        | .slot n => reseedSlot t n x.idx a
        | .port _ => enforceClaims t 3 x.idx x.bytes a
        | .permits => a
        | .panel => a) q
    finish x.ctx 0x41 stTileOffline by_ q1) p1

/-- The table commit, with its tile, whose page tile `u` is writing: one of its own, or of a table of the pair committed at the other
tile (R263). -/
def writeUnderWay (p : Pkg) (u : Nat) : Option (Nat × Commit) :=
  (List.range p.n).findSome? (fun v => (nextWrite (p.tile v)).bind (fun x =>
    if (tableTiles v x.kind x.idx).contains u then some (v, x) else none))

/-- The stop-bath threshold stops the table writes to tile `t` that have not been made, all but `keep`: SUPPLY_LOW, and the
shadow stays (R237, R361). -/
def lowCommits (t : Nat) (keep : Option (Nat × Commit)) (p : Pkg) : Pkg :=
  forAll (List.range p.n) (fun v => endCommits v (fun x => !x.written && (tableTiles v x.kind x.idx).contains t && keep != some (v, x)) stSupplyLow) p

end Sys2Proof.Machine
end

