-- ==== Sys2Proof/Machine/BusOps.lean ====
section
/-!
DEFINITION. What the building bus ports share (R426 to R446): their configuration, faults and counters, the queue of host
frames, the conversion of registers, and the frames of Modbus RTU.
-/

namespace Sys2Proof.Machine

/-- The number of an RS-485 port. -/
def rsNo : RsPort → Nat
  | .bus0 => 0
  | .bus1 => 1

/-- A frame is counted in RX_ERR; 16 within 1 s set LINE (R444). -/
def countRxErr (b : BusPort) (p : Pkg) : Pkg :=
  let p1 := onBusStatus b (fun s => { s with
    rxErr := incSat s.rxErr, errAt := (s.errAt.filter (fun a => p.now < a + secTicks)) ++ [p.now] }) p
  if 16 ≤ (busStatusOf p1 b).errAt.length then busFault b 3 p1 else p1

/-- Counters of a port (R444). -/
def countRxOk (b : BusPort) : Pkg → Pkg := onBusStatus b (fun s => { s with rxOk := incSat s.rxOk })
def countDropped (b : BusPort) : Pkg → Pkg := onBusStatus b (fun s => { s with dropped := incSat s.dropped })
def countAbandoned (b : BusPort) : Pkg → Pkg := onBusStatus b (fun s => { s with abandoned := incSat s.abandoned })
def countA (b : BusPort) : Pkg → Pkg := onBusStatus b (fun s => { s with specA := incSat s.specA })
def countB (b : BusPort) : Pkg → Pkg := onBusStatus b (fun s => { s with specB := incSat s.specB })
def countTx (b : BusPort) : Pkg → Pkg := onBusStatus b (fun s => { s with txCount := incSat s.txCount })

/-- Fields of an RS-485 configuration record (R426). -/
def rcMode (r : BitVec 224) : Nat := bits r 7 0
def rcBaud (r : BitVec 224) : Nat := bits r 63 32
def rcAddress (r : BitVec 224) : Nat := bits r 71 64
def rcMaxMaster (r : BitVec 224) : Nat := bits r 79 72
def rcMaxInfo (r : BitVec 224) : Nat := bits r 87 80
def rcWait (r : BitVec 224) : Nat :=
  let w := bits r 111 96
  if w == 0 then (if rcMode r == 1 then 10 else 50) else w
def rcTimeout (r : BitVec 224) : Nat := if bits r 127 112 == 0 then 200 else bits r 127 112
def rcRetries (r : BitVec 224) : Nat := bits r 135 128

/-- An RS-485 configuration record is in range (R426). -/
def rsCfgOk (r : BitVec 224) : Bool :=
  let wait := bits r 111 96
  let parity := bits r 9 8
  let common := bits r 31 11 == 0 && bits r 95 88 == 0 && bits r 223 136 == 0 && parity != 3
  common && match rcMode r with
  | 0 => bits r 79 72 == 0 && bits r 87 80 == 0 && bits r 127 112 == 0 && rcRetries r == 0
  | 1 => bits r 10 8 == 0 && [9600, 19200, 38400, 57600, 76800, 115200].contains (rcBaud r) && rcAddress r ≤ 127
      && 1 ≤ bits r 79 72 && bits r 79 72 ≤ 127 && rcAddress r ≤ bits r 79 72 && 1 ≤ rcMaxInfo r && wait ≤ 200
      && bits r 127 112 == 0 && rcRetries r == 0
  | 2 => 1200 ≤ rcBaud r && rcBaud r ≤ 1000000 && 1 ≤ rcAddress r && rcAddress r ≤ 247 && bits r 87 72 == 0 && wait ≤ 1000
      && bits r 127 112 == 0 && rcRetries r == 0
  | 3 => 1200 ≤ rcBaud r && rcBaud r ≤ 1000000 && rcAddress r == 0 && bits r 87 72 == 0 && wait == 0
      && (bits r 127 112 == 0 || (10 ≤ bits r 127 112 && bits r 127 112 ≤ 10000)) && rcRetries r ≤ 7
  | _ => false

/-- Fields of a T1S configuration record (R426). -/
def tcOn (r : BitVec 224) : Bool := bits r 7 0 == 1
def tcPlca (r : BitVec 224) : Bool := bit r 8
def tcBcast (r : BitVec 224) : Bool := bit r 9
def tcPromisc (r : BitVec 224) : Bool := bit r 10
def tcNode (r : BitVec 224) : Nat := bits r 23 16

/-- A T1S configuration record is in range (R426). -/
def t1sCfgOk (r : BitVec 224) : Bool :=
  let count := bits r 31 24
  bits r 223 113 == 0 && bits r 15 11 == 0 && match bits r 55 48 with
  | 0 => bits r 7 0 ≤ 1 && tcNode r ≤ 31 && bits r 47 40 ≤ 7 && bits r 112 56 == 0
      && (if tcPlca r && tcNode r == 0 then 1 ≤ count && count ≤ 32 else count == 0)
  | 1 => bits r 47 0 == 0 && bits r 63 56 ≤ 15
  | _ => false

/-- This port follows a PLCA coordinator (R444). -/
def followsPlca (t : T1sState) : Bool := tcPlca t.cfg && tcNode t.cfg != 0

/-- BUS_SENDs of a port that a new configuration or an abandoned frame ends. -/
def failSends (l : List (Ctx × List Byte)) (st : Byte) (p : Pkg) : Pkg := forAll l (fun x => finish x.1 0x81 st p.lead) p

/-- The host frames of an RS-485 port, the one being sent first. -/
def rsSends (r : RsState) : List (Ctx × List Byte) :=
  (match r.sending with
   | some (some c, b) => [(c, b)]
   | _ => []) ++ r.queue

/-- The T1S port takes a new configuration (R427, R445); its filters stay. -/
def configT1s (rec : BitVec 224) (p : Pkg) : Pkg :=
  let r := p.sh.t1s
  onT1s (fun r => { cfg := rec, status := { r.status with faults := 0 }, filters := r.filters })
    (failSends (r.sending.toList ++ r.queue) stBadState p)

/-- One address filter is written (R426). -/
def writeFilter (d : BitVec 224) (p : Pkg) : Pkg :=
  let i := bits d 63 56
  let fs (l : Tbl (BitVec 48)) : Tbl (BitVec 48) := if bit d 112 then l.set i (d.extractLsb' 64 48) else l.erase i
  onT1s (fun r => { r with filters := fs r.filters }) p

/-- How long `n` characters last on an RS-485 port, in whole ticks (R426): start, data, parity and stop bits. -/
def rsTicks (cfg : BitVec 224) (n : Nat) : Nat :=
  n * (10 + (if bits cfg 9 8 == 0 then 0 else 1) + b2n (bit cfg 10)) * secTicks / Nat.max (rcBaud cfg) 1

/-- The number of a port among the bandwidth sources (R504). -/
def busSource : BusPort → Nat
  | .rs .bus0 => 0x13
  | .rs .bus1 => 0x14
  | .t1s => 0x15

/-- A frame that began `k` ticks ago was on the line as a handover cut off the frames under way (R446). -/
def wasCut (p : Pkg) (k : Nat) : Bool := p.sh.busCut.any (fun c => p.now < c + k && c < p.now)

/-- STATE of a port (R444): 0 off, 1 waiting for idle, 2 running. -/
def portState (on running : Bool) : Nat := if !on then 0 else if running then 2 else 1

/-- The bus port status record (R444). -/
def busRecord (mode state : Nat) (s : BusStatus) (b : Word) : List Byte :=
  le 1 mode ++ le 1 state ++ le 2 s.faults.toNat ++ le 4 s.rxOk.toNat ++ le 4 s.txCount.toNat ++ le 4 s.rxErr.toNat
    ++ le 4 s.abandoned.toNat ++ le 4 s.dropped.toNat ++ le 4 s.specA.toNat ++ le 4 b.toNat

/-- The status record of a port; a client's SPEC_B counts the items now failing. -/
def rsRecord (r : RsState) : List Byte :=
  busRecord r.mode.toNat (portState (r.mode != 0) r.running) r.status (if r.mode == 3 then w32 r.failing.length else r.status.specB)
def t1sRecord (r : T1sState) : List Byte :=
  busRecord (bits r.cfg 7 0) (portState (tcOn r.cfg) r.running) r.status r.status.specB

/-- The CRC-16 of Modbus RTU. -/
def modbusCrcBit (c : Nat) : Nat := if c % 2 == 1 then (c / 2) ^^^ 0xA001 else c / 2
def modbusCrc (bs : List Byte) : Nat :=
  bs.foldl (fun c b => (List.range 8).foldl (fun a _ => modbusCrcBit a) (c ^^^ b.toNat)) 0xFFFF

/-- A frame with its CRC, low byte first, and whether a received one has it right. -/
def withCrc (bs : List Byte) : List Byte := bs ++ le 2 (modbusCrc bs)
def crcRight (frame : List Byte) : Bool :=
  4 ≤ frame.length && leAt frame (frame.length - 2) 2 == modbusCrc (frame.take (frame.length - 2))

/-- A big-endian 16-bit field of a Modbus frame. -/
def be16At (b : List Byte) (i : Nat) : Nat := 256 * leAt b i 1 + leAt b (i + 1) 1
def be16 (v : Nat) : List Byte := [BitVec.ofNat 8 (v / 256), BitVec.ofNat 8 v]

/-- The bits of a value of one or two registers, in the order of its type (R433). -/
def joinRegs (ty : Nat) (rs : List Nat) : Nat :=
  let a := rs.getD 0 0
  let b := rs.getD 1 0
  if regCount ty == 1 then a else if ty ≤ 4 then 65536 * a + b else 65536 * b + a

/-- The registers of a value, in the order of its type (R433). -/
def splitRegs (ty v : Nat) : List Nat :=
  if regCount ty == 1 then [v % 65536]
  else if ty ≤ 4 then [v / 65536 % 65536, v % 65536] else [v % 65536, v / 65536 % 65536]

/-- A type is signed, is binary32 (R433). -/
def tySigned (ty : Nat) : Bool := ty == 1 || ty == 3 || ty == 6
def tyFloat (ty : Nat) : Bool := ty == 4 || ty == 7

/-- The integer that the bits of a register value spell by type. -/
def regInt (ty r : Nat) : Int :=
  if tySigned ty then (if regCount ty == 1 then sgn 16 r else sgn 32 r) else r

/-- Register to value (R433): the exact number before saturation, none for a NaN. -/
def regExact (ty sc r : Nat) : Option Int :=
  let e := sgn 8 sc
  if tyFloat ty then f32ToQ (w32 r)
  else if e ≥ 0 then some (regInt ty r * 10 ^ e.toNat * 65536)
  else some (divRound (regInt ty r * 65536) (10 ^ (-e).toNat))

/-- A binary32 register saturates on conversion (R433, R436). -/
def floatSaturates (r : Nat) : Bool :=
  let lim : Word := 0x47000000
  f32Le lim (w32 r) || f32Lt (w32 r) (f32Neg lim)

/-- Register to value (R433), with whether it saturated; none for a NaN. -/
def regToValue (ty sc : Nat) (raw : Bool) (r : Nat) : Option (Word × Bool) :=
  if raw then some (wordOf (regInt ty r), false)
  else (regExact ty sc r).map (fun x => (wordOf (sat32 x), if tyFloat ty then floatSaturates r else sat32 x != x))

/-- The range of an integer type. -/
def tyLo (ty : Nat) : Int := if ty == 1 then -32768 else if tySigned ty then -2147483648 else 0
def tyHi (ty : Nat) : Int := if ty == 0 then 65535 else if ty == 1 then 32767 else if tySigned ty then 2147483647 else 4294967295

/-- Value to register (R433); `v` is Q16.16. -/
def valueToReg (ty sc : Nat) (v : Int) : Nat :=
  let e := sgn 8 sc
  if tyFloat ty then (f32FromInt v 16).toNat
  else
    let x := if e ≥ 0 then divRound v (65536 * 10 ^ e.toNat) else divRound (v * 10 ^ (-e).toNat) 65536
    (wordOf (clampInt (tyLo ty) (tyHi ty) x)).toNat

/-- The Q16.16 reading of a record of a class (R202, R433); what a NaN gives no rule says. -/
def pointQ (cls : Nat) (w : Word) (p : Pkg) : Int × Pkg :=
  if cls == 8 || cls == 9 then
    match f32ToQ w with
    | some x => (x, p)
    | none => let (v, q) := takeFree p; (v.toInt, q)
  else (w.toInt, p)

/-- The registers that a record gives for a type (R433). -/
def recRegs (ty sc : Nat) (raw : Bool) (cls : Nat) (r : Rec) (p : Pkg) : List Nat × Pkg :=
  if ty == 8 then ([r.q.code], p)
  else
    let (v, q) := pointQ cls r.value p
    (splitRegs ty (if raw then (wordOf v).toNat else valueToReg ty sc v), q)

/-- The policy port of an RS-485 port (R469). -/
def busPolicyPort (b : RsPort) : Nat := 2 + rsNo b

/-- A port's policy denies an access at its target tile `u` (R469, R471, R512). -/
def busDenied (p : Pkg) (u : Nat) (b : RsPort) (need : Nat) (h : Handle) : Bool :=
  handleClass h == 0xE || !granted ((p.tile u).policy (busPolicyPort b)) need h

/-- The map (list 0) or polling list (list 1) of a port in force (R263). -/
def portTable (p : Pkg) (list : Nat) (b : RsPort) : List Byte := (p.tile p.lead).table 3 (2 * list + rsNo b)

/-- The record that the source of a write item holds now, for its trigger (R440). -/
def sourceNow (p : Pkg) (e : List Byte) : Word × Quality :=
  let h := piSource p e
  let r := seen p ((localOf p (handleTile h)).getD p.lead) h
  (r.value, r.q)

/-- The sources of the write items with ON_CHANGE as a client that starts, or switches to a new list, finds them (R440): a change
is one from there on. -/
def noteSources (b : RsPort) (p : Pkg) : Pkg :=
  let list := portTable p 1 b
  onRs b (fun r => { r with
    seen := (List.range (plCount list)).filterMap (fun i =>
      let e := plItem list i
      if piServer e != 0 && piWrites e && piOnChange e then some (i, sourceNow p e) else none) }) p

/-- The pins of an RS-485 port (R427, R428): BUSn_DE is high while a frame leaves, and BUSn_TX rests high; what a frame puts on
BUSn_TX is its characters. -/
def busDe (r : RsState) : Bool := r.mode != 0 && r.sending.isSome
def busTxRests (r : RsState) : Bool := !busDe r

/-- A table switch of the port that waited for the end of a transaction (R263). -/
def portSwitch (b : RsPort) (p : Pkg) : Pkg :=
  let q := forAll [0, 1] (fun t => switchAll t (.port (rsNo b))) p
  if portTable q 1 b == portTable p 1 b then q else noteSources b q

/-- An RS-485 port takes a new configuration (R427, R445): its host frames and its transaction end, and it waits for an idle
line. -/
def configRs (b : RsPort) (rec : BitVec 224) (p : Pkg) : Pkg :=
  let r := rsOf p b
  portSwitch b (onRs b (fun r => { cfg := rec, mode := BitVec.ofNat 8 (rcMode rec), status := { r.status with faults := 0 } })
    (failSends (rsSends r) stBadState p))

end Sys2Proof.Machine
end

