-- ==== Sys2Proof/Machine/Mstp.lean ====
section
/-!
DEFINITION. The MS/TP master node of an RS-485 port (R429 to R431): frames with their CRCs, and the token. The rules name clause 9
of ANSI/ASHRAE 135 for it; what that clause gives is PRESUMED.
-/

namespace Sys2Proof.Machine

/-- The header CRC-8 of MS/TP, over frame type, destination, source and length (R429). -/
def crc8Bit (c : Nat) : Nat := if c % 2 == 1 then (c / 2) ^^^ 0x81 else c / 2
def headerCrc (bs : List Byte) : Byte :=
  BitVec.ofNat 8 (bs.foldl (fun c b => (List.range 8).foldl (fun a _ => crc8Bit a) (c ^^^ b.toNat)) 0xFF ^^^ 0xFF)

/-- The data CRC-16 of MS/TP (R429). -/
def crc16Bit (c : Nat) : Nat := if c % 2 == 1 then (c / 2) ^^^ 0x8408 else c / 2
def dataCrc (bs : List Byte) : BitVec 16 :=
  BitVec.ofNat 16 (bs.foldl (fun c b => (List.range 8).foldl (fun a _ => crc16Bit a) (c ^^^ b.toNat)) 0xFFFF ^^^ 0xFFFF)

/-- The header of a frame from its type to its length. -/
def mstpHeader (ftype dst src : Byte) (len : Nat) : List Byte := [ftype, dst, src] ++ be16 len

/-- A frame as it goes on the line (R430): preamble, header and its CRC, then the data and theirs. -/
def mstpWire (ftype dst src : Byte) (data : List Byte) : List Byte :=
  let h := mstpHeader ftype dst src data.length
  [0x55, 0xFF] ++ h ++ [headerCrc h] ++ (if data.isEmpty then [] else data ++ le 2 (dataCrc data).toNat)

/-- The characters of a received frame. -/
def frameChars (f : MstpFrame) : Nat := 8 + (if f.data.isEmpty then 0 else f.data.length + 2)

/-- A received frame has both CRCs right (R429). -/
def frameSound (f : MstpFrame) : Bool :=
  headerCrc (mstpHeader f.ftype f.dst f.src f.data.length) == f.headerCrc && (f.data.isEmpty || dataCrc f.data == f.dataCrc)

/-- Frame types of MS/TP (R429 to R431). -/
def ftToken : Byte := 0x00
def ftPoll : Byte := 0x01
def ftPollReply : Byte := 0x02
def ftTestRequest : Byte := 0x03
def ftTestResponse : Byte := 0x04
def ftExpecting : Byte := 0x05
def ftNotExpecting : Byte := 0x06
def ftPostponed : Byte := 0x07

/-- This station, and the station after one. -/
def station (r : RsState) : Nat := rcAddress r.cfg
def stationAfter (r : RsState) (n : Nat) : Nat := (n + 1) % (rcMaxMaster r.cfg + 1)

/-- Tokens from one poll for new masters to the next; how long a reply, and a sign of a token user or an answer to a poll, may
take. -/
def pollEvery : Nat := 50
def replyTicks : Nat := 255 * msTicks
def usageTicks : Nat := 20 * msTicks

/-- The node changed by `f`. -/
def onNode (f : MstpNode → MstpNode) (r : RsState) : RsState := { r with mstp := f r.mstp }

/-- The port sends a frame of its own. -/
def ownFrame (ftype dst : Byte) (data : List Byte) (r : RsState) : RsState :=
  { r with sending := some (none, mstpWire ftype dst (BitVec.ofNat 8 (station r)) data) }

/-- The port sends a host frame: type, destination, data (R430). -/
def hostFrame (x : Ctx × List Byte) (r : RsState) : RsState :=
  { r with sending := some (some x.1, mstpWire (x.2.headD 0) (x.2.getD 1 0) (BitVec.ofNat 8 (station r)) (x.2.drop 2)) }

/-- The token goes to the next station, and a poll for a master to station `n`. -/
def passToken (r : RsState) : RsState :=
  ownFrame ftToken (BitVec.ofNat 8 r.mstp.next) [] (onNode (fun m => { m with phase := .passing }) r)
def pollMaster (n : Nat) (r : RsState) : RsState :=
  ownFrame ftPoll (BitVec.ofNat 8 n) [] (onNode (fun m => { m with phase := .polling, poll := n, retry := 0 }) r)

/-- A node that looks for a successor from the station after `n` on. -/
def seekFrom (n count : Nat) (r : RsState) : RsState :=
  pollMaster (stationAfter r n) (onNode (fun m => { m with next := station r, count := count }) r)

/-- A node with the token sends its next host frame, up to MAX_INFO of them; then it polls for new masters where that is due, passes
the token on, or, as the only master, uses it again (R429, R430). -/
def useToken : Nat → RsState → RsState
  | 0, r => r
  | fuel + 1, r =>
    let m := r.mstp
    match (if 0 < m.left then r.queue else []) with
    | x :: rest => hostFrame x (onNode (fun m => { m with phase := .using, left := m.left - 1 }) { r with queue := rest })
    | [] =>
      if !m.sole && m.next == station r then seekFrom (station r) m.count r
      else if !m.sole && (m.count < pollEvery - 1 || m.next == stationAfter r (station r)) then
        passToken (onNode (fun m => { m with count := m.count + 1, retry := 0 }) r)
      else if m.count < pollEvery - 1 then
        useToken fuel (onNode (fun m => { m with count := m.count + 1, left := rcMaxInfo r.cfg }) r)
      else if stationAfter r m.poll != m.next then pollMaster (stationAfter r m.poll) r
      else if m.sole then seekFrom m.next 1 r
      else passToken (onNode (fun m => { m with poll := station r, count := 1, retry := 0 }) r)

/-- The node uses its token from here on; a sole master may count up to the next poll first. -/
def goOn (r : RsState) : RsState := useToken (pollEvery + 2) (onNode (fun m => { m with phase := .using, until_ := none }) r)

/-- The station has the token (R429): it may send up to MAX_INFO frames. -/
def takeToken (r : RsState) : RsState := goOn (onNode (fun m => { m with left := rcMaxInfo r.cfg, sole := false }) r)

/-- The node is idle. -/
def restNode (r : RsState) : RsState := onNode (fun m => { m with phase := .idle, until_ := none }) r

/-- What the node waits for has not come (R429, R430). -/
def nodeTimeout (r : RsState) : RsState :=
  let m := r.mstp
  let r0 := onNode (fun m => { m with until_ := none }) r
  match m.phase with
  | .idle | .using => r0
  | .waiting _ => goOn (onNode (fun m => { m with left := 0 }) r0)
  | .passing => if m.retry < 1 then passToken (onNode (fun m => { m with retry := m.retry + 1 }) r0) else seekFrom m.next 0 r0
  | .polling =>
    if m.sole then goOn (onNode (fun m => { m with left := rcMaxInfo r.cfg }) r0)
    else if m.next != station r then passToken (onNode (fun m => { m with retry := 0 }) r0)
    else if stationAfter r m.poll != station r then pollMaster (stationAfter r m.poll) r0
    else goOn (onNode (fun m => { m with sole := true, left := rcMaxInfo r.cfg }) r0)

/-- An invalid frame has come: it ends the wait for a reply or for an answer to a poll, and shows a token user. -/
def nodeInvalid (r : RsState) : RsState :=
  match r.mstp.phase with
  | .idle | .using => r
  | .passing => restNode r
  | .waiting _ => goOn r
  | .polling => nodeTimeout r

/-- A valid frame has come: the reply or the answer that the node waits for, or a sign that another node has the token. -/
def nodeHears (f : MstpFrame) (r : RsState) : RsState :=
  let mine := f.dst.toNat == station r
  match r.mstp.phase with
  | .idle | .using => r
  | .passing => restNode r
  | .waiting _ =>
    if mine && (f.ftype == ftTestResponse || f.ftype == ftNotExpecting || f.ftype == ftPostponed) then goOn r else restNode r
  | .polling =>
    if mine && f.ftype == ftPollReply then
      passToken (onNode (fun m => { m with next := f.src.toNat, poll := station r, count := 0, retry := 0, sole := false }) r)
    else restNode r

/-- The node acts on frames that are meant for it: it waits for nothing else. -/
def nodeFree (r : RsState) : Bool := r.mstp.phase == .idle || r.mstp.phase == .passing

/-- The token must be generated (R429): the node polls for the station after its own. -/
def generateToken (r : RsState) : RsState := seekFrom (station r) 0 r

/-- A frame of the node has left, or was cut off, at tick `now`: what it waits for then. -/
def nodeSent (now : Nat) (host : Bool) (ftype dst : Byte) (r : RsState) : RsState :=
  match r.mstp.phase with
  | .passing | .polling => onNode (fun m => { m with until_ := some (now + usageTicks) }) r
  | .using =>
    if host && ftype == ftExpecting && dst != 255 then
      onNode (fun m => { m with phase := .waiting dst, until_ := some (now + replyTicks) }) r
    else goOn r
  | .idle | .waiting _ => r

/-- A node as a port starts with it (R427, R446). -/
def freshNode (r : RsState) : RsState := onNode (fun _ => { next := station r, poll := station r }) r

/-- The waits of a node that are over by tick `now`. -/
def nodeDue (now : Nat) (r : RsState) : RsState :=
  if r.mode != 1 || !r.running || r.sending.isSome then r
  else match r.mstp.until_ with
    | some d => if d ≤ now then nodeTimeout r else r
    | none => r

end Sys2Proof.Machine
end

