-- ==== Sys2Proof/Machine/Plca.lean ====
section
/-!
DEFINITION. The sending of the T1S port (R441, R442): frames with their FCS, and the transmit opportunities of PLCA. The rules name
clause 148 of IEEE 802.3cg for PLCA; what that clause gives is PRESUMED.
-/

namespace Sys2Proof.Machine

/-- The FCS of an Ethernet frame (R442). -/
def fcsBit (c : BitVec 32) : BitVec 32 := if c.getLsbD 0 then (c >>> 1) ^^^ 0xEDB88320#32 else c >>> 1
def fcsByte (c : BitVec 32) (b : Byte) : BitVec 32 :=
  fcsBit (fcsBit (fcsBit (fcsBit (fcsBit (fcsBit (fcsBit (fcsBit (c ^^^ b.setWidth 32))))))))
def fcsOf (bs : List Byte) : BitVec 32 := bs.foldl fcsByte 0xFFFFFFFF#32 ^^^ 0xFFFFFFFF#32

/-- A frame padded to 60 bytes, with its FCS (R442). -/
def withFcs (f : List Byte) : List Byte :=
  let b := f ++ zeros (60 - f.length)
  b ++ le 4 (fcsOf b).toNat

/-- Bit times of 10 Mbit/s in whole ticks, and how long a frame lasts with its preamble. -/
def bitTicks (n : Nat) : Nat := (16 * n + 4) / 5
def t1sTicks (len : Nat) : Nat := bitTicks (8 * (8 + len))

/-- A transmit opportunity, a BEACON and the burst timer in ticks (R426, R441). -/
def toTicks (cfg : BitVec 224) : Nat := bitTicks (if bits cfg 39 32 == 0 then 32 else bits cfg 39 32)
def beaconTicks : Nat := bitTicks 20
def burstTicks : Nat := bitTicks 128

/-- Node count and burst count of a T1S configuration record (R426). -/
def tcCount (r : BitVec 224) : Nat := bits r 31 24
def tcBurst (r : BitVec 224) : Nat := bits r 47 40

/-- PLCA decides when the port sends (R441, R444); the port leads it. -/
def plcaOn (t : T1sState) : Bool := tcPlca t.cfg && !t.fallback
def plcaLeads (t : T1sState) : Bool := tcPlca t.cfg && tcNode t.cfg == 0

/-- The opportunity under way at tick `now` while nothing is sent (R441): they follow each other, and on the coordinator a BEACON
comes after the last. -/
def plcaRoll (now : Nat) (t : T1sState) : T1sState :=
  let c := t.plca
  let w := toTicks t.cfg
  if now < c.at_ || (c.beacon && now < c.at_ + beaconTicks) then t
  else
    let c := if c.beacon then { c with beacon := false, id := 0, at_ := c.at_ + beaconTicks } else c
    let rest := (tcCount t.cfg - c.id) * w
    let e := now - c.at_
    if !plcaLeads t || e < rest then { t with plca := { c with id := c.id + e / w, at_ := c.at_ + e / w * w } }
    else
      let cycle := beaconTicks + tcCount t.cfg * w
      let k := (e - rest) / cycle
      let start := c.at_ + rest + k * cycle
      let c := { c with beacons := c.beacons + k + 1 }
      if now < start + beaconTicks then { t with plca := { c with beacon := true, id := 0, at_ := start } }
      else
        let j := (now - start - beaconTicks) / w
        { t with plca := { c with beacon := false, id := j, at_ := start + beaconTicks + j * w } }

/-- The tick at which the port's next opportunity begins (R441); a follower past its own waits for the next BEACON. -/
def ownTurn (t : T1sState) : Option Nat :=
  let c := t.plca
  let node := tcNode t.cfg
  if plcaLeads t then
    some (if c.beacon then c.at_ + beaconTicks else if c.id == 0 then c.at_
      else c.at_ + (tcCount t.cfg - c.id) * toTicks t.cfg + beaconTicks)
  else if c.id ≤ node then some (c.at_ + (node - c.id) * toTicks t.cfg) else none

/-- The next frame of the queue begins. -/
def startT1s (burst : Nat) (t : T1sState) : T1sState :=
  { t with sending := t.queue.head?.map (fun x => (x.1, withFcs x.2)), queue := t.queue.drop 1, collisions := 0
           plca := { t.plca with burst := burst } }

/-- A T1S port that sends nothing begins its next frame as soon as it may (R441, R442): in CSMA/CD at once, under PLCA in its own
opportunity, or within its burst. -/
def beginT1s (now : Nat) (t : T1sState) : T1sState :=
  if !t.running || t.sending.isSome || t.queue.isEmpty then t
  else if !plcaOn t then startT1s 0 t
  else if 0 < t.plca.burst && now < t.plca.burstEnd then startT1s (t.plca.burst - 1) t
  else match ownTurn t with
    | some a => if a ≤ now then startT1s (tcBurst t.cfg) (plcaRoll a t) else t
    | none => t

/-- A frame joins the queue of the port. -/
def queueT1s (now : Nat) (x : Ctx × List Byte) (t : T1sState) : T1sState :=
  let t1 := if plcaOn t && t.sending.isNone && t.queue.isEmpty then plcaRoll now t else t
  beginT1s now { t1 with queue := t1.queue ++ [x] }

/-- The port's own frame has ended at tick `now`: under PLCA its burst may go on, and else the next opportunity follows. -/
def endT1s (now : Nat) (t : T1sState) : T1sState :=
  let held := if 0 < t.plca.burst then now + burstTicks else now
  beginT1s now { t with
    sending := none
    plca := if plcaOn t then { t.plca with id := tcNode t.cfg + 1, at_ := held, burstEnd := held } else t.plca }

/-- Another node's frame of `len` bytes has ended at tick `now`: its opportunity is over. -/
def hearT1s (now len : Nat) (t : T1sState) : T1sState :=
  if !plcaOn t then t
  else
    let t1 := plcaRoll (now - t1sTicks len) t
    { t1 with plca := { t1.plca with beacon := false, id := t1.plca.id + 1, at_ := now } }

/-- The port starts at tick `now` (R427, R441): a coordinator with a BEACON, a follower by waiting for one. -/
def runT1s (now : Nat) (t : T1sState) : T1sState :=
  beginT1s now { t with
    running := true
    plca := if plcaLeads t then { beacon := true, at_ := now, beacons := 1 } else { id := tcNode t.cfg + 1, at_ := now } }

end Sys2Proof.Machine
end

