-- ==== Sys2Proof/Machine/Modbus.lean ====
section
/-!
DEFINITION. The Modbus server and client of an RS-485 port (R432 to R440).
-/

namespace Sys2Proof.Machine

/-- The map entry that covers a register, with its number (R434). -/
def entryAt (map : List Byte) (holding : Bool) (reg : Nat) : Option (Nat × List Byte) :=
  (List.range (mpCount map)).findSome? (fun i =>
    let e := mpEntry map i
    if meHolding e == holding && meReg e ≤ reg && reg < meReg e + regCount (meType e) then some (i, e) else none)

/-- What the server does with a request (R436). -/
inductive ServerPlan where
  | nothing
  | echo
  | exception (code : Byte)
  /-- the policy of the port denies an access at this tile -/
  | denied (tile : Nat)
  | read (entries : List Nat)
  | write (ws : List (Handle × Word))
  deriving DecidableEq, Repr

/-- The tile of this package that the handle of a map entry names. -/
def entryTile (p : Pkg) (e : List Byte) : Nat := (localOf p (handleTile (hAt p e 4))).getD p.lead

/-- The first of some map entries whose point the policy denies, as its tile. -/
def firstDenied (p : Pkg) (b : RsPort) (need : Nat) (es : List (List Byte)) : Option Nat :=
  (es.find? (fun e => busDenied p (entryTile p e) b need (hAt p e 4))).map (entryTile p)

/-- Read Holding Registers and Read Input Registers (R436). -/
def planRead (p : Pkg) (b : RsPort) (map req : List Byte) : ServerPlan :=
  let reg := be16At req 2
  let n := be16At req 4
  if req.length != 6 || n < 1 || 125 < n then .exception 3
  else
    let found := (List.range n).map (fun i => entryAt map (leAt req 1 1 == 3) (reg + i))
    if found.any (·.isNone) then .exception 2
    else
      let es := (found.filterMap id).eraseDups
      match firstDenied p b 1 (es.map (·.2)) with
      | some u => .denied u
      | none => .read (es.map (·.1))

/-- The values of a run of registers by map entry, in address order (R433, R436): none where an entry is not written whole
or may not be written; a value that saturates, or is no number, shows in the flag. -/
def planValues (p : Pkg) (map : List Byte) (data : List Nat) (reg : Nat) : Nat → Nat → Option (List (List Byte × Handle × Word) × Bool)
  | 0, _ => some ([], false)
  | fuel + 1, off =>
    if data.length ≤ off then some ([], false)
    else match entryAt map true (reg + off) with
      | none => none
      | some (_, e) =>
        let k := regCount (meType e)
        if !meWrite e || meReg e != reg + off || data.length < off + k then none
        else
          match planValues p map data reg fuel (off + k) with
          | none => none
          | some (rest, bad) =>
            match regToValue (meType e) (meScale e) (meRaw e) (joinRegs (meType e) ((data.drop off).take k)) with
            | some (v, sat) => some ((e, hAt p e 4, v) :: rest, bad || sat)
            | none => some (rest, true)

/-- A write of registers (R436). -/
def planWrite (p : Pkg) (b : RsPort) (map : List Byte) (reg : Nat) (data : List Nat) : ServerPlan :=
  match planValues p map data reg data.length 0 with
  | none => .exception 2
  | some (ws, bad) =>
    match firstDenied p b 2 (ws.map (·.1)) with
    | some u => .denied u
    | none => if bad then .exception 3 else .write (ws.map (·.2))

/-- Write Single Register and Write Multiple Registers (R436). -/
def planSingle (p : Pkg) (b : RsPort) (map req : List Byte) : ServerPlan :=
  if req.length != 6 then .exception 3 else planWrite p b map (be16At req 2) [be16At req 4]
def planMultiple (p : Pkg) (b : RsPort) (map req : List Byte) : ServerPlan :=
  let n := be16At req 4
  if n < 1 || 123 < n || leAt req 6 1 != 2 * n || req.length != 7 + 2 * n then .exception 3
  else planWrite p b map (be16At req 2) ((List.range n).map (fun i => be16At req (7 + 2 * i)))

/-- What the server does with a request without its CRC (R436). -/
def serverPlan (p : Pkg) (b : RsPort) (map req : List Byte) : ServerPlan :=
  let all := leAt req 0 1 == 0
  match leAt req 1 1 with
  | 0x03 | 0x04 => if all then .nothing else planRead p b map req
  | 0x06 => planSingle p b map req
  | 0x10 => planMultiple p b map req
  | 0x08 => if all then .nothing else if be16At req 2 == 0 then .echo else .exception 1
  | _ => if all then .nothing else .exception 1

/-- The request of the server ends: with an answer where it was not sent to address 0 (R436), and the port's tables may
switch (R263). -/
def endServing (b : RsPort) (req body : List Byte) (p : Pkg) : Pkg :=
  let p1 := onRs b (fun r => { r with serving := none }) p
  portSwitch b (if leAt req 0 1 == 0 then p1
    else countB (.rs b) (onRs b (fun r => { r with sending := some (none, withCrc body) }) p1))

/-- An exception ends the request (R436, R437). -/
def serverException (b : RsPort) (req : List Byte) (code : Byte) (p : Pkg) : Pkg :=
  endServing b req (req.take 1 ++ [BitVec.ofNat 8 (128 + leAt req 1 1), code]) (if leAt req 0 1 == 0 then p else countA (.rs b) p)

/-- The lead issues an access for a port in class 3, and the number of its request (R437, R439). -/
def busAccess (purpose : Purpose) (op : FabricOp) (h : Handle) (p : Pkg) : Nat × Pkg :=
  ((p.tile p.lead).fabric.nextId, issue p.lead (handleTile h) 3 purpose op (p.now + admissionTicks 3) p)

/-- The request being served changed by `f`. -/
def onServing (b : RsPort) (f : Serving → Serving) (p : Pkg) : Pkg := onRs b (fun r => { r with serving := r.serving.map f }) p

/-- The next write of the request goes out, or it is answered (R436). -/
def serverWrites (b : RsPort) (x : Serving) (p : Pkg) : Pkg :=
  match x.todo with
  | [] => endServing b x.frame (x.frame.take 6) p
  | (h, v) :: rest =>
    let (n, p1) := busAccess (.server b) (.write h v) h p
    onServing b (fun s => { s with writing := some n, todo := rest }) p1

/-- The reads of the request go out (R437). -/
def serverReads (b : RsPort) (map : List Byte) (es : List Nat) (p : Pkg) : Pkg :=
  forAll es (fun i q =>
    let h := hAt q (mpEntry map i) 4
    let (n, q1) := busAccess (.server b) (.read h) h q
    onServing b (fun s => { s with reads := s.reads ++ [(n, i)] }) q1) p

/-- The registers of every entry that was read. -/
def entryRegs (p : Pkg) (map : List Byte) : List (Nat × Rec) → List (Nat × List Nat) × Pkg
  | [] => ([], p)
  | (i, r) :: rest =>
    let e := mpEntry map i
    let (l, q) := recRegs (meType e) (meScale e) (meRaw e) (handleClass (hAt p e 4)) r p
    let (ls, q1) := entryRegs q map rest
    ((i, l) :: ls, q1)

/-- The answer to a read (R436): every register from its entry, half a two-register entry as that half. -/
def readAnswer (b : RsPort) (x : Serving) (p : Pkg) : Pkg :=
  let reg := be16At x.frame 2
  let n := be16At x.frame 4
  let (regs, q) := entryRegs p x.map x.got
  let word (k : Nat) : Nat :=
    match entryAt x.map (leAt x.frame 1 1 == 3) (reg + k) with
    | some (i, e) => (((regs.find? (fun y => y.1 == i)).map (·.2)).getD []).getD (reg + k - meReg e) 0
    | none => 0
  endServing b x.frame (x.frame.take 2 ++ le 1 (2 * n) ++ (List.range n).flatMap (fun k => be16 (word k))) q

/-- A request for the server (R436, R437), without its CRC. -/
def serveRequest (b : RsPort) (req : List Byte) (p : Pkg) : Pkg :=
  let map := portTable p 0 b
  let x : Serving := { frame := req, map := map, until_ := p.now + rcWait (rsOf p b).cfg * msTicks }
  let p1 := onRs b (fun r => { r with serving := some x }) p
  match serverPlan p b map req with
  | .nothing => endServing b [0] [] p1
  | .echo => endServing b req req p1
  | .exception code => serverException b req code p1
  | .denied u => serverException b req 2 (denyBus u b p1)
  | .read es => serverReads b map es p1
  | .write ws => serverWrites b { x with todo := ws } (onServing b (fun s => { s with todo := ws }) p1)

/-- The exception for an access that failed (R436, R437). -/
def accessException (st : Byte) : Byte := if st == stPolicy || st == stPolicyChanged then 2 else 4

/-- An access of the server has come back (R437): the server answers once every read is back, and a write that fails ends the
request. -/
def serverReply (b : RsPort) (id : Nat) (rep : FabReply) (p : Pkg) : Pkg :=
  match (rsOf p b).serving with
  | none => p
  | some x =>
    match x.reads.find? (fun y => y.1 == id) with
    | some y =>
      let ok := rep.status == stOk
      let x1 := { x with
        reads := x.reads.filter (fun z => z.1 != id)
        got := if ok then x.got.set y.2 (recOfPoint rep.payload) else x.got
        failed := if ok || x.failed.isSome then x.failed else some (accessException rep.status) }
      let p1 := onServing b (fun _ => x1) p
      if !x1.reads.isEmpty then p1
      else match x1.failed with
        | some code => serverException b x.frame code p1
        | none => readAnswer b x1 p1
    | none =>
      if x.writing != some id then p
      else if rep.status != stOk then serverException b x.frame (accessException rep.status) p
      else serverWrites b x p

/-- The BUS point that an item of a port fills (R439). -/
def busKey (b : RsPort) (i : Nat) : Key := key 0xB (512 * rsNo b + i % 512)

/-- The transaction of a client changed by `f`. -/
def onPolling (b : RsPort) (f : Polling → Polling) (p : Pkg) : Pkg := onRs b (fun r => { r with polling := r.polling.map f }) p

/-- The transaction of a client is over, and the port's tables may switch (R263). -/
def endPolling (b : RsPort) (p : Pkg) : Pkg := portSwitch b (onRs b (fun r => { r with polling := none }) p)

/-- The item fails (R439): its BUS point keeps its value and is STALE. -/
def itemFails (b : RsPort) (x : Polling) (p : Pkg) : Pkg :=
  let old := (p.tile p.lead).points.getD (busKey b x.item) {}
  let p1 := putRec p.lead (busKey b x.item) { old with q := .stale } p
  let p2 := onRs b (fun r => { r with failing := if r.failing.contains x.item then r.failing else r.failing ++ [x.item] }) p1
  endPolling b (busFault (.rs b) 2 (countA (.rs b) p2))

/-- The item succeeds with a value (R439). -/
def itemDone (b : RsPort) (x : Polling) (v : Word) (p : Pkg) : Pkg :=
  endPolling b (ownerWrite p.lead (busKey b x.item) v .good
    (onRs b (fun r => { r with failing := r.failing.filter (· != x.item) }) p))

/-- The request of an item is sent once more (R440). -/
def sendAttempt (b : RsPort) (x : Polling) (p : Pkg) : Pkg :=
  onRs b (fun r => { r with sending := some (none, withCrc x.frame), silent := false
                            polling := some { x with attempts := x.attempts + 1, deadline := none, asking := none } }) p

/-- The request of a read item (R438). -/
def readFrame (e : List Byte) : List Byte :=
  le 1 (piServer e) ++ le 1 (piFunc e) ++ be16 (piReg e) ++ be16 (regCount (piType e))

/-- The request of a write item for its registers (R433, R438). -/
def writeFrame (e : List Byte) (regs : List Nat) : List Byte :=
  if piFunc e == 0x06 then le 1 (piServer e) ++ [0x06] ++ be16 (piReg e) ++ be16 (regs.getD 0 0)
  else le 1 (piServer e) ++ [0x10] ++ be16 (piReg e) ++ be16 regs.length ++ le 1 (2 * regs.length) ++ regs.flatMap be16

/-- The next due item of a client begins, in item order (R440); one whose source the policy denies fails without a frame. -/
def clientNext (b : RsPort) : Nat → Pkg → Pkg
  | 0, p => p
  | fuel + 1, p =>
    let r := rsOf p b
    match r.due with
    | [] => p
    | d :: ds =>
      let i := ds.foldl Nat.min d
      let e := plItem (portTable p 1 b) i
      let p1 := onRs b (fun r => { r with due := r.due.filter (· != i) }) p
      let x : Polling := { item := i, bytes := e }
      if piServer e == 0 then clientNext b fuel p1
      else if !piWrites e then sendAttempt b { x with frame := readFrame e } p1
      else
        let h := piSource p e
        let u := (localOf p (handleTile h)).getD p.lead
        let p2 := onRs b (fun r => { r with polling := some x }) p1
        if busDenied p u b 1 h then clientNext b fuel (itemFails b x (denyBus u b p2))
        else
          let (n, p3) := busAccess (.client b i) (.read h) h p2
          onPolling b (fun y => { y with asking := some n }) p3

/-- The client begins its next item where the line is silent and nothing is under way (R440). -/
def clientRun (b : RsPort) (p : Pkg) : Pkg :=
  let r := rsOf p b
  if r.mode == 3 && r.running && r.silent && r.polling.isNone && r.sending.isNone then clientNext b r.due.length p else p

/-- The source of a write item has come back (R204, R433, R439). -/
def clientReply (b : RsPort) (id : Nat) (rep : FabReply) (p : Pkg) : Pkg :=
  match (rsOf p b).polling with
  | none => p
  | some x =>
    if x.asking != some id then p
    else
      let rc := recOfPoint rep.payload
      let e := x.bytes
      let cls := handleClass (piSource p e)
      let nan := (cls == 8 || cls == 9) && (f32ToQ rc.value).isNone
      if rep.status != stOk || !usable rc.q false false || nan then clientRun b (itemFails b x p)
      else
        let (regs, p1) := recRegs (piType e) (piScale e) (piRaw e) cls rc p
        let (v, p2) := pointQ cls rc.value p1
        sendAttempt b { x with frame := writeFrame e regs, value := wordOf v } p2

/-- A response from the server that was asked (R439): none where it is no valid response, an exception, or the registers of a
read. -/
inductive Response where
  | invalid
  | exception
  | registers (l : List Nat)
  | confirmed
  deriving DecidableEq, Repr

/-- The reading of a response without its CRC. -/
def responseOf (x : Polling) (rsp : List Byte) : Response :=
  let e := x.bytes
  let n := regCount (piType e)
  if leAt rsp 0 1 != piServer e then .invalid
  else if leAt rsp 1 1 == 128 + piFunc e then (if rsp.length == 3 then .exception else .invalid)
  else if leAt rsp 1 1 != piFunc e then .invalid
  else if piWrites e then (if rsp == x.frame.take 6 then .confirmed else .invalid)
  else if rsp.length == 3 + 2 * n && leAt rsp 2 1 == 2 * n then .registers ((List.range n).map (fun i => be16At rsp (3 + 2 * i)))
  else .invalid

/-- A response has come (R439): the value of a binary32 NaN no rule gives. -/
def takeResponse (b : RsPort) (x : Polling) (rsp : List Byte) (p : Pkg) : Pkg :=
  let e := x.bytes
  match responseOf x rsp with
  | .invalid => p
  | .exception => itemFails b x p
  | .confirmed => itemDone b x x.value p
  | .registers l =>
    match regToValue (piType e) (piScale e) (piRaw e) (joinRegs (piType e) l) with
    | some (v, _) => itemDone b x v p
    | none => let (v, q) := takeFree p; itemDone b x v q

/-- An attempt has failed (R440): the item is tried again after the silence, up to RETRIES times. -/
def attemptFails (b : RsPort) (x : Polling) (p : Pkg) : Pkg :=
  if rcRetries (rsOf p b).cfg < x.attempts then itemFails b x p else onPolling b (fun y => { y with deadline := none }) p

/-- The frame of an RS-485 port under way at 2 ms of a handover is cut off; its BUS_SEND completes REFUSED_STATE (R446). -/
def cutFrame (b : RsPort) (p : Pkg) : Pkg :=
  match (rsOf p b).sending with
  | none => p
  | some (c, _) =>
    let p1 := countAbandoned (.rs b) (onRs b (fun r => { r with sending := none }) p)
    match c with
    | some c => finish c 0x81 stRefusedState p.lead p1
    | none => p1

/-- An RS-485 port at 2 ms of a handover (R446): its frame under way is cut off, a server request gets no answer, a client item
counts a failed attempt, and a node with the token goes on with it. Where no transaction is left, its tables may switch (R263). -/
def abandonRs (b : RsPort) (p : Pkg) : Pkg :=
  let r := rsOf p b
  let cut := r.sending.isSome
  let p1 := onRs b (fun r => { r with serving := none }) (cutFrame b p)
  match r.polling with
  | some x => if cut || x.deadline.isSome then attemptFails b x p1 else p1
  | none =>
    let p2 := if r.serving.isSome || cut then portSwitch b p1 else p1
    if cut then onRs b (nodeSent p.now false 0 0) p2 else p2

/-- The frame of the T1S port under way is abandoned; its BUS_SEND completes REFUSED_STATE, and the next one begins (R442,
R446). -/
def dropT1s (p : Pkg) : Pkg :=
  match p.sh.t1s.sending with
  | none => p
  | some (c, _) => finish c 0x81 stRefusedState p.lead (onT1s (endT1s p.now) p)

/-- The bus ports at 2 ms of a handover (R446): every frame under way is abandoned, those being received too. -/
def abandonFrames (p : Pkg) : Pkg :=
  let p1 := abandonRs .bus1 (abandonRs .bus0 (onShared (fun s => { s with busCut := some p.now }) p))
  if p1.sh.t1s.sending.isSome then dropT1s (countAbandoned .t1s p1) else p1

/-- Some port is sending (R20). -/
def busSending (p : Pkg) : Bool := p.sh.bus0.sending.isSome || p.sh.bus1.sending.isSome || p.sh.t1s.sending.isSome

/-- An RS-485 port after an unplanned takeover (R446): queues survive, an MS/TP port waits for an idle line again. -/
def restartRs (r : RsState) : RsState :=
  { r with sending := none, mstp := {}, serving := none, polling := none, silent := false
           running := r.running && r.mode != 1
           due := match r.polling with
             | some x => if r.due.contains x.item then r.due else r.due ++ [x.item]
             | none => r.due }

/-- The ports after an unplanned takeover (R446): their transactions are over, and their tables may switch (R263). -/
def restartBus (p : Pkg) : Pkg :=
  onT1s (endT1s p.now) (portSwitch .bus1 (portSwitch .bus0 (onRs .bus1 restartRs (onRs .bus0 restartRs p))))

end Sys2Proof.Machine
end

