-- ==== Sys2Proof/Machine/CmdBus.lean ====
section
/-!
DEFINITION. The bus family (R126, R127, R426 to R444): BUS_CONFIG, BUS_SEND, BUS_MAP_LOAD, BUS_STATUS.
-/

namespace Sys2Proof.Machine

/-- The RS-485 port of a number. -/
def rsPortOf (n : Nat) : Option RsPort :=
  match n with
  | 0 => some .bus0
  | 1 => some .bus1
  | _ => none

/-- BUS_CONFIG (R126, R426, R427, R445). -/
def execBusConfig (c : Ctx) (port : Byte) (rsv : BitVec 24) (rec : BitVec 224) : State → Host.Outcome State Fault Refusal :=
  lift (command (.busConfig c port rsv rec) (fun t p =>
    let ok (q : Pkg) : Pkg := finish c 0x80 stOk t q
    if port.toNat > 2 then finish c 0x80 stBadHandle t p
    else match rsPortOf port.toNat with
      | some b => if !rsCfgOk rec then finish c 0x80 stBadParam t p else ok (configRs b rec p)
      | none =>
        if !t1sCfgOk rec then finish c 0x80 stBadParam t p
        else if bits rec 55 48 == 1 then ok (writeFilter rec p) else ok (configT1s rec p)))

/-- A BUS_SEND joins a queue of up to 16 frames (R430), or is refused. -/
def queueSend (c : Ctx) (t queued : Nat) (f : Pkg → Pkg) (p : Pkg) : Pkg :=
  if 16 ≤ queued then finish c 0x81 stCapacity t p else f (accept c 0x81 t p)

/-- BUS_SEND on an MS/TP port (R430, R431): the reply that is pending leaves at once. -/
def sendMstp (c : Ctx) (t : Nat) (b : RsPort) (frame : List Byte) (p : Pkg) : Pkg :=
  let r := rsOf p b
  let typ := frame.headD 0
  let dst := frame.getD 1 0
  if frame.length < 2 || 503 < frame.length || (typ != ftExpecting && typ != ftNotExpecting) then finish c 0x81 stBadParam t p
  else
    match r.reply with
    | some (src, limit) =>
      if typ == ftNotExpecting && dst == src && p.now ≤ limit && r.sending.isNone && r.running then
        onRs b (fun r => hostFrame (c, frame) { r with reply := none }) (accept c 0x81 t p)
      else queueSend c t r.queue.length (onRs b (fun r => { r with queue := r.queue ++ [(c, frame)] })) p
    | none => queueSend c t r.queue.length (onRs b (fun r => { r with queue := r.queue ++ [(c, frame)] })) p

/-- BUS_SEND on the T1S port (R442). -/
def sendT1s (c : Ctx) (t : Nat) (frame : List Byte) (p : Pkg) : Pkg :=
  if frame.length < 14 || 1012 < frame.length then finish c 0x81 stBadParam t p
  else queueSend c t p.sh.t1s.queue.length (onT1s (queueT1s p.now (c, frame))) p

/-- BUS_SEND (R126, R127, R430, R432, R442). -/
def execBusSend (c : Ctx) (port rsv : Byte) (len : BitVec 16) (frame : List Byte) : State → Host.Outcome State Fault Refusal :=
  lift (command (.busSend c port rsv len frame) (fun t p =>
    if port.toNat > 2 then finish c 0x81 stBadHandle t p
    else if len.toNat < 1 || 1012 < len.toNat then finish c 0x81 stBadParam t p
    else match rsPortOf port.toNat with
      | some b => if (rsOf p b).mode != 1 then finish c 0x81 stBadState t p else sendMstp c t b (frame.take len.toNat) p
      | none => if !tcOn p.sh.t1s.cfg then finish c 0x81 stBadState t p else sendT1s c t (frame.take len.toNat) p))

/-- A bus table with entries of `size` bytes edited from entry `first` on (R435). -/
def editTable (old : List Byte) (form size first : Nat) (entries : List Byte) : List Byte :=
  let n := Nat.max (leAt old 2 2) (first + entries.length / size)
  le 1 form ++ [0] ++ le 2 n ++ zeros 12 ++ patch (old.drop 16) (size * first) entries

/-- The entries of a BUS_MAP_LOAD would run past the limit of its table (R127). -/
def busTableFull (list : Nat) (b : List Byte) : Bool :=
  if list == 0 then 4096 < ((List.range (mpCount b)).foldl (fun a i => a + regCount (meType (mpEntry b i))) 0)
  else 512 < plCount b

/-- BUS_MAP_LOAD (R126, R127, R435). -/
def busMapLoad (c : Ctx) (t port list first : Nat) (entries : List Byte) (p : Pkg) : Pkg :=
  let idx := 2 * list + port
  let size := if list == 0 then 8 else 32
  let old := (p.tile p.lead).table 3 idx
  let new := editTable old (if list == 0 then 0x20 else 0x21) size first entries
  if leAt old 2 2 < first || busTableFull list new || !tableValid p p.lead 3 idx new || claimConflict p p.lead 3 idx new then
    finish c 0x82 stBadParam t p
  else withFlash c 0x82 t (onlinePair p) (fun p =>
    let p1 := forAll [0, 1] (fun u => onTile u (setActive 3 idx new)) p
    let p2 := match rsPortOf port with
      | some b => if list == 1 then noteSources b p1 else p1
      | none => p1
    finish c 0x82 stOk t (enforceClaims p.lead 3 idx new p2)) p

/-- BUS_MAP_LOAD (R435). -/
def execBusMapLoad (c : Ctx) (port list : Byte) (first : BitVec 16) (entries : List Byte) : State → Host.Outcome State Fault Refusal :=
  lift (command (.busMapLoad c port list first entries) (fun t p =>
    if port.toNat > 1 then finish c 0x82 stBadHandle t p
    else if list.toNat > 1 then finish c 0x82 stBadParam t p
    else busMapLoad c t port.toNat list.toNat first.toNat entries p))

/-- BUS_STATUS (R126, R444). -/
def execBusStatus (c : Ctx) (port : Byte) (rsv : BitVec 24) : State → Host.Outcome State Fault Refusal :=
  lift (command (.busStatus c port rsv) (fun t p =>
    if port.toNat > 2 then finish c 0x83 stBadHandle t p
    else match rsPortOf port.toNat with
      | some b => reply c 0x83 t (rsRecord (rsOf p b)) p
      | none => reply c 0x83 t (t1sRecord p.sh.t1s) p))

end Sys2Proof.Machine
end

