-- ==== Sys2Proof/Machine/TripOps.lean ====
section
/-!
DEFINITION. Trips and returns of channel drives with their owners (R144, R145, R150, R310, R337, R347), the inputs that
comparators feed (R140), and the thermal budget manager (R152, R153).
-/

namespace Sys2Proof.Machine

/-- A fault flag of a channel that stops the engine or stepper it belongs to (R310, R337). -/
def faultOwners (t c : Nat) (p : Pkg) : Pkg := tripStepper t c (tripEngine t c p)

/-- A turn-off of a channel under R150, and what its owner does (R310, R337, R347). -/
def tripOff (t c flag : Nat) (p : Pkg) : Pkg := tripFan t c (faultOwners t c (tripChannel t c flag p))

/-- The drive of a channel returns as a start (R150), also for a fan (R347). -/
def driveBack (t c : Nat) (p : Pkg) : Pkg := untripFan t c (onChan t c (restartDrive p.now) p)

/-- A drive stage that was disconnected, and not tripped, counts as started when it returns (R144, R145). -/
def reconnect (now : Nat) (was c : Chan) : Chan := if stageOn c && !stageOn was then restartDrive now c else c

/-- VHV is below its threshold or back (R145). -/
def vhvChan (now : Nat) (low : Bool) (c : Chan) : Chan := reconnect now c { c with prot := { c.prot with vhvOff := low } }

/-- The engine, stepper or fan unit that a channel belongs to runs (R121). -/
def ownerRuns (tl : Tile) (c : Nat) : Bool :=
  (engineOn tl c).isSome
    || (match stepperOn tl c with | some u => (tl.stepper u).runs | none => false)
    || (List.range 4).any (fun u => (tl.fan u).runs && fcDrive (tl.fan u).cfg == c)

/-- A channel produces samples of its comparator or edge counter (R136, R154). -/
def senses (c : Chan) : Bool := c.out == .run || (c.out == .safelight && bits c.safe 7 0 == 0)

/-- CHR and CHE sub 0 of a digital input take the comparator level (R136, R140, R162). -/
def takeLevel (t c : Nat) (p : Pkg) : Pkg :=
  let ch := (p.tile t).chan c
  if ch.mode != 0x10 || !senses ch || p.now < ch.drive.breakUntil then p
  else
    let v := ch.drive.cmp != bit ch.cfg 8
    putNow t (key 2 (8 * c)) (if v then 0x10000 else 0) .good (putNow t (key 1 (8 * c)) (w32 (b2n v)) .good p)

/-- An edge counts in pulse input mode (R162): rising, falling with invert, or both. -/
def countsEdge (c : Chan) (level : Bool) : Bool := bit c.cfg 9 || level != bit c.cfg 8

/-- The frequency of the counted edges of a pulse input in Hz, Q16.16, at an edge now (R133, R134): that of the last two. The
spec states none at the first edge, which is a free value. -/
def pulseHz (ch : Chan) (p : Pkg) : Int × Pkg :=
  match ch.drive.pulseAt with
  | some a => (divRound ((secTicks * 65536 : Nat) : Int) (Nat.max 1 (p.now - a)), p)
  | none => let (f, q) := takeFree p; (f.toInt, q)

/-- A counted edge of a pulse input (R133, R136, R140). -/
def takePulse (t c : Nat) (level : Bool) (p : Pkg) : Pkg :=
  let ch := (p.tile t).chan c
  if ch.mode != 0x12 || !senses ch || p.now < ch.drive.breakUntil || !countsEdge ch level then p
  else
    let n := ((p.tile t).points.getD (key 1 (8 * c)) {}).value
    let p1 := putNow t (key 1 (8 * c)) (n + 1) .good p
    let (f, p2) := pulseHz ch p1
    let (v, q) := curveOut (p2.tile t) ch .good f
    fanEdge t c (putNow t (key 2 (8 * c)) (wordOf v) q
      (onChan t c (fun x => { x with drive := { x.drive with pulseAt := some p2.now } }) p2))

/-- Full scale of the threshold DAC of a channel in µV (R140). -/
def cmpScaleUv (c : Chan) : Nat := if c.mode == 0x18 then 1200000 else 12000000

/-- The output of the comparator of a channel with its watched pin at `uv` µV (R140): above the code of its DAC, less the
hysteresis while the output is high. -/
def cmpOutput (c : Chan) (uv : Int) : Bool :=
  let code : Int := (c.drive.thr.toNat : Int) - (if c.drive.cmp then c.hysteresis else 0 : Nat)
  code * cmpScaleUv c < uv * 1023

/-- The channels of a tile whose comparators watch pin `w` (R140). -/
def watchers (tl : Tile) (w : Nat) : List Nat := ((List.range 8).map (w / 8 * 8 + ·)).filter (fun c => senseOf tl c == w)

/-- The comparator output of a channel changes (R140): sub 4, the inputs it feeds, chopping (R305), trackers (R316), and the
sequences it triggers (R172). -/
def comparatorChange (t c : Nat) (level : Bool) (p : Pkg) : Pkg :=
  let p1 := onChan t c (fun x => { x with drive := { x.drive with cmp := level, cmpAt := p.now } }) p
  let p2 := if ((p1.tile t).chan c).filter == 0 then takeLevel t c p1 else p1
  trigger t ((if level then 0x10 else 0x30) + c) (trackersEdge t c level (chopEdge t c (takePulse t c level p2)))

/-- The voltage of pin `w` of tile `t` is now `uv` µV: every comparator that watches it takes its output (R140). -/
def pinVoltage (t w : Nat) (uv : Int) (p : Pkg) : Pkg :=
  forAll (watchers (p.tile t) w) (fun c q =>
    let x := (q.tile t).chan c
    let level := cmpOutput x uv
    if level == x.drive.cmp then q else comparatorChange t c level q) p

/-- The channel that the group budget turns off when none is at its limit: the latest start, ties to the higher number
(R149). -/
def latestStart (tl : Tile) (l : List Nat) : List Nat :=
  (l.foldl (fun (a : Option (Nat × Nat)) c =>
    let s := (tl.chan c).prot.startAt
    match a with
    | some (s0, _) => if s0 ≤ s then some (s, c) else a
    | none => some (s, c)) none).toList.map (·.2)

/-- The channels of group `g` that the budget turns off (R149), of those whose drive stage is on, with the drive currents of its
eight channels at that instant in µA. -/
def budgetVictims (now : Nat) (tl : Tile) (g : Nat) (amps : List Int) : List Nat :=
  let l := ((List.range 8).map (8 * g + ·)).filter (fun c => stageOn (tl.chan c))
  let hit := l.filter (fun c => atLimitNow (tl.chan c) (amps.getD (c % 8) 0) && (tl.chan c).prot.blankUntil ≤ now)
  if hit.isEmpty then latestStart tl l else hit

/-- Dissipation of a mode over one span, in nW (R152), with the supplies of the tile in mV. -/
def spanNw (m : Nat) (vhv vio : Int) (s : Span) : Int :=
  match m with
  | 0x08 => if s.ua ≥ 0 then (vhv - s.mv) * s.ua else s.mv * -s.ua
  | 0x09 => if s.ua ≥ 0 then (vhv - s.mv) * s.ua else 0
  | 0x11 | 0x13 => if s.ua ≥ 0 then (vio - s.mv) * s.ua else s.mv * -s.ua
  | 0x18 => vhv * s.ua.natAbs
  | _ => 0

/-- The mean over the spans of a millisecond of `f`, 0 when they span no time. -/
def spanMean (f : Span → Int) (l : List Span) : Int :=
  let n : Nat := l.foldl (fun a s => a + s.ticks) 0
  if n == 0 then 0 else l.foldl (fun a s => a + f s * s.ticks) 0 / n

/-- A supply of a tile in mV as SYS 36 or SYS 38 shows it (R357). -/
def railMv (tl : Tile) (i : Nat) : Int := (tl.points.getD (key 0 i) {}).value.toNat

/-- Spans, newest first, as the limit monitor reads them when the isolation switch has been open for the last `n` ticks: zero
(R144). -/
def isolatedSpans : Nat → List Span → List Span
  | _, [] => []
  | 0, l => l
  | n + 1, s :: r =>
    if s.ticks ≤ n + 1 then { s with ua := 0 } :: isolatedSpans (n + 1 - s.ticks) r
    else { s with ticks := n + 1, ua := 0 } :: { s with ticks := s.ticks - (n + 1) } :: r

/-- The spans of a channel, newest first, as its limit monitor reads them at tick `now` (R144, R146). -/
def monitored (now : Nat) (c : Chan) (l : List Span) : List Span :=
  isolatedSpans (if c.prot.isolated then now - c.prot.isolatedAt else 0) (l.reverse.map (fun s => { s with ua := limited c s.ticks s.ua }))

/-- The readings of the protection path of a channel at the end of a millisecond, and its estimate over it (R146, R152, R163). -/
def measure (now : Nat) (tl : Tile) (spans : List Span) (c : Chan) : Chan :=
  let l := monitored now c spans
  let ua := (l.head?.map (·.ua)).getD 0
  { c with prot := { c.prot with
      pinMv := (l.head?.map (·.mv)).getD 0
      uA := if c.prot.isolated then 0 else ua
      atLimit := atLimitNow c ua
      dissNw := (spanMean (spanNw (effMode c) (railMv tl 38) (railMv tl 36)) l).toNat } }

/-- Every channel of every tile takes its readings. -/
def measureAll (meas : List Meas) (p : Pkg) : Pkg :=
  forAll (List.range p.n) (fun t q => onAllChans t (fun c ch =>
    measure p.now (p.tile t) (((meas.find? (fun m => m.tile == t && m.ch == c)).map (·.spans)).getD []) ch) q) p

/-- The estimates of a tile, with its quiescent term of 3 mA from VHV, in nW (R153). -/
def tileNw (tl : Tile) : Nat :=
  (railMv tl 38).toNat * 3000 + (List.range 32).foldl (fun a c => a + (tl.chan c).prot.dissNw) 0

/-- 3.0 W in nW. -/
def budgetNw : Nat := 3000000000

/-- The running average of the sum over these tiles, times the number of sums (R153). -/
def thermalSum (tiles : List Nat) (sums : List (Tbl Nat)) : Nat :=
  sums.foldl (fun a s => a + tiles.foldl (fun b t => b + s.getD t 0) 0) 0

/-- The running average of these tiles exceeds `limit` nW by more than `-extra`: average + extra > limit (R153). -/
def averageOver (tiles : List Nat) (sums : List (Tbl Nat)) (extra limit : Nat) : Bool :=
  !sums.isEmpty && limit * sums.length < thermalSum tiles sums + extra * sums.length

/-- The channel with the highest estimate of these tiles whose drive stage is on. -/
def hottest (p : Pkg) (tiles : List Nat) : Option (Nat × Nat × Nat) :=
  tiles.foldl (fun a t => (List.range 32).foldl (fun a c =>
    let ch := (p.tile t).chan c
    let d := ch.prot.dissNw
    if !stageOn ch || d == 0 then a
    else match a with
      | some (d0, _, _) => if d0 < d then some (d, t, c) else a
      | none => some (d, t, c)) a) none

/-- Channels are turned off, the highest estimate first, until the estimated sum is below the limit (R153). -/
def shedHeat (tiles : List Nat) (limit : Nat) : Nat → Nat → Pkg → Pkg
  | 0, _, p => p
  | fuel + 1, sum, p =>
    if sum < limit then p
    else match hottest p tiles with
      | none => p
      | some (d, t, c) => shedHeat tiles limit fuel (sum - d) (tripOff t c fThermal p)

/-- The budget of a set of tiles is enforced (R153). -/
def enforceBudget (tiles : List Nat) (limit : Nat) (p : Pkg) : Pkg :=
  if averageOver tiles p.sh.thermal.sums 0 limit then
    shedHeat tiles limit (32 * tiles.length) (tiles.foldl (fun a t => a + tileNw (p.tile t)) 0) p
  else p

/-- The tiles whose dissipation tile `t` is judged with, and their limit: the package, or the tile alone while no lead is
online (R153). -/
def budgetOf (p : Pkg) (t : Nat) : List Nat × Nat :=
  if online p p.lead then (List.range p.n, budgetNw) else ([t], budgetNw / p.n)

/-- The sums of this millisecond join the last 100 (R153). -/
def recordSums (p : Pkg) : Pkg :=
  let s : Tbl Nat := (List.range p.n).map (fun t => (t, tileNw (p.tile t)))
  onShared (fun x => { x with thermal := { at_ := some p.now, sums := (s :: x.thermal.sums).take 100 } }) p

/-- A retry after a thermal turn-off is deferred (R153). -/
def thermalDefers (p : Pkg) (t c : Nat) : Bool :=
  let pr := ((p.tile t).chan c).prot
  let (tiles, limit) := budgetOf p t
  pr.thermal && averageOver tiles p.sh.thermal.sums pr.tripDiss limit

end Sys2Proof.Machine
end

