-- ==== Sys2Proof/Machine/CmdChannels.lean ====
section
/-!
DEFINITION. The channel commands (R121, R143, R150, R158, R162, R163): CHANNEL_CONFIG, CHANNEL_STATUS, CHANNEL_CLEAR.
-/

namespace Sys2Proof.Machine

/-- CHANNEL_CONFIG (R121, R158, R162). -/
def execChannelConfig (c : Ctx) (ch ei : Byte) (rsv : BitVec 16) (cfg : BitVec 256) : State → Host.Outcome State Fault Refusal :=
  lift (command (.channelConfig c ch ei rsv cfg) (fun t p =>
    if ch.toNat > 31 then finish c 0x20 stBadHandle t p
    else if !chanCfgOk cfg then finish c 0x20 stBadParam t p
    else if ownerRuns (p.tile t) ch.toNat then finish c 0x20 stRefusedState t p
    else
      let was := ((p.tile t).chan ch.toNat).prot.tripped
      let p1 := applyConfig t ch.toNat cfg p
      finish c 0x20 stOk t (if was then untripFan t ch.toNat p1 else p1)))

/-- The channel status record (R163). -/
def channelStatusBytes (now : Nat) (c : Chan) : List Byte :=
  le 1 c.out.code ++ le 1 c.mode ++ le 2 c.prot.faults.toNat ++ le 4 (wordOf c.prot.pinMv).toNat
    ++ le 4 (wordOf c.prot.uA).toNat ++ le 4 (divRound c.prot.dissNw 1000000).toNat ++ le 1 c.prot.attempts.toNat
    ++ le 1 (chanState now c) ++ le 2 c.drive.thr.toNat ++ le 4 c.prot.faultTime.toNat

/-- CHANNEL_STATUS (R163). -/
def execChannelStatus (c : Ctx) (ch : Byte) (rsv : BitVec 24) : State → Host.Outcome State Fault Refusal :=
  lift (command (.channelStatus c ch rsv) (fun t p =>
    if ch.toNat > 31 then finish c 0x21 stBadHandle t p
    else reply c 0x21 t (channelStatusBytes p.now ((p.tile t).chan ch.toNat)) p))

/-- CHANNEL_CLEAR (R143, R150): the drive that LATCHED kept off returns as a start. -/
def execChannelClear (c : Ctx) (ch ei : Byte) (mask : BitVec 16) : State → Host.Outcome State Fault Refusal :=
  lift (command (.channelClear c ch ei mask) (fun t p =>
    let n := ch.toNat
    if n > 31 then finish c 0x22 stBadHandle t p
    else if bits mask 15 10 != 0 then finish c 0x22 stBadParam t p
    else
      let x := (p.tile t).chan n
      let unlatch := mask.getLsbD fLatched && x.prot.faults.getLsbD fLatched
      let p1 := onChan t n (fun y => { y with prot := { y.prot with faults := y.prot.faults &&& ~~~(mask.setWidth 10) } }) p
      finish c 0x22 stOk t (if unlatch && x.prot.tripped then driveBack t n p1 else p1)))

end Sys2Proof.Machine
end

