-- ==== Sys2Proof/Machine/CmdConverters.lean ====
section
/-!
DEFINITION. The converter family (R120, R121, R164 to R190): SEQ_CONFIG, SEQ_START, SEQ_STATUS, REF_SELECT.
-/

namespace Sys2Proof.Machine

/-- SEQ_CONFIG (R167, R173). -/
def execSeqConfig (c : Ctx) (adc seq count rsv : Byte) (entries : List (BitVec 64)) : State → Host.Outcome State Fault Refusal :=
  lift (command (.seqConfig c adc seq count rsv entries) (fun t p =>
    let b := adc == 1
    let inj := seq == 1
    if adc.toNat > 1 then finish c 0x28 stBadHandle t p
    else if seq.toNat > 1 || count == 0 || (if inj then 4 else 16) < count.toNat || !entries.all (entryOk b inj) then
      finish c 0x28 stBadParam t p
    else
      let p1 := catchUp t p.now p
      let a := (p1.tile t).adc b
      if (if inj then a.inj else a.reg).busy then finish c 0x28 stRefusedState t p1
      else
        let f (x : Sequence) : Sequence := { x with entries := entries, idx := 0 }
        finish c 0x28 stOk t (forAll (resultKeys b inj) (goOffline t)
          (onTile t (fun tl => (if inj then onInj b f else onReg b f)
            (tl.onAdc b (fun x => { x with ended := x.ended.filter (fun d => d.inj != inj) }))) p1))))

/-- The regular sequence takes a run mode (R172, R173): mode 1 stops one that is only armed, no pass being under way. -/
def startReg (now : Nat) (b : Bool) (mode trig : Byte) (t : Tile) : Tile :=
  let s := (t.adc b).reg
  if mode == 0 then stopReg now b t
  else if s.entries.isEmpty then t
  else if s.state == .armed && mode == 1 then stopReg now b t
  else match s.state with
    | .stopped | .armed =>
      let t1 := onReg b (fun x => { x with mode := mode, trig := trig, next := none, onceDone := false }) t
      if mode == 3 then onReg b (fun x => { x with state := .armed }) t1 else startPass now b t1
    | _ => onReg b (fun x => { x with next := some (mode, trig) }) t

/-- The injected sequence takes a run mode (R172, R173, R181): mode 1 is one urgent trigger, and mode 3 waits for the end of
the pass under way. -/
def startInj (t : Nat) (b : Bool) (mode trig : Byte) (p : Pkg) : Pkg :=
  let s := ((p.tile t).adc b).inj
  if mode == 0 then onTile t (stopInj p.now b) p
  else if s.entries.isEmpty then p
  else if mode == 1 then urgent t b p
  else if s.state == .running then onTile t (onInj b (fun x => { x with next := some (mode, trig) })) p
  else onTile t (onInj b (fun x => { x with mode := mode, trig := trig, state := .armed })) p

/-- SEQ_START (R172, R173). -/
def execSeqStart (c : Ctx) (adc seq mode trig : Byte) : State → Host.Outcome State Fault Refusal :=
  lift (command (.seqStart c adc seq mode trig) (fun t p =>
    if adc.toNat > 1 then finish c 0x29 stBadHandle t p
    else if seq.toNat > 1 || mode.toNat > 3 || (seq == 1 && mode == 2)
        || (if mode == 3 then !triggerListed trig.toNat else trig != 0) then finish c 0x29 stBadParam t p
    else
      let b := adc == 1
      let p1 := catchUp t p.now p
      let p2 := if seq == 0 then onTile t (startReg p.now b mode trig) p1 else startInj t b mode trig p1
      finish c 0x29 stOk t (onTile t (grantB p.now) p2)))

/-- SEQ_STATUS (R188). -/
def execSeqStatus (c : Ctx) (adc : Byte) (rsv : BitVec 24) : State → Host.Outcome State Fault Refusal :=
  lift (command (.seqStatus c adc rsv) (fun t p =>
    if adc.toNat > 1 then finish c 0x2A stBadHandle t p
    else
      let a := ((catchUp t p.now p).tile t).adc (adc == 1)
      reply c 0x2A t (le 1 a.reg.state.code ++ le 1 a.inj.state.code ++ le 2 a.drops.toNat ++ le 1 a.ref.toNat
        ++ le 1 (p.tile t).conv.settled.toNat ++ zeros 2) p))

/-- The selections that an entry with its switching clock from tick `from_` on may still use (R182). -/
def recentRefs (from_ : Nat) : List (Nat × BitVec 2) → List (Nat × BitVec 2)
  | [] => []
  | q :: l => if q.1 ≤ from_ then [q] else q :: recentRefs from_ l

/-- A converter takes a selected reference: an entry uses the one selected at its switching clock (R182). -/
def selectRef (now : Nat) (ref : BitVec 2) (a0 : Adc) : Adc :=
  let a := { a0 with ref := ref, refs := recentRefs (if a0.busy then a0.active.entryAt else now) ((now, ref) :: a0.refs) }
  let f (s : Sequence) : Sequence := if now < s.entryAt then { s with ref := BitVec.ofNat 2 (refOf a s.entryAt s.entry) } else s
  { a with reg := f a.reg, inj := f a.inj }

/-- REF_SELECT (R121, R182). -/
def execRefSelect (c : Ctx) (adc ref : Byte) (rsv : BitVec 16) : State → Host.Outcome State Fault Refusal :=
  lift (command (.refSelect c adc ref rsv) (fun t p =>
    if adc.toNat > 1 then finish c 0x2B stBadHandle t p
    else if ref.toNat > 2 then finish c 0x2B stBadParam t p
    else finish c 0x2B stOk t (onTile t (fun tl => tl.onAdc (adc == 1) (selectRef p.now (ref.setWidth 2))) p)))

end Sys2Proof.Machine
end

