-- ==== Sys2Proof/Machine/CmdCounters.lean ====
section
/-!
DEFINITION. The counter family and diagnostics of counters (R128, R499 to R511): COUNTER_CONFIG, COUNTER_READ, LOUPE_CONFIG,
LOUPE_READ, COUNTER_WINDOW, COUNTER_WRAP.
-/

namespace Sys2Proof.Machine

/-- COUNTER_CONFIG (R500). -/
def execCounterConfig (c : Ctx) (n mode src sel : Byte) (window : Word) : State → Host.Outcome State Fault Refusal :=
  lift (command (.counterConfig c n mode src sel window) (fun t p =>
    if n.toNat > 7 then finish c 0xA0 stBadHandle t p
    else if !ctrCfgOk p.n t mode.toNat src.toNat sel.toNat window.toNat then finish c 0xA0 stBadParam t p
    else finish c 0xA0 stOk t (onTile t (fun tl => { tl with counters := { tl.counters with
      carries := tl.counters.carries.filter (fun q => q.1 != n.toNat)
      ctrs := tl.counters.ctrs.set n.toNat { mode := mode, src := src, sel := sel, window := window, setAt := p.now } } }) p)))

/-- COUNTER_READ (R507). -/
def execCounterRead (c : Ctx) (n : Byte) (rsv : BitVec 24) : State → Host.Outcome State Fault Refusal :=
  lift (command (.counterRead c n rsv) (fun t p =>
    let tl := p.tile t
    let time := le 4 (stamp32 p.now).toNat
    if n.toNat > 8 then finish c 0xA1 stBadHandle t p
    else if n == 8 then reply c 0xA1 t (le 8 tl.counters.fixed.toNat ++ zeros 4 ++ time) p
    else
      let x := tl.ctr n.toNat
      reply c 0xA1 t (le 8 x.value.toNat ++ le 4 (ctrFlags p t x) ++ time) p))

/-- LOUPE_CONFIG (R510). -/
def execLoupeConfig (c : Ctx) (k src : Byte) (rsv : BitVec 16) : State → Host.Outcome State Fault Refusal :=
  lift (command (.loupeConfig c k src rsv) (fun t p =>
    if k.toNat > 20 || !(src == 0 || src == 1 || src == 0xFF) then finish c 0xA2 stBadParam t p
    else finish c 0xA2 stOk t (onTile t (fun tl => { tl with counters := { tl.counters with
      loupeK := k, loupeSrc := src, tokens := 0, nextNo := 0, taken := 0, held := [] } }) p)))

/-- LOUPE_READ (R511). -/
def execLoupeRead (c : Ctx) (first count : BitVec 16) : State → Host.Outcome State Fault Refusal :=
  lift (command (.loupeRead c first count) (fun t p =>
    if count == 0 || count.toNat > 256 then finish c 0xA3 stBadParam t p
    else
      let l := loupeSpan (p.tile t).counters first.toNat count.toNat
      let next := match l.getLast? with
        | some s => (s.no + 1).toNat
        | none => first.toNat
      bulkReply c 0xA3 t (.loupeRead c first count) (l.flatMap sampleBytes) l.length next p))

/-- COUNTER_WINDOW (R504). -/
def execCounterWindow (tile : TileId) (n : BitVec 3) (received sent : Nat) : State → Host.Outcome State Fault Refusal :=
  liftTile tile (fun t p =>
    let c := (p.tile t).ctr n.toNat
    if c.mode != 2 || p.inReset || (p.sh.dark.dark) then p
    else
      let at_ := windowEnd p.now c
      let p1 := advanceTo at_ p
      onTile t (fun tl => { tl with counters := { tl.counters with
        ctrs := tl.counters.ctrs.modify n.toNat Ctr.reset (latchWindow (portAway p t c.src.toNat) p1.now received sent) } }) p1)

/-- COUNTER_WRAP (R505, R506). -/
def execCounterWrap (tile : TileId) (n : BitVec 3) : State → Host.Outcome State Fault Refusal :=
  liftTile tile (fun t p => takeWrap t n.toNat p)

end Sys2Proof.Machine
end

