-- ==== Sys2Proof/Machine/GroupOps.lean ====
section
/-!
DEFINITION. Rate groups: boundaries, their commit and latch, remote reads, and the end of a period's work (R57 to R64, R205,
R251, R534).
-/

namespace Sys2Proof.Machine

/-- A group of a tile changed by `f`. -/
def onGrp (t g : Nat) (f : Group → Group) (p : Pkg) : Pkg := onTile t (Tile.onGroup g f) p

/-- The first boundary of a group at or after tick `at_` (R58, R62). -/
def Group.boundaryFrom (g : Group) (at_ : Nat) : Nat := nextMultiple g.period (Nat.max at_ g.firstAt)

/-- The deadline of the work latched last (R60). -/
def Group.deadline (g : Group) : Nat := g.boundaryFrom (g.latchedAt + 1)

/-- The next boundary of group `g` of tile `t` that has not been taken: the one whose steps 1 to 3 are made and whose latch is
not, else of its period in force, or the first of the period that would enable it once VCORE has settled (R62, R71, R534). -/
def boundaryDue (p : Pkg) (t g : Nat) : Option Nat :=
  let tl := p.tile t
  let gr := tl.group g
  if gr.enabled then
    if gr.n == 0 then none
    else if gr.committedAt == some p.now && gr.latchDoneAt != some p.now then some p.now
    else some (gr.boundaryFrom (if gr.latchDoneAt == some p.now then p.now + 1 else p.now))
  else match gr.pend with
    | some q =>
      if q.enable && q.n != 0 then
        some (nextMultiple (1000 * q.n.toNat) (if tl.gov.settling then Nat.max p.now tl.gov.settleAt else p.now))
      else none
    | none => none

/-- A boundary of group `g` falls at the present instant. -/
def boundaryNow (p : Pkg) (t g : Nat) : Bool := boundaryDue p t g == some p.now && online p t

/-- The tile's own handle, or another's, of each input of slot `n` with its place: 0 to 3 the inputs, 4 the scheduling
point. -/
def slotHandles (p : Pkg) (t n : Nat) : List (Nat × Handle) :=
  let tl := p.tile t
  let d := (tl.slot n).desc
  let rt := slotTable tl n (dGain d)
  let ins := ((List.range 4).map (fun i => (i, dIn d i))).filter (fun q => q.2 != noHandle)
  if dGain d != 0xFFFF && regionForm rt then ins ++ [(4, tableHandle p (rtSched rt))] else ins

/-- A record is latched as input `i` of a slot. -/
def latchInput (i : Nat) (r : Rec) (s : Slot) : Slot :=
  match i with
  | 0 => { s with inA := some r }
  | 1 => { s with inB := some r }
  | 2 => { s with inC := some r }
  | 3 => { s with inD := some r }
  | _ => { s with sched := some r }

/-- A handle of tile `t` itself. -/
def isLocal (p : Pkg) (t : Nat) (h : Handle) : Bool := handleTile h == ownNo p t

/-- Slot `n` latches its local inputs (R205 step 4). -/
def latchSlot (p : Pkg) (t n : Nat) (s : Slot) : Slot :=
  let s0 : Slot := { s with inA := none, inB := none, inC := none, inD := none, sched := none, due := true, result := none }
  (slotHandles p t n).foldl (fun a q => if isLocal p t q.2 then latchInput q.1 (readPoint p t (handleKey q.2)) a else a) s0

/-- Machine `m` latches its local operands and the timers that count (R251, R254). The time in its state counts from the first
boundary since it entered it anew (R253, R258). -/
def latchMachine (p : Pkg) (t : Nat) (m : MachineSt) : MachineSt :=
  let hs := (machineOperands p t m.image).filter (isLocal p t)
  { m with inputs := hs.map (fun h => (h, readPoint p t (handleKey h))), timers := (p.tile t).counting.map (·.1)
           latchedAt := p.now, due := true, result := none
           stateAt := if m.started then m.stateAt else p.now, started := true }

/-- The machines of a group that run: not paused, on a sealed tile (R258, R267). -/
def runningMachines (p : Pkg) (t g : Nat) : List Nat :=
  if sealedTile p t then (groupMachines (p.tile t) g).filter (fun m => !((p.tile t).machine m).paused) else []

/-- The slots that a boundary of group `g` latches: those moved at this instant start at a later one (R207). -/
def latchedSlots (p : Pkg) (t g : Nat) : List Nat :=
  (groupSlots (p.tile t) g).filter (fun n =>
    match ((p.tile t).slot n).moved with
    | some q => q.2 != p.now
    | none => true)

/-- A read of a remote input is issued: 3 µs after the boundary to a near tile, 25 µs to a far one (R60). -/
def issueRead (t g limit : Nat) (h : Handle) (p : Pkg) : Pkg :=
  let dest := handleTile h
  let delay := if (localOf p dest).isSome then 3 * usTicks else 25 * usTicks
  onTile t (fun tl => { tl with fabric := { tl.fabric with
      out := tl.fabric.out.dropLast ++ (tl.fabric.out.getLast?.toList.map (fun o => { o with sentAt := p.now + delay })) } })
    (issue t dest 1 (.groupInput t g) (.read h) limit p)

/-- Step 4 of R205 for group `g`: its inputs are latched, a die temperature that a machine names being measured first (R370),
and its remote reads issued. -/
def latchGroup (t g : Nat) (p0 : Pkg) : Pkg :=
  let ss := latchedSlots p0 t g
  let ms := runningMachines p0 t g
  let p := if ms.any (fun m => (machineOperands p0 t ((p0.tile t).machine m).image).any (fun h => isLocal p0 t h && dieKey (handleKey h))) then measureDie t p0 else p0
  let remote := ((ss.flatMap (fun n => (slotHandles p t n).map (·.2)))
    ++ ms.flatMap (fun m => machineOperands p t ((p.tile t).machine m).image)).filter (fun h => !isLocal p t h) |>.eraseDups
  let p1 := onTile t (fun tl =>
    let a := ss.foldl (fun a n => a.onSlot n (latchSlot p t n)) tl
    ms.foldl (fun a m => a.onMachine m (latchMachine p t)) a) p
  let idle := groupIdle (p.tile t) g
  let p2 := onGrp t g (fun gr => { gr with
    latchedAt := p.now, latchDoneAt := some p.now, working := !(ss.isEmpty && ms.isEmpty), awaited := remote, readyAt := p.now
    slacks := if idle then [] else gr.slacks.filter (fun q => p.now < q.1 + secTicks)
    lastSlack := if idle then none else gr.lastSlack }) p1
  forAll remote (issueRead t g ((p2.tile t).group g).deadline) p2

/-- A remote input of the period under way is latched for every slot and machine of group `g` that uses it (R61). -/
def latchRemote (t g : Nat) (h : Handle) (r : Rec) (p : Pkg) : Pkg :=
  let tl := p.tile t
  if !(tl.group g).awaited.contains h then p
  else
    let p1 := onTile t (fun tl =>
      let a := (groupSlots tl g).foldl (fun a n =>
        if (a.slot n).due then
          (slotHandles p t n).foldl (fun b q => if q.2 == h then b.onSlot n (latchInput q.1 r) else b) a
        else a) tl
      (groupMachines a g).foldl (fun a m =>
        if (a.machine m).due && (machineOperands p t (a.machine m).image).contains h then
          a.onMachine m (fun x => { x with inputs := x.inputs ++ [(h, r)] })
        else a) a) p
    onGrp t g (fun gr => { gr with awaited := gr.awaited.filter (· != h), readyAt := p.now }) p1

/-- Slots and machines of a group whose work of the period under way is not done. -/
def undoneSlots (tl : Tile) (g : Nat) : List Nat :=
  (groupSlots tl g).filter (fun n => (tl.slot n).due && (tl.slot n).result.isNone)
def undoneMachines (tl : Tile) (g : Nat) : List Nat :=
  (groupMachines tl g).filter (fun m => (tl.machine m).due && (tl.machine m).result.isNone)

/-- The group whose work an engine of the tile does now (R59): of those whose work `undone` can begin, the one that it began or
begins first, and of several that begin together the highest. The engine is free since tick `free`; what it has begun it ends,
past a deadline too (R206): while it is `busy` with that, none. -/
def groupTurn (p : Pkg) (t free : Nat) (busy : Bool) (undone : Tile → Nat → List Nat) : Option Nat :=
  let tl := p.tile t
  let begins (g : Nat) : Nat := Nat.max free (tl.group g).readyAt
  let waits (g : Nat) : Bool :=
    !busy && (tl.group g).enabled && (tl.group g).awaited.isEmpty && p.now ≤ (tl.group g).deadline && !(undone tl g).isEmpty
  ((List.range 8).filter waits).foldl (fun a g =>
    match a with
    | some b => if begins g < begins b then some g else some b
    | none => some g) none

/-- The loop engine, and the table engine, still run an evaluation whose deadline has passed (R206). -/
def loopBusy (tl : Tile) : Bool := tl.slots.any (·.2.late)
def tableBusy (tl : Tile) : Bool := tl.machines.any (·.2.late)

/-- The group whose evaluation the loop engine is to run next, and the table engine (R59). -/
def slotTurn (p : Pkg) (t : Nat) : Option Nat := groupTurn p t (p.tile t).loopFree (loopBusy (p.tile t)) undoneSlots
def machineTurn (p : Pkg) (t : Nat) : Option Nat := groupTurn p t (p.tile t).tableFree (tableBusy (p.tile t)) undoneMachines

/-- Group `g` has an evaluation under way on an engine that is free since `free` and whose turn is `turn`: it has begun before now. -/
def evaluating (p : Pkg) (t g free : Nat) (turn : Option Nat) : Bool :=
  turn == some g && Nat.max free ((p.tile t).group g).readyAt < p.now

/-- A slack is recorded for a period of group `g` (R63, R75). -/
def recordSlack (t g slack : Nat) (p : Pkg) : Pkg :=
  onGrp t g (fun gr => { gr with slacks := gr.slacks ++ [(p.now, slack)], lastSlack := some slack }) p

/-- When the last slot and machine of the period are done, the slack is recorded (R60, R63, R70). -/
def workDone (t g : Nat) (p : Pkg) : Pkg :=
  let tl := p.tile t
  let gr := tl.group g
  if gr.working && (undoneSlots tl g).isEmpty && (undoneMachines tl g).isEmpty then
    let slack := (gr.deadline - p.now) * 1000 / gr.period
    govSlack t slack (recordSlack t g slack (onGrp t g (fun x => { x with working := false }) p))
  else p

/-- Steps 1 and 2 of R205 for group `g`: overruns, then the commit of its slots. A period not done by its deadline records slack 0
and no completion: only the overrun raises VCORE (R63, R70). The evaluations of a slot and of a machine that were running go on
(R206). -/
def commitGroup (t g : Nat) (slotRuns machineRuns : Bool) (p : Pkg) : Pkg :=
  let tl := p.tile t
  let us := undoneSlots tl g
  let um := undoneMachines tl g
  let p1 := onTile t (fun tl =>
    let a := um.foldl (fun a m => overrunMachine m a) (us.foldl (fun a n => overrunSlot n a) tl)
    let b := match us.head? with
      | some n => if slotRuns then a.onSlot n (fun s => { s with late := true }) else a
      | none => a
    match um.head? with
    | some m => if machineRuns then b.onMachine m (fun x => { x with late := true }) else b
    | none => b) p
  let p2 :=
    if (tl.group g).working then
      let q := onGrp t g (fun gr => { gr with working := false, awaited := [], overruns := incSat gr.overruns }) p1
      let q1 := raiseWith t (35 + g) ((q.tile t).group g).overruns.toNat q
      govOverrun t (recordSlack t g 0 q1)
    else onGrp t g (fun gr => { gr with awaited := [] }) p1
  let (p3, new) := (groupSlots (p2.tile t) g).foldl (fun (a : Pkg × BitVec 7) n =>
    let (q, f) := commitSlot t n a.1
    (q, a.2 ||| f)) (p2, (0 : BitVec 7))
  let p4 := if new &&& 0b1111#7 != 0 then raise t 43 p3 else p3
  if new &&& 0b1000000#7 != 0 then raise t 44 p4 else p4

/-- A RATE_GROUP_CONFIG takes effect (R57, R62, R197, R472): the slots of a group that is enabled go on from their state, and a
group enabled or disabled has recorded no period (R75). -/
def applyGroup (t g : Nat) (p : Pkg) : Pkg :=
  let gr := (p.tile t).group g
  match gr.pend with
  | none => p
  | some q =>
    if deniedNow p t 0x34 q.ctx then denyCommit t 0x34 q.ctx (onGrp t g (fun x => { x with pend := none }) p)
    else
    let first := if gr.enabled then nextMultiple (1000 * q.n.toNat) (p.now + 1000 * q.n.toNat)
      else nextMultiple (1000 * q.n.toNat) p.now
    let same := q.enable == gr.enabled
    finish q.ctx 0x34 stOk t (onGrp t g (fun x => { x with
      enabled := q.enable, n := q.n, pend := none, firstAt := if q.enable then first else 0
      slacks := if same then x.slacks else [], lastSlack := if same then x.lastSlack else none }) p)

/-- A group's change waits for VCORE: it adds work (R71). -/
def groupWaits (p : Pkg) (t g : Nat) : Bool :=
  let gr := (p.tile t).group g
  match gr.pend with
  | some q => q.enable && (!gr.enabled || q.n.toNat < gr.n.toNat) && !coreSettled p t
  | none => false

/-- The users of table commits that belong to group `g`. -/
def groupUsers (tl : Tile) (g : Nat) : List TUser :=
  (tl.tables.commits.flatMap (fun x => if x.written then x.waiting.filter (fun u =>
    match u with
    | .machine m => (if x.kind == 0 then switchGroup tl m x.bytes else machineGroup (tl.machine m).image) == g
    | .slot n => dGroup (tl.slot n).desc == g
    | _ => false) else [])).eraseDups

/-- A machine switch that adds work waits until VCORE has settled (R71, R238). -/
def userHeld (p : Pkg) (t : Nat) (u : TUser) : Bool :=
  match u with
  | .machine m => (p.tile t).tables.commits.any (fun x => x.written && x.idx == m && addsMachine (p.tile t) x) && !coreSettled p t
  | _ => false

/-- A change that adds work to a group of the tile waits to take effect: VCORE stays at 0.90 V or above (R71). -/
def workWaits (tl : Tile) : Bool :=
  tl.groups.any (fun q => match q.2.pend with | some x => x.enable && (!q.2.enabled || x.n.toNat < q.2.n.toNat) | none => false)
    || tl.slots.any (fun q => match q.2.pend with | some x => addsSlot tl q.1 x.desc | none => false)
    || tl.tables.commits.any (addsMachine tl)

/-- MACHINE_CONTROL commands that wait for a boundary of group `g` (R259, R472). -/
def runControls (t m : Nat) (p : Pkg) : Pkg :=
  let l := ((p.tile t).machine m).ctl
  forAll l (fun q a => if deniedNow a t 0x43 q.1 then denyCommit t 0x43 q.1 a else machineControl t m q.1 q.2.toNat a) (onMach t m (fun x => { x with ctl := [] }) p)

/-- Step 3 of R205 for group `g`: pending changes of slots, tables, machines and the group itself take effect. The users of tables
are those of the group before these changes and after them. -/
def changeGroup (t g : Nat) (p : Pkg) : Pkg :=
  let tl := p.tile t
  let ms := groupMachines tl g
  let mine (f : Slot → Bool) : List Nat := (tl.slots.filter (fun q => dGroup q.2.desc == g && f q.2)).map (·.1)
  let p0 := forAll (mine (·.moved.isSome)) (fun n q =>
    match ((q.tile t).slot n).moved with
    | some (x, at_) => if at_ < q.now then slotDone t x stOk (onTile t (Tile.onSlot n (fun s => { s with moved := none })) q) else q
    | none => q) p
  let p1 := forAll (mine (·.pend.isSome)) (fun n q =>
    match ((q.tile t).slot n).pend with
    | some x => if slotWaits q t n x.desc then q else applySlot t n q
    | none => q) p0
  let p2 := forAll (groupUsers tl g ++ groupUsers (p1.tile t) g).eraseDups (fun u q => if userHeld q t u then q else switchAll t u q) p1
  let p3 := forAll ms (runControls t) p2
  if groupWaits p3 t g then p3 else applyGroup t g p3

/-- Steps 1 to 3 of R205 for every group of tile `t` whose boundary is now: each once (R205). The machines of all of them commit
in index order (R252), and each boundary triggers the sequences armed on it (R172). -/
def boundarySteps (t : Nat) (p : Pkg) : Pkg :=
  let gs := (List.range 8).filter (fun g => boundaryNow p t g && ((p.tile t).group g).committedAt != some p.now)
  let p1 := forAll gs (fun g q => commitGroup t g (evaluating p t g (p.tile t).loopFree (slotTurn p t))
    (evaluating p t g (p.tile t).tableFree (machineTurn p t)) (onGrp t g (fun x => { x with committedAt := some q.now }) q)) p
  let ms := (List.range 256).filter (fun m => gs.any (fun g => (groupMachines (p1.tile t) g).contains m))
  forAll gs (fun g => trigger t (1 + g)) (forAll gs (changeGroup t) (forAll ms (commitMachine t) p1))

/-- A slot may be evaluated: latched, its inputs there, its deadline not passed, and its turn come in its group and among the
groups (R59, R60, R205). -/
def slotReady (p : Pkg) (t n : Nat) : Bool :=
  let tl := p.tile t
  let g := dGroup (tl.slot n).desc
  online p t && (undoneSlots tl g).head? == some n && slotTurn p t == some g

/-- A machine may be evaluated. -/
def machineReady (p : Pkg) (t m : Nat) : Bool :=
  let tl := p.tile t
  let g := machineGroup (tl.machine m).image
  online p t && (undoneMachines tl g).head? == some m && machineTurn p t == some g

/-- Remote inputs not returned by half the period are latched from the copies (R61, R533). -/
def timeoutReads (t g : Nat) (p : Pkg) : Pkg :=
  forAll ((p.tile t).group g).awaited (fun h q => latchRemote t g h (staleForm (copyOf q t h)) q) p

/-- The tick at which a group's remote reads are given up (R61). -/
def Group.readLimit (g : Group) : Nat := g.latchedAt + g.period / 2

/-- RATE_GROUP_CONFIG (R57, R59, R67, R122, R534). -/
def rateGroupConfig (c : Ctx) (t g enable n : Nat) (p : Pkg) : Pkg :=
  let tl := p.tile t
  let gr := tl.group g
  let en := enable == 1
  if g > 7 then finish c 0x34 stBadHandle t p
  else if enable > 1 || n < 1 || n > 2 ^ 25 then finish c 0x34 stBadParam t p
  else if gr.pend.isNone && gr.enabled == en && gr.n.toNat == n then finish c 0x34 stOk t p
  else
    let base := tl.onGroup g (fun x => { x with pend := none })
    if en && !orderOk base g n then finish c 0x34 stBadParam t p
    else if en && !loadOk base (some (g, true, n)) none then finish c 0x34 stCapacity t p
    else
      let p1 := match gr.pend with
        | some q => finish q.ctx 0x34 stSuperseded t (onGrp t g (fun x => { x with pend := none }) p)
        | none => p
      let adds := en && (!gr.enabled || n < gr.n.toNat)
      let p2 := if adds then preChange t p1 else p1
      let p3 := onGrp t g (fun x => { x with pend := some { enable := en, n := w32 n, ctx := c } }) p2
      if !gr.enabled && !en then applyGroup t g p3 else accept c 0x34 t p3

/-- Changes that waited only for VCORE, in groups that are not enabled, take effect (R71, R534); in an enabled one they wait for its
boundary (R62). -/
def settledChanges (t : Nat) (p : Pkg) : Pkg :=
  let tl := p.tile t
  let slots := (tl.slots.filter (fun q => q.2.pend.isSome && !(tl.group (dGroup q.2.desc)).enabled)).map (·.1)
  let p1 := forAll slots (fun n q =>
    if ((q.tile t).slot n).pend.isSome then applySlot t n q else q) p
  let users := (tl.tables.commits.flatMap (fun x => if x.written && x.kind == 0 then x.waiting.filter (fun u =>
    match u with
    | .machine _ => !userWaits p1 t u x
    | _ => false) else [])).eraseDups
  forAll users (switchAll t) p1

end Sys2Proof.Machine
end

