-- ==== Sys2Proof/Machine/CmdLoops.lean ====
section
/-!
DEFINITION. The loop family (R121, R122, R196 to R230): LOOP_WRITE, LOOP_READ, LOOP_MODE, LOOP_CLEAR_FLAGS, RATE_GROUP_CONFIG.
-/

namespace Sys2Proof.Machine

/-- LOOP_WRITE (R198, R201, R207). -/
def execLoopWrite (c : Ctx) (slot : BitVec 16) (ei rsv : Byte) (desc : BitVec 512) : State → Host.Outcome State Fault Refusal :=
  lift (command (.loopWrite c slot ei rsv desc) (fun t p =>
    if slot.toNat > 511 then finish c 0x30 stBadHandle t p else loopWrite t slot.toNat desc c p))

/-- LOOP_READ (R199): the descriptor in force. -/
def execLoopRead (c : Ctx) (slot rsv : BitVec 16) : State → Host.Outcome State Fault Refusal :=
  lift (command (.loopRead c slot rsv) (fun t p =>
    if slot.toNat > 511 then finish c 0x31 stBadHandle t p
    else reply c 0x31 t (recBytes ((p.tile t).slot slot.toNat).desc) p))

/-- LOOP_MODE (R216). -/
def execLoopMode (c : Ctx) (slot : BitVec 16) (mode ei : Byte) (man : Word) : State → Host.Outcome State Fault Refusal :=
  lift (command (.loopMode c slot mode ei man) (fun t p =>
    if slot.toNat > 511 then finish c 0x32 stBadHandle t p
    else if mode.toNat > 3 then finish c 0x32 stBadParam t p
    else loopMode t slot.toNat mode.toNat man c p))

/-- LOOP_CLEAR_FLAGS (R223). -/
def execLoopClearFlags (c : Ctx) (slot : BitVec 16) (mask ei : Byte) : State → Host.Outcome State Fault Refusal :=
  lift (command (.loopClearFlags c slot mask ei) (fun t p =>
    if slot.toNat > 511 then finish c 0x33 stBadHandle t p
    else if mask.getLsbD 7 then finish c 0x33 stBadParam t p
    else finish c 0x33 stOk t (onTile t (Tile.onSlot slot.toNat (fun s => { s with flags := s.flags &&& ~~~(mask.setWidth 7) })) p)))

/-- RATE_GROUP_CONFIG (R57, R59, R62, R67, R534). -/
def execRateGroupConfig (c : Ctx) (group enable : Byte) (rsv : BitVec 16) (n : Word) : State → Host.Outcome State Fault Refusal :=
  lift (command (.rateGroupConfig c group enable rsv n) (fun t p =>
    rateGroupConfig c t group.toNat enable.toNat n.toNat p))

end Sys2Proof.Machine
end

