-- ==== Sys2Proof/Machine/CmdMotion.lean ====
section
/-!
DEFINITION. The motion commands (R124, R125, R298 to R354): PROFILE_LOAD, PROFILE_FIRE, PROFILE_CANCEL, PROFILE_STATUS,
ANGLE_CONFIG, ANGLE_SCHEDULE, STEPPER_CONFIG, STEPPER_MOVE, STEPPER_STOP, STEPPER_HOME, FAN_CONFIG, FAN_STATUS, FAN_BASELINE.
-/

namespace Sys2Proof.Machine

/-- PROFILE_LOAD (R125, R298, R299). -/
def execProfileLoad (c : Ctx) (program count : Byte) (rsv : BitVec 16) (instrs : List Word) :
    State → Host.Outcome State Fault Refusal :=
  lift (command (.profileLoad c program count rsv instrs) (fun t p =>
    let n := program.toNat
    if n > 15 then finish c 0x60 stBadHandle t p
    else if count == 0 || count.toNat > 64 || !programOk instrs then finish c 0x60 stBadParam t p
    else if (List.range 8).any (fun e => ((p.tile t).engine e).phase == .running && ((p.tile t).engine e).program == program) then
      finish c 0x60 stRefusedState t p
    else finish c 0x60 stOk t (onTile t (fun tl => { tl with programs := tl.programs.set n instrs }) p)))

/-- PROFILE_FIRE (R300, R301, R309). -/
def execProfileFire (c : Ctx) (engine program ei rsv : Byte) (param : Word) : State → Host.Outcome State Fault Refusal :=
  lift (command (.profileFire c engine program ei rsv param) (fun t p =>
    if !fireHandleOk engine.toNat program.toNat then finish c 0x61 stBadHandle t p
    else fire t engine.toNat program.toNat param (.command c) p))

/-- PROFILE_CANCEL (R309). -/
def execProfileCancel (c : Ctx) (engine ei : Byte) (rsv : BitVec 16) : State → Host.Outcome State Fault Refusal :=
  lift (command (.profileCancel c engine ei rsv) (fun t p =>
    if engine.toNat > 7 then finish c 0x62 stBadHandle t p
    else finish c 0x62 stOk t (cancelProfile t engine.toNat p)))

/-- PROFILE_STATUS (R312). -/
def execProfileStatus (c : Ctx) (engine : Byte) (rsv : BitVec 24) : State → Host.Outcome State Fault Refusal :=
  lift (command (.profileStatus c engine rsv) (fun t p =>
    if engine.toNat > 7 then finish c 0x63 stBadHandle t p
    else reply c 0x63 t (engineStatus ((p.tile t).engine engine.toNat)) p))

/-- ANGLE_CONFIG (R314, R315). A running tracker takes only the clearing of ENABLE. -/
def execAngleConfig (c : Ctx) (tracker ei : Byte) (rsv : BitVec 16) (cfg : BitVec 128) :
    State → Host.Outcome State Fault Refusal :=
  lift (command (.angleConfig c tracker ei rsv cfg) (fun t p =>
    let k := tracker.toNat
    let x := (p.tile t).tracker k
    if k > 1 then finish c 0x64 stBadHandle t p
    else if !trackerCfgOk (p.tile t) cfg then finish c 0x64 stBadParam t p
    else if tcEnable x.cfg && cfg != x.cfg &&& ~~~(1#128 <<< 9) then finish c 0x64 stRefusedState t p
    else
      let go (y : Tracker) : Tracker := if tcEnable cfg then startTracker y else stopTracker y
      finish c 0x64 stOk t (trackerItems t k (onTrk t k (fun y => go { y with cfg := cfg, configured := true }) p))))

/-- Fields of a schedule entry (R124, R321). -/
def seAngle (w : Word) : Nat := bits w 15 0
def seEngine (w : Word) : Nat := bits w 23 16
def seProgram (w : Word) : Nat := bits w 31 24

/-- ANGLE_SCHEDULE (R321): pending until tooth 0 in SYNC, at once in any other state. -/
def execAngleSchedule (c : Ctx) (tracker count : Byte) (rsv : BitVec 16) (entries : List Word) :
    State → Host.Outcome State Fault Refusal :=
  lift (command (.angleSchedule c tracker count rsv entries) (fun t p =>
    let k := tracker.toNat
    if k > 1 || entries.any (fun w => seEngine w > 7 || seProgram w > 15) then finish c 0x65 stBadHandle t p
    else if count.toNat > 8 || entries.any (fun w => seAngle w > 3599) then finish c 0x65 stBadParam t p
    else finish c 0x65 stOk t (onTrk t k (fun x =>
      if x.state == .sync then { x with pendSchedule := some entries } else { x with schedule := entries, pendSchedule := none }) p)))

/-- STEPPER_CONFIG (R327, R328). -/
def execStepperConfig (c : Ctx) (unit ei : Byte) (rsv : BitVec 16) (cfg : BitVec 256) :
    State → Host.Outcome State Fault Refusal :=
  lift (command (.stepperConfig c unit ei rsv cfg) (fun t p =>
    let u := unit.toNat
    if u > 3 then finish c 0x68 stBadHandle t p
    else if !stepperRangeOk cfg || (scEnable cfg && !stepperCheckOk (p.tile t) u cfg) then finish c 0x68 stBadParam t p
    else if ((p.tile t).stepper u).runs then finish c 0x68 stRefusedState t p
    else finish c 0x68 stOk t (configStepper t u cfg p)))

/-- STEPPER_MOVE (R332, R333). -/
def execStepperMove (c : Ctx) (unit ei : Byte) (rsv : BitVec 16) (target : Word) : State → Host.Outcome State Fault Refusal :=
  lift (command (.stepperMove c unit ei rsv target) (fun t p =>
    if unit.toNat > 3 then finish c 0x69 stBadHandle t p
    else stepperMove t unit.toNat target.toInt (.command c) p))

/-- STEPPER_STOP (R334). -/
def execStepperStop (c : Ctx) (unit ei : Byte) (rsv : BitVec 16) : State → Host.Outcome State Fault Refusal :=
  lift (command (.stepperStop c unit ei rsv) (fun t p =>
    if unit.toNat > 3 then finish c 0x6A stBadHandle t p
    else stepperStop t unit.toNat (.command c) p))

/-- STEPPER_HOME (R125, R335). -/
def execStepperHome (c : Ctx) (unit ei dir rsv : Byte) : State → Host.Outcome State Fault Refusal :=
  lift (command (.stepperHome c unit ei dir rsv) (fun t p =>
    let u := unit.toNat
    let x := (p.tile t).stepper u
    if u > 3 then finish c 0x6B stBadHandle t p
    else if dir.toNat > 1 then finish c 0x6B stBadParam t p
    else if x.state == .unconfigured || scHomeMode x.cfg == 0 then finish c 0x6B stRefusedState t p
    else stepperHome t u (if dir == 1 then 1 else -1) c p))

/-- FAN_CONFIG (R340, R341). -/
def execFanConfig (c : Ctx) (unit ei : Byte) (rsv : BitVec 16) (cfg : BitVec 256) : State → Host.Outcome State Fault Refusal :=
  lift (command (.fanConfig c unit ei rsv cfg) (fun t p =>
    let u := unit.toNat
    if u > 3 then finish c 0x6C stBadHandle t p
    else if !fanRangeOk cfg then finish c 0x6C stBadParam t p
    else if (fanSupplyError p cfg).isSome then finish c 0x6C ((fanSupplyError p cfg).getD stOk) t p
    else if fcEnable cfg && !fanCheckOk (p.tile t) u cfg then finish c 0x6C stBadParam t p
    else if ((p.tile t).fan u).runs then finish c 0x6C stRefusedState t p
    else finish c 0x6C stOk t (configFan t u cfg p)))

/-- FAN_STATUS (R351). -/
def execFanStatus (c : Ctx) (unit : Byte) (rsv : BitVec 24) : State → Host.Outcome State Fault Refusal :=
  lift (command (.fanStatus c unit rsv) (fun t p =>
    let u := unit.toNat
    if u > 3 then finish c 0x6D stBadHandle t p
    else
      let (speed, q) := q16Word ((p.tile t).fan u).speed p
      reply c 0x6D t (fanStatusBytes (p.tile t) u speed) q))

/-- FAN_BASELINE (R125, R348): the eight levels begin. -/
def execFanBaseline (c : Ctx) (unit ei : Byte) (rsv : BitVec 16) : State → Host.Outcome State Fault Refusal :=
  lift (command (.fanBaseline c unit ei rsv) (fun t p =>
    let u := unit.toNat
    let x := (p.tile t).fan u
    if u > 3 then finish c 0x6E stBadHandle t p
    else if x.state != .running || !x.good || x.suspended then finish c 0x6E stRefusedState t p
    else
      startLevel t u 0 (onFanU t u (fun y => { y with state := .baseline, capture := some { ctx := c } }) (accept c 0x6E t p))))

end Sys2Proof.Machine
end

