-- ==== Sys2Proof/Machine/PanelOps.lean ====
section
/-!
DEFINITION. The panel and the key scanner of tile 0 (R480 to R498).
-/

namespace Sys2Proof.Machine

/-- The panel and the keys changed by `f`. -/
def onPanel (f : Panel → Panel) (p : Pkg) : Pkg := onShared (fun s => { s with panel := f s.panel }) p
def onKeys (f : Keys → Keys) (p : Pkg) : Pkg := onShared (fun s => { s with keys := f s.keys }) p

/-- Fields of the panel configuration record (R482). -/
def Panel.enabled (x : Panel) : Bool := bit x.cfg 0
def Panel.crackEn (x : Panel) : Bool := bit x.cfg 1
def Panel.fitted (x : Panel) (s : Nat) : Bool := s < 40 && bit x.cfg (32 + s)

/-- A panel configuration record is in range (R482). -/
def panelCfgOk (r : BitVec 128) : Bool := bits r 31 3 == 0 && bits r 127 72 == 0

/-- Every electrode at one level; 0 is ground (R480). -/
def Panel.allAt (fittedLevel : Nat) (x : Panel) : Panel :=
  { x with levels := if fittedLevel == 0 then [] else ((List.range 40).filter x.fitted).map (fun s => (s, fittedLevel)), top := fittedLevel }

/-- Every electrode and CRACK_A at high impedance (R487, R498). -/
def Panel.float (x : Panel) : Panel :=
  { x with levels := (List.range 40).map (fun s => (s, 3)), top := 3, switches := false, crackA := .highZ }

/-- Every electrode is held at ground by its discharge switch (R482, R487, R498), where the switches have not released. -/
def Panel.ground (x : Panel) : Panel :=
  if x.released then x.float else { x.allAt 0 with switches := true, crackA := .ground }

/-- The electrodes between updates (R482, R484): driven while ENABLE is set and the rails are present. -/
def Panel.idle (x : Panel) : Panel :=
  if x.enabled && x.rails then { x.allAt (if bit x.cfg 2 then 3 else 0) with switches := false } else x.ground

/-- VHOLD is charged again: switches that had released hold (R480, R487). -/
def Panel.recharge (x : Panel) : Panel :=
  if x.released then ({ x with released := false } : Panel).ground else x

/-- CRACK_A while the loop is not measured (R489, R498). -/
def Panel.loopIdle (x : Panel) : Panel := { x with crackA := if x.released then .highZ else .ground }

/-- Phases of a waveform, and one of them (R483). -/
def wvPhases (w : List Byte) : Nat := leAt w 1 1
def wvLevel (w : List Byte) (phase i : Nat) : Nat := leAt w (8 + 4 * phase + i) 1

/-- The level of a segment in a phase (R485). -/
def segLevel (x : Panel) (w : List Byte) (states : BitVec 40) (phase s : Nat) : Nat :=
  if !x.fitted s then 0
  else if leAt w 2 1 % 2 == 1 && bit states s == bit x.shown s && !bit x.unknown s then wvLevel w phase 2
  else wvLevel w phase (if bit states s then 0 else 1)

/-- The electrodes in a phase (R484, R485). -/
def Panel.drivePhase (w : List Byte) (states : BitVec 40) (phase : Nat) (x : Panel) : Panel :=
  { x with levels := ((List.range 40).map (fun s => (s, segLevel x w states phase s))).filter (fun q => q.2 != 0)
           top := wvLevel w phase 2, switches := false }

/-- The fitted segments. -/
def Panel.fittedMask (x : Panel) : BitVec 40 := x.cfg.extractLsb' 32 40

/-- The segments that an update would change (R486). -/
def Panel.wouldChange (states : BitVec 40) (x : Panel) : BitVec 40 := x.fittedMask &&& ((states ^^^ x.shown) ||| x.unknown)

/-- The running update has ended: a commit of its waveform that waits for it has its last user switched (R236, R483). -/
def freeWave (p : Pkg) : Pkg := switchAll 0 .panel p

/-- The running update is cut short with a status (R484, R486): the segments it would change are unknown. -/
def cutUpdate (st : Byte) (p : Pkg) : Pkg :=
  match p.sh.panel.running with
  | none => p
  | some (c, states, _, _, _) =>
    freeWave (finish c 0x90 st 0 (onPanel (fun x => { x.idle with running := none, stopAtPhase := false
                                                                  unknown := x.unknown ||| x.wouldChange states }) p))

/-- A waiting update ends with a status. -/
def dropWaiting (st : Byte) (p : Pkg) : Pkg :=
  match p.sh.panel.waiting with
  | none => p
  | some (c, _, _, _) => finish c 0x90 st 0 (onPanel (fun x => { x.loopIdle with waiting := none }) p)

/-- PANEL_CONFIG takes effect (R482, R486); with CRACK_EN clear the verdict is intact (R489). -/
def configPanel (r : BitVec 128) (p : Pkg) : Pkg :=
  let p1 := dropWaiting stSuperseded p
  onPanel (fun x =>
    let y := { x with cfg := r, unknown := BitVec.allOnes 40, stopAtPhase := x.running.isSome
                      cracked := x.cracked && bit r 1 }
    if x.running.isSome then y else y.idle) p1

/-- The waveform table of an index (R483). -/
def waveTable (p : Pkg) (w : Nat) : List Byte := (p.tile 0).table 3 (16 + w)

/-- PANEL_UPDATE (R128, R484, R486): refused while the verdict stands cracked; with CRACK_EN set the loop is checked first. -/
def panelUpdate (c : Ctx) (wave : Nat) (states : BitVec 40) (p : Pkg) : Pkg :=
  let x := p.sh.panel
  if !x.enabled || !x.rails || x.cracked then finish c 0x90 stRefusedState 0 p
  else if 15 < wave || (waveTable p wave).isEmpty then finish c 0x90 stBadParam 0 p
  else onPanel (fun x => { x with waiting := some (c, states, BitVec.ofNat 8 wave, !x.crackEn), readyAt := p.now
                                  crackA := if x.crackEn then .excited else x.crackA })
    (dropWaiting stSuperseded (accept c 0x90 0 p))

/-- Ticks of a phase (R483). -/
def phaseTicks : Nat := 20 * msTicks

/-- The tick at which the waiting update may start: the first whole multiple of 20 ms after its check (R484, R486). -/
def Panel.startAt (x : Panel) : Nat := nextMultiple phaseTicks (x.readyAt + 1)

/-- The waiting update starts its first phase at tick `at_` (R472, R484). -/
def startUpdate (at_ : Nat) (p : Pkg) : Pkg :=
  match p.sh.panel.waiting with
  | some (c, states, wave, true) =>
    let w := waveTable p wave.toNat
    if deniedNow p 0 0x90 c then dropWaiting stPolicyChanged (refusedByPolicy 0 p)
    else if w.isEmpty then dropWaiting stBadParam p
    else onPanel (fun x => { x.drivePhase w states 0 with waiting := none, stopAtPhase := false
                                                          running := some (c, states, w, 0, at_ + phaseTicks)
                                                          runWave := wave.toNat }) p
  | _ => p

/-- The last phase has ended (R484, R486): OK, or SUPERSEDED where a newer update has been taken (R128). -/
def endUpdate (c : Ctx) (states : BitVec 40) (p : Pkg) : Pkg :=
  freeWave (finish c 0x90 (if p.sh.panel.waiting.isSome then stSuperseded else stOk) 0 (raise 0 84 (onPanel (fun x => { x.idle with
    running := none, shown := states, unknown := x.unknown &&& ~~~x.fittedMask, discharged := false }) p)))

/-- A waiting update has passed its check, or needs none. -/
def readyToStart (x : Panel) : Bool :=
  match x.waiting with
  | some (_, _, _, checked) => checked
  | none => false

/-- A phase boundary of the panel (R482, R484, R486). -/
def panelPhase (p : Pkg) : Pkg :=
  match p.sh.panel.running with
  | none =>
    let at_ := p.sh.panel.startAt
    if readyToStart p.sh.panel then startUpdate at_ (advanceTo at_ p) else p
  | some (c, states, w, phase, at_) =>
    let p1 := advanceTo at_ p
    if readyToStart p.sh.panel && p.sh.panel.startAt ≤ at_ then startUpdate at_ (cutUpdate stSuperseded p1)
    else if p.sh.panel.stopAtPhase then cutUpdate stSuperseded p1
    else if wvPhases w ≤ phase + 1 then endUpdate c states p1
    else onPanel (fun x => { x.drivePhase w states (phase + 1) with running := some (c, states, w, phase + 1, at_ + phaseTicks) }) p1

/-- The words of a measured resistance (R497). -/
def ohmsOf (milliohms : Nat) : Word := if 10000000 < milliohms then 0xFFFFFFFF else w32 ((milliohms + 500) / 1000)

/-- The verdict of a crack loop check (R489). -/
def crackVerdict (milliohms : Nat) (old : Bool) : Bool :=
  if milliohms ≤ 200000 then false else if 2000000 < milliohms then true else old

/-- A crack loop check has a result (R484, R489): a cracked loop keeps the electrodes at idle, and the older update that still runs
ends SUPERSEDED (R128). At a boot, cracked stands for the previous verdict. -/
def crackResult (boot : Bool) (milliohms : Nat) (p : Pkg) : Pkg :=
  let x := p.sh.panel
  let v := crackVerdict milliohms (x.cracked || boot)
  let p1 := onPanel (fun y => { y.loopIdle with ohms := ohmsOf milliohms, cracked := v, readyAt := p.now
                                                waiting := y.waiting.map (fun w => (w.1, w.2.1, w.2.2.1, true)) }) p
  let p2 := if v && !x.cracked then raise 0 83 p1 else p1
  if v then cutUpdate stSuperseded (dropWaiting stRefusedState p2) else p2

/-- A fast discharge (R486, R487): updates are abandoned and every segment is unknown. -/
def fastDischarge (p : Pkg) : Pkg :=
  onPanel (fun x => { x.ground with discharged := true, unknown := BitVec.allOnes 40 })
    (cutUpdate stRefusedState (dropWaiting stRefusedState p))

/-- Tile 0 leaves service: the electrodes are at ground (R23, R498). -/
def panelStops (p : Pkg) : Pkg := onPanel Panel.ground p

/-- The panel at the offline mark of tile 0 (R48, R498): an update is answered. -/
def panelMark (p : Pkg) : Pkg := onPanel Panel.ground (cutUpdate stTileOffline (dropWaiting stTileOffline p))

/-- An encoder whose inputs count as they stand (R495, R498). -/
def Encoder.settled (x : Encoder) : Encoder := { x with a := x.rawA, b := x.rawB }

/-- The key state starts afresh (R491): encoder counts stay. -/
def Keys.fresh (k : Keys) : Keys := { cfg := k.cfg, enc0 := k.enc0, enc1 := k.enc1 }

/-- The keys as tile 0 returns (R498): edges of the outage are lost. -/
def Keys.back (k : Keys) : Keys := { k.fresh with enc0 := k.enc0.settled, enc1 := k.enc1.settled }

/-- An encoder, and the keys, at a reset of tile 0 (R498): the counts are clear, and what the pins show stays. -/
def Encoder.cleared (x : Encoder) : Encoder :=
  { rawA := x.rawA, rawB := x.rawB, atA := x.atA, atB := x.atB, a := x.rawA, b := x.rawB }
def Keys.cleared (k : Keys) : Keys := { enc0 := k.enc0.cleared, enc1 := k.enc1.cleared }

/-- The panel at a reset of tile 0 (R482, R486, R497): what the rails show, and DISCHARGED, stay. -/
def Panel.cleared (x : Panel) : Panel :=
  ({ rails := x.rails, everPresent := x.everPresent, discharged := x.discharged, released := x.released } : Panel).ground

/-- The panel and keys at a reset of tile 0. -/
def panelReset (p : Pkg) : Pkg := onKeys Keys.cleared (onPanel Panel.cleared p)

/-- The panel and keys as tile 0 comes online (R484, R491, R498). -/
def panelBack (p : Pkg) : Pkg := onKeys Keys.back (onPanel Panel.idle p)

/-- A key configuration record is in range (R491). -/
def keyCfgOk (r : BitVec 64) : Bool := bits r 7 3 == 0 && bits r 63 36 == 0 && bits r 33 32 != 3 && bits r 35 34 != 3

/-- The key columns that are driven low in darkroom with tile 0 as the lead (R498): all but those of masked keys. While a scan runs
KEY_SCAN stands for the four slots of 250 µs (R490); at any other time the columns are at high impedance. -/
def darkColumns (p : Pkg) : List Nat :=
  if p.sh.dark.dark && p.lead == 0 then
    (List.range 4).filter (fun c => !(List.range 4).any (fun r => bit p.sh.keys.masked (4 * r + c)))
  else []

/-- A key or an encoder can wake the package (R378, R498): a press on a row shows while a column is driven low, and an edge of an
encoder always. -/
def keysWake (p : Pkg) : Bool := p.lead == 0 && (!(darkColumns p).isEmpty || p.sh.keys.darkEdge)

/-- A key exists (R491). -/
def Keys.fitted (k : Keys) : BitVec 16 := k.cfg.extractLsb' 16 16

/-- An entry of the key ring (R496). -/
def keyEntry (source typ step : Nat) (state : BitVec 16) (p : Pkg) : Pkg :=
  let v := w32 (source + 16 * typ + 256 * step + 65536 * state.toNat)
  let ((q, _), o) := putEntry 0 1 (p.now / usTicks) v 0xA0 p
  overflowed 0 o q

/-- Bit `i` of a key mask set or cleared. -/
def keyBit (m : BitVec 16) (i : Nat) (b : Bool) : BitVec 16 := setBits m i i (b2n b)

/-- Three keys read pressed at three corners of a rectangle (R493): some row shares two pressed keys with columns of which one
holds a third. -/
def ghosted (m : BitVec 16) : Bool :=
  (List.range 16).any (fun k => bit m k
    && (List.range 4).any (fun c => c != k % 4 && bit m (k / 4 * 4 + c))
    && (List.range 4).any (fun r => r != k / 4 && bit m (r * 4 + k % 4)))

/-- An accepted change of a key (R492, R494): a masked key that is released is unmasked. -/
def acceptKey (now i : Nat) (pressed : Bool) (k : Keys) : Keys :=
  let k1 := { k with counts := k.counts.set i 0 }
  if pressed then
    let a := keyBit k.accepted i true
    { k1 with accepted := a, pressedAt := k.pressedAt.set i now, changes := k.changes ++ [(i, 0, a)] }
  else if bit k.masked i then { k1 with masked := keyBit k.masked i false, changes := k.changes ++ [(i, 6, k.accepted)] }
  else
    let a := keyBit k.accepted i false
    { k1 with accepted := a, changes := k.changes ++ [(i, 1, a)] }

/-- The debounce of one fitted key over a scan (R492). -/
def debounce (now : Nat) (raw : BitVec 16) (k : Keys) (i : Nat) : Keys :=
  let down := bit k.accepted i || bit k.masked i
  if bit raw i == down then { k with counts := k.counts.set i 0 }
  else
    let n := k.counts.getD i 0 + 1
    if 8 ≤ n then acceptKey now i (bit raw i) k else { k with counts := k.counts.set i n }

/-- One scan of the matrix (R490 to R494). -/
def scanKeys (pressed : BitVec 16) (p : Pkg) : Pkg :=
  let k := p.sh.keys
  let raw := pressed &&& k.fitted
  if ghosted raw then
    let p1 := onKeys (fun x => { x with counts := [], clearScans := 0, ghost := true }) p
    if k.ghost then p1 else raise 0 81 (keyEntry 0 3 0 k.accepted p1)
  else if k.ghost then
    if 8 ≤ k.clearScans + 1 then keyEntry 0 4 0 k.accepted (onKeys (fun x => { x with ghost := false, clearScans := 0 }) p)
    else onKeys (fun x => { x with clearScans := x.clearScans + 1 }) p
  else onKeys (fun x => ((List.range 16).filter (fun i => bit x.fitted i)).foldl (debounce p.now raw) x) p

/-- The stuck timeout (R491). -/
def stuckTicks (k : Keys) : Nat := (if bits k.cfg 15 8 == 0 then 60 else bits k.cfg 15 8) * secTicks

/-- The accepted changes are written to the key ring, each with event 79 (R492). -/
def writeChanges (p : Pkg) : Pkg :=
  forAll p.sh.keys.changes (fun c q => raise 0 79 (keyEntry c.1 c.2.1 0 c.2.2 q)) (onKeys (fun k => { k with changes := [] }) p)

/-- Encoder `e`, and the encoder changed by `f`. -/
def encOf (k : Keys) (e : Bool) : Encoder := if e then k.enc1 else k.enc0
def onEnc (e : Bool) (f : Encoder → Encoder) (p : Pkg) : Pkg :=
  onKeys (fun k => if e then { k with enc1 := f k.enc1 } else { k with enc0 := f k.enc0 }) p

/-- Encoder `e` is decoded, and its quarter-steps per count (R491). -/
def encOn (k : Keys) (e : Bool) : Bool := bit k.cfg (if e then 2 else 1)
def encDiv (k : Keys) (e : Bool) : Nat := 2 ^ (if e then bits k.cfg 35 34 else bits k.cfg 33 32)

/-- An input of an encoder changes level (R495): one that is not decoded is only followed. -/
def Encoder.edge (now : Nat) (inputB level decoded : Bool) (x : Encoder) : Encoder :=
  let y := if inputB then (if x.rawB == level then x else { x with rawB := level, atB := now })
    else (if x.rawA == level then x else { x with rawA := level, atA := now })
  if decoded then y else { y with a := y.rawA, b := y.rawB }

/-- A quarter-step of an encoder, +1 or −1 (R495). -/
def quarterStep (e : Bool) (d : Int) (p : Pkg) : Pkg :=
  let k := p.sh.keys
  let q := (encOf k e).quarter + d
  if q.natAbs < encDiv k e then onEnc e (fun x => { x with quarter := q }) p
  else
    let p1 := onEnc e (fun x => { x with quarter := 0, count := x.count + wordOf d }) p
    raise 0 82 (keyEntry (b2n e) 2 (if d > 0 then 1 else 255) ((encOf p1.sh.keys e).count.extractLsb' 0 16) p1)

/-- The ticks for which an encoder input must be stable (R495). -/
def settleTicks : Nat := 500 * usTicks

/-- An input of an encoder has been stable for 500 µs (R495): a transition in which both changed is ignored. -/
def encoderSettles (e inputB : Bool) (p : Pkg) : Pkg :=
  let x := encOf p.sh.keys e
  let changed := if inputB then x.rawB != x.b else x.rawA != x.a
  let other := if inputB then x.rawA != x.a && x.atA == x.atB else x.rawB != x.b && x.atA == x.atB
  if !changed then p
  else
    let p1 := advanceTo ((if inputB then x.atB else x.atA) + settleTicks) p
    if other then onEnc e (fun y => { y with a := y.rawA, b := y.rawB }) p1
    else if inputB then quarterStep e (if x.rawB == x.a then 1 else -1) (onEnc e (fun y => { y with b := y.rawB }) p1)
    else quarterStep e (if x.rawA != x.b then 1 else -1) (onEnc e (fun y => { y with a := y.rawA }) p1)

end Sys2Proof.Machine
end

