-- ==== Sys2Proof/Machine/CmdPanel.lean ====
section
/-!
DEFINITION. The panel family (R127, R128, R482 to R491): PANEL_UPDATE, PANEL_CONFIG, KEY_CONFIG.
-/

namespace Sys2Proof.Machine

/-- PANEL_UPDATE (R127, R128, R484). -/
def execPanelUpdate (c : Ctx) (wave : Byte) (rsv : BitVec 24) (states : BitVec 64) : State → Host.Outcome State Fault Refusal :=
  lift (command (.panelUpdate c wave rsv states) (fun _ p => panelUpdate c wave.toNat (states.extractLsb' 0 40) p))

/-- PANEL_CONFIG (R127, R482). -/
def execPanelConfig (c : Ctx) (rec : BitVec 128) : State → Host.Outcome State Fault Refusal :=
  lift (command (.panelConfig c rec) (fun t p =>
    if panelCfgOk rec then finish c 0x91 stOk t (configPanel rec p) else finish c 0x91 stBadParam t p))

/-- KEY_CONFIG (R127, R491): the key state starts afresh; the encoder counts stay, and changes accepted before still reach the ring
(R492). -/
def execKeyConfig (c : Ctx) (rec : BitVec 64) : State → Host.Outcome State Fault Refusal :=
  lift (command (.keyConfig c rec) (fun t p =>
    if keyCfgOk rec then finish c 0x92 stOk t (onKeys (fun k => { k.fresh with cfg := rec, changes := k.changes }) p)
    else finish c 0x92 stBadParam t p))

end Sys2Proof.Machine
end

