-- ==== Sys2Proof/Machine/CmdPoints.lean ====
section
/-!
DEFINITION. The point commands (R24 to R33, R110, R116, R119): POINT_READ, POINT_WRITE, POINT_READ_MULTI,
POINT_WRITE_MULTI, POINT_OVERRIDE, POINT_RELEASE.
-/

namespace Sys2Proof.Machine

/-- What a command finds wrong with the handle of one of its points at tile `t` (R24, R110). -/
def pointError (p : Pkg) (t : Nat) (h : Handle) : Option Byte :=
  if bits h 31 24 != 0 || handleTile h != ownNo p t then some stBadParam
  else if keyValid p t (handleKey h) then none
  else some stBadHandle

/-- A command came by the service port, which owns no point (R31). -/
def fromServicePort (c : Ctx) : Bool := match c.src with | .service .. => true | _ => false

/-- What a POINT_WRITE finds wrong with its point (R25, R31, R119): a point that no engine owns is the host port's. -/
def writeError (p : Pkg) (t : Nat) (c : Ctx) (h : Handle) : Option Byte :=
  match pointError p t h with
  | some st => some st
  | none =>
    if notWritable p t (handleKey h) then some stBadHandle
    else if fromServicePort c || notHostOwned p t (handleKey h) then some stRefusedState
    else none

/-- The die temperatures are measured when a read names any of them (R370). -/
def measuredFor (t : Nat) (hs : List Handle) (p : Pkg) : Pkg :=
  if hs.any (fun h => handleClass h == 0 && 32 ≤ handleIdx h && handleIdx h ≤ 35) then measureDie t p else p

/-- POINT_READ (R27, R370). -/
def execPointRead (c : Ctx) (h : Handle) : State → Host.Outcome State Fault Refusal :=
  lift (command (.pointRead c h) (fun t p =>
    match pointError p t h with
    | some st => finish c 0x10 st t p
    | none => let q := measuredFor t [h] p; reply c 0x10 t (pointBytes (readPoint q t (handleKey h))) q))

/-- POINT_WRITE (R31, R32, R119). -/
def execPointWrite (c : Ctx) (h : Handle) (v : Word) (ei : Byte) (rsv : BitVec 24) : State → Host.Outcome State Fault Refusal :=
  lift (command (.pointWrite c h v ei rsv) (fun t p =>
    match writeError p t c h with
    | some st => finish c 0x11 st t p
    | none => finish c 0x11 stOk t (ownerWrite t (handleKey h) v .good p)))

/-- POINT_READ_MULTI (R30, R116): the records in payload order. -/
def execPointReadMulti (c : Ctx) (hs : List Handle) : State → Host.Outcome State Fault Refusal :=
  lift (command (.pointReadMulti c hs) (fun t p =>
    match hs.findSome? (pointError p t) with
    | some st => finish c 0x12 st t p
    | none =>
      let q := measuredFor t hs p
      reply c 0x12 t (hs.flatMap (fun h => pointBytes (readPoint q t (handleKey h)))) q))

/-- POINT_WRITE_MULTI (R119): every check comes before any write. -/
def execPointWriteMulti (c : Ctx) (ei : Byte) (rsv : BitVec 24) (pairs : List (Handle × Word)) :
    State → Host.Outcome State Fault Refusal :=
  lift (command (.pointWriteMulti c ei rsv pairs) (fun t p =>
    match pairs.findSome? (fun x => writeError p t c x.1) with
    | some st => finish c 0x13 st t p
    | none => finish c 0x13 stOk t (forAll pairs (fun x => ownerWrite t (handleKey x.1) x.2 .good) p)))

/-- POINT_OVERRIDE (R25, R32, R33, R302). -/
def execPointOverride (c : Ctx) (h : Handle) (v : Word) (ei : Byte) (rsv : BitVec 24) :
    State → Host.Outcome State Fault Refusal :=
  lift (command (.pointOverride c h v ei rsv) (fun t p =>
    let k := handleKey h
    match pointError p t h with
    | some st => finish c 0x14 st t p
    | none =>
      if notWritable p t k then finish c 0x14 stBadHandle t p
      else
        let p1 := if keyClass k == 1 || keyClass k == 2 then overrideEngine t (keyIdx k / 8) p else p
        let p2 := onTile t (fun tl => if overridden tl k then tl else { tl with overrides := tl.overrides ++ [ownKey k] }) p1
        finish c 0x14 stOk t (overrideWrite t k v p2)))

/-- POINT_RELEASE (R32): the point keeps its value and quality until the owner's next write. -/
def execPointRelease (c : Ctx) (h : Handle) (ei : Byte) (rsv : BitVec 24) : State → Host.Outcome State Fault Refusal :=
  lift (command (.pointRelease c h ei rsv) (fun t p =>
    let k := handleKey h
    match pointError p t h with
    | some st => finish c 0x15 st t p
    | none =>
      if !overridden (p.tile t) k then finish c 0x15 stBadState t p
      else finish c 0x15 stOk t (onTile t (fun tl => { tl with overrides := tl.overrides.filter (· != ownKey k) }) p)))

end Sys2Proof.Machine
end

