-- ==== Sys2Proof/Machine/CmdPolicy.lean ====
section
/-!
DEFINITION. Policies, the owner lock and entropy (R128, R469 to R479): POLICY_LOAD, POLICY_READ, OWNER_LOCK, ENTROPY_READ,
POLICY_SWITCH, ENTROPY_CONDITION, ENTROPY_HEALTH_FAILURE, ENTROPY_WAIT_EXPIRY.
-/

namespace Sys2Proof.Machine

/-- A rule record is in range (R470). -/
def ruleOk (r : BitVec 64) : Bool :=
  (bits r 7 0 ≤ 14 || bits r 7 0 == 0xFF) && bits r 15 11 == 0 && bits r 47 32 ≤ bits r 63 48

/-- A rules block is in range for a port (R470). -/
def rulesOk (port : Nat) (b : List Byte) : Bool :=
  leAt b 0 4 < 2 ^ 18 && (port < 2 || leAt b 0 4 == 0) && leAt b 4 2 ≤ 125 && leAt b 6 2 == 0
    && (List.range (leAt b 4 2)).all (fun i => ruleOk (recOf 64 (slice b (8 + 8 * i) 8)))

/-- The policy that a rules block spells. -/
def policyOf (epoch : BitVec 16) (b : List Byte) : Policy :=
  { epoch := epoch, commands := w32 (leAt b 0 4)
    rules := (List.range (leAt b 4 2)).map (fun i => recOf 64 (slice b (8 + 8 * i) 8)) }

/-- The rules block of a policy (R470). -/
def policyBytes (q : Policy) : List Byte :=
  le 4 q.commands.toNat ++ le 2 q.rules.length ++ zeros 2 ++ q.rules.flatMap recBytes

/-- The tiles that a package-wide flash write checks first: those in service (R359, R474). -/
def onlineTiles (p : Pkg) : List Nat := (List.range p.n).filter (online p)

/-- The new epoch is 1 to 32,767 ahead of the present one (R474). -/
def epochAhead (new old : BitVec 16) : Bool := 1 ≤ (new - old).toNat && (new - old).toNat ≤ 32767

/-- POLICY_LOAD (R111, R128, R470, R474): OK comes with the switch. -/
def execPolicyLoad (c : Ctx) (port rsv : Byte) (epoch : BitVec 16) (rules : List Byte) : State → Host.Outcome State Fault Refusal :=
  lift (command (.policyLoad c port rsv epoch rules) (fun t p =>
    if port.toNat > 5 then finish c 0xB0 stBadHandle t p
    else if !rulesOk port.toNat rules || !epochAhead epoch ((p.tile t).policy port.toNat).epoch then
      finish c 0xB0 stBadParam t p
    else if ownerLocked p then finish c 0xB0 stRefusedState t p
    else withFlash c 0xB0 t (onlineTiles p) (fun p => onShared (fun s => { s with policyPend := s.policyPend ++
      [{ port := port.toNat, policy := policyOf epoch rules, at_ := nextMultiple msTicks (p.now + 1), ctx := c }] }) p) p))

/-- POLICY_READ (R111, R470). -/
def execPolicyRead (c : Ctx) (port : Byte) (rsv : BitVec 24) : State → Host.Outcome State Fault Refusal :=
  lift (command (.policyRead c port rsv) (fun t p =>
    if port.toNat > 5 then finish c 0xB1 stBadHandle t p
    else
      let q := (p.tile t).policy port.toNat
      reply c 0xB1 t (le 2 q.epoch.toNat ++ zeros 2 ++ policyBytes q) p))

/-- OWNER_LOCK (R475). -/
def execOwnerLock (c : Ctx) (set : Byte) (rsv : BitVec 24) : State → Host.Outcome State Fault Refusal :=
  lift (command (.ownerLock c set rsv) (fun t p =>
    if set.toNat > 1 then finish c 0xB2 stBadParam t p
    else if ownerLocked p == (set == 1) then finish c 0xB2 stOk t p
    else withFlash c 0xB2 t (onlineTiles p) (fun p =>
      finish c 0xB2 stOk t (onTiles (fun _ tl => { tl with flash := { tl.flash with ownerLock := set == 1 } }) p)) p))

/-- Every policy that has been written takes effect (R474). -/
def switchPolicies (l : List PendPolicy) (p : Pkg) : Pkg :=
  forAll l (fun q p =>
    finish q.ctx 0xB0 stOk p.lead (raiseAll 85
      (onTiles (fun _ tl => { tl with policies := tl.policies.set q.port q.policy }) p))) p

/-- POLICY_SWITCH (R474). -/
def execPolicySwitch : State → Host.Outcome State Fault Refusal :=
  lift (fun p =>
    match p.sh.policyPend with
    | [] => p
    | q :: _ =>
      let p1 := advanceTo q.at_ p
      let due (x : PendPolicy) : Bool := x.at_ ≤ p1.now
      switchPolicies (p1.sh.policyPend.filter due)
        (onShared (fun s => { s with policyPend := s.policyPend.filter (fun x => !due x) }) p1))

/-- The entropy source of a tile changed by `f`. -/
def onEntropy (t : Nat) (f : Entropy → Entropy) (p : Pkg) : Pkg := onTile t (fun tl => { tl with entropy := f tl.entropy }) p

/-- Waiting ENTROPY_READs take their bytes while the pool holds enough (R472, R479). -/
def serveEntropy (t : Nat) : List EntropyWait → Pkg → Pkg
  | [], p => onEntropy t (fun e => { e with waits := [] }) p
  | w :: rest, p =>
    let pool := (p.tile t).entropy.pool
    if deniedNow p t 0xB3 w.ctx then serveEntropy t rest (denyCommit t 0xB3 w.ctx p)
    else if w.bytes ≤ pool.length then
      serveEntropy t rest (reply w.ctx 0xB3 t (pool.take w.bytes) (onEntropy t (fun e => { e with pool := e.pool.drop w.bytes }) p))
    else onEntropy t (fun e => { e with waits := w :: rest }) p

/-- ENTROPY_READ (R477, R479). -/
def execEntropyRead (c : Ctx) (bytes rsv : BitVec 16) : State → Host.Outcome State Fault Refusal :=
  lift (command (.entropyRead c bytes rsv) (fun t p =>
    let n := bytes.toNat
    let e := (p.tile t).entropy
    if n < 4 || n > 256 || n % 4 != 0 then finish c 0xB3 stBadParam t p
    else if !e.ready then finish c 0xB3 stNotReady t p
    else serveEntropy t (e.waits ++ [{ ctx := c, bytes := n, until_ := p.now + 100 * msTicks }]) p))

/-- The health tests over 1,024 samples, the first in bit 0 (R476): a repetition count of 41, or in the window of 1,024 a count of
793 of its first sample, fails. They are the cutoffs of NIST SP 800-90B, section 4.4, for a false alarm rate of 2^-20, a min-entropy
of 0.5 bit and that window. Answers the last sample, its run, and whether a test failed. -/
def healthTests (e : Entropy) (samples : BitVec 1024) : Bool × Nat × Bool :=
  let first := samples.getLsbD 0
  let step (a : Bool × Nat × Nat × Bool) (i : Nat) : Bool × Nat × Nat × Bool :=
    let b := samples.getLsbD i
    let run := if b == a.1 then a.2.1 + 1 else 1
    let count := a.2.2.1 + b2n (b == first)
    (b, run, count, a.2.2.2 || 41 ≤ run || 793 ≤ count)
  let r := (List.range 1024).foldl step (e.last, e.run, 0, false)
  (r.1, r.2.1, r.2.2.2)

/-- A health test has failed (R477, R478): the pool and readiness go, and with it every request that waits; the tests begin again. -/
def healthFailure (t : Nat) (p : Pkg) : Pkg :=
  let e := (p.tile t).entropy
  let recent := (e.failures.filter (fun x => p.now < x + 10 * secTicks)) ++ [p.now]
  let third := 3 ≤ recent.length
  let p1 := onEntropy t (fun _ => { failed := third, failures := recent }) p
  let p2 := raise t 91 (forAll e.waits (fun w => finish w.ctx 0xB3 stNotReady t) p1)
  if third then raise t 127 p2 else p2

/-- 1,024 samples have passed the tests (R476, R477): the first are the start-up test, later ones are hashed into the pool. -/
def conditionSamples (t : Nat) (samples : BitVec 1024) (p : Pkg) : Pkg :=
  let e := (p.tile t).entropy
  if !e.started then onEntropy t (fun e => { e with started := true }) p
  else
    let p1 := onEntropy t (fun e => { e with pool := (e.pool ++ sha256 (le 128 samples.toNat)).take 512 }) p
    let p2 := if !e.ready && 512 ≤ poolBits (p1.tile t).entropy then raise t 90 (onEntropy t (fun e => { e with ready := true }) p1) else p1
    serveEntropy t (p2.tile t).entropy.waits p2

/-- ENTROPY_CONDITION (R476 to R478): the samples are tested, and those that pass conditioned. -/
def execEntropyCondition (tile : TileId) (samples : BitVec 1024) : State → Host.Outcome State Fault Refusal :=
  liftTile tile (fun t p =>
    let e := (p.tile t).entropy
    if !awake p || e.failed || (p.tile t).boot.state == .offline then p
    else
      let (last, run, bad) := healthTests e samples
      if bad then healthFailure t p
      else conditionSamples t samples (onEntropy t (fun e => { e with last := last, run := run }) p))

/-- ENTROPY_HEALTH_FAILURE (R477, R478). -/
def execEntropyHealthFailure (tile : TileId) : State → Host.Outcome State Fault Refusal :=
  liftTile tile (fun t p => if !awake p || (p.tile t).entropy.failed then p else healthFailure t p)

/-- ENTROPY_WAIT_EXPIRY (R479). -/
def execEntropyWaitExpiry (tile : TileId) : State → Host.Outcome State Fault Refusal :=
  liftTile tile (fun t p =>
    match (p.tile t).entropy.waits with
    | [] => p
    | w :: rest =>
      let p1 := finish w.ctx 0xB3 stNotReady t (onEntropy t (fun e => { e with waits := rest }) (advanceTo w.until_ p))
      serveEntropy t rest p1)

end Sys2Proof.Machine
end

