-- ==== Sys2Proof/Machine/PlanForm.lean ====
section
/-!
DEFINITION. Plans as data: the forecast series (R283), knots and sub-intervals (R284), the brackets (R285), the supply
temperature and what a plan asks at an instant (R286, R288).
-/

namespace Sys2Proof.Machine

/-- The quality of a forecast point or predictor source is usable (R204, without LATENT or STALE). -/
def plainUsable (r : Rec) : Bool := usable r.q false false

/-- A binary32 forecast value is usable: of such a quality and no NaN (R204, R283). -/
def forecastUsable (r : Rec) : Bool := plainUsable r && !f32IsNan r.value

/-- The forecast block on the coordinator as it stands (R283): 384 values and the anchor. -/
def readForecast (p : Pkg) : List Rec :=
  let r := planRec p
  (List.range 385).map (fun i => readPoint p (prCoord r) (key 0xC (prHst r + i)))

/-- The unclamped slot number of a civil time (R283). -/
def rawSlot (fc : List Rec) (civil : Nat) : Int := ((civil : Int) - ((fc.getD 384 {}).value.toNat : Int)) / 1800

/-- The slot of a civil time, clamped to 0 to 95, and whether the clamp acted (R283). -/
def slotAt (fc : List Rec) (civil : Nat) : Nat := (clampInt 0 95 (rawSlot fc civil)).toNat
def slotClamped (fc : List Rec) (civil : Nat) : Bool := rawSlot fc civil < 0 || 95 < rawSlot fc civil

/-- The value of series `k` (0 tariff, 1 outdoor, 2 solar, 3 capacity) at a civil time: an unusable slot takes the nearest
usable one before it (R283). -/
def seriesAt (fc : List Rec) (k civil : Nat) : Option Word :=
  (List.range (slotAt fc civil + 1)).reverse.findSome? (fun i =>
    let r := fc.getD (96 * k + i) {}
    if forecastUsable r then some r.value else none)

/-- The start second of knot `j` and of sub-interval `i` of a span (R284). -/
def knotAt (s len j : Nat) : Nat := s + j * len / 8
def subAt (s len i : Nat) : Nat := s + i * len / 64

/-- The midpoint of sub-interval `i` (R284). -/
def midAt (s len i : Nat) : Nat := (subAt s len i + subAt s len (i + 1)) / 2

/-- An offset of `n` tenths of a kelvin. -/
def tenths (n : Int) : Word := f32Div (f32FromInt n 0) 0x41200000

/-- The offset of eight knots at second `t` of a span (R284): linear between knots, held after knot 7. -/
def offsetAt (ks : List Int) (s len t : Nat) : Word :=
  let j := (List.range 8).foldl (fun a i => if knotAt s len i ≤ t then i else a) 0
  let o (i : Nat) : Word := tenths (ks.getD i 0)
  if j == 7 then o 7
  else
    let d := f32Mul (f32Sub (o (j + 1)) (o j)) (f32Nat (t - knotAt s len j))
    f32Add (o j) (f32Div d (f32Nat (knotAt s len (j + 1) - knotAt s len j)))

/-- The sub-interval of second `t` (R284). -/
def subOf (s len t : Nat) : Nat := (List.range 64).foldl (fun a i => if subAt s len i ≤ t then i else a) 0

/-- The plan governs second `t`: its span holds it (R291). -/
def Plan.covers (pl : Plan) (t : Nat) : Bool := pl.start ≤ t && t < pl.start + pl.len

/-- The plan that governs second `t`; none is the neutral plan. -/
def governing (pl : Option Plan) (t : Nat) : Option Plan :=
  match pl with
  | some x => if x.covers t then some x else none
  | none => none

/-- The supply offset, the allowance, and the offset of a zone that a plan, or the neutral plan, gives at second `t`. -/
def supplyOffset (pl : Option Plan) (t : Nat) : Word :=
  match governing pl t with
  | some x => offsetAt x.supply x.start x.len t
  | none => 0
def allowance (pl : Option Plan) (t : Nat) : Bool :=
  match governing pl t with
  | some x => x.mask.getLsbD (subOf x.start x.len t)
  | none => true
def zoneOffset (pl : Option Plan) (z t : Nat) : Word :=
  match governing pl t with
  | some x => offsetAt (x.zones.getD z []) x.start x.len t
  | none => 0

/-- An offset in kelvin in tenths, rounded half away from zero, and its truncation (R285). -/
def tenthsRound (w : Word) : Int :=
  match f32Of w with
  | .fin neg m e =>
    let v : Nat := if e ≥ 0 then 10 * m * 2 ^ e.toNat else (10 * m + 2 ^ ((-e).toNat - 1)) / 2 ^ (-e).toNat
    if neg then -(v : Int) else v
  | _ => 0
def tenthsTrunc (w : Word) : Int :=
  match f32Of w with
  | .fin neg m e =>
    let v : Nat := if e ≥ 0 then 10 * m * 2 ^ e.toNat else 10 * m / 2 ^ (-e).toNat
    if neg then -(v : Int) else v
  | _ => 0

/-- The temperature that the weather curve on the coordinator gives (R282, R286). -/
def weather (p : Pkg) (outdoor : Word) : Word :=
  let c := (p.tile (planCoord p)).table 1 (prWeather (planRec p))
  match f32ToQ outdoor with
  | some x => if leAt c 0 1 == 2 then f32FromInt (curveEval c x).1 16 else Config.noWeather x
  | none => Config.noWeather 2147483648

/-- The coefficient of performance (R287): below 1.0 it counts as 1.0. -/
def copAt (p : Pkg) (outdoor supply : Word) : Word :=
  let g := (p.tile (planCoord p)).table 1 (prCop (planRec p))
  let cop := match f32ToQ outdoor, f32ToQ supply with
    | some x, some y => if leAt g 0 1 == 3 then f32FromInt (gridEval g x y).1 16 else Config.noCop x y
    | _, _ => Config.noCop 2147483648 2147483648
  f32Max cop 0x3F800000

/-- The zones of the package in zone order, with the tile that hosts each (R278). -/
def hostedZones (p : Pkg) (t : Nat) : List (Nat × Zone) := (p.tile t).pred.zones.filter (fun q => bit q.2.rc 16)

/-- Fields of a zone record (R278). -/
def zAir (r : BitVec 256) : Nat := bits r 15 0
def zCool (r : BitVec 256) : Bool := bit r 17
def zEmit (r : BitVec 256) : Nat := bits r 31 24
def zSp (r : BitVec 256) : Handle := r.extractLsb' 32 32
def zLo (r : BitVec 256) : Word := r.extractLsb' 64 32
def zHi (r : BitVec 256) : Word := r.extractLsb' 96 32
def zFrost (r : BitVec 256) : Word := r.extractLsb' 128 32
def zOffMax (r : BitVec 256) : Word := r.extractLsb' 160 32
def zKe (r : BitVec 256) : Word := r.extractLsb' 192 32
def zUae (r : BitVec 256) : Word := r.extractLsb' 224 32

/-- The classes of a tariff value (R285): 1 cheap, −1 dear, 0 neither. -/
def tariffClass (mean v : Word) : Int :=
  if f32Lt v (f32Mul 0x3F4CCCCD mean) then 1 else if f32Lt (f32Mul 0x3F99999A mean) v then -1 else 0

/-- The mean of the tariff over the 64 midpoints (R285). -/
def tariffMean (at_ : Nat → Word) (s len : Nat) : Word :=
  f32Div ((List.range 64).foldl (fun a i => f32Add a (at_ (midAt s len i))) 0) 0x42800000

/-- A mask from a bit for each sub-interval. -/
def maskOf (f : Nat → Bool) : BitVec 64 :=
  (List.range 64).foldl (fun a i => if f i then a ||| (1#64 <<< i) else a) 0

/-- Bracket `b` of the boundary at second `n` (R285): `tariff` at a second, the fixed plan in force, and the zones of the
package. -/
def bracketOf (r : BitVec 256) (fixed : Option Plan) (zones : List (Nat × Zone)) (tariff : Nat → Word) (n b : Nat) : Plan :=
  let s := n + 60 * prCycle r
  let len := 60 * (prHorizon r - prCycle r)
  let ks (f : Nat → Int) : List Int := (List.range 8).map (fun j => f (knotAt s len j))
  let zs (f : Nat × Zone → List Int) : Tbl (List Int) := zones.foldl (fun a q => a.set q.1 (f q)) []
  if b == 0 && fixed.isSome then
    { id := 0, bracket := 0, start := s, len := len
      supply := ks (fun t => tenthsRound (supplyOffset fixed t))
      mask := maskOf (fun i => allowance fixed (midAt s len i))
      zones := zs (fun q => ks (fun t => tenthsRound (zoneOffset fixed q.1 t))) }
  else if b ≤ 1 then
    { id := 0, bracket := b, start := s, len := len, supply := ks (fun _ => 0), mask := BitVec.allOnes 64
      zones := zs (fun _ => ks (fun _ => 0)) }
  else
    let mean := tariffMean tariff s len
    let cls (t : Nat) : Int := tariffClass mean (tariff t)
    let level : Int := ((b - 2) % 7 + 1 : Nat)
    { id := 0, bracket := b, start := s, len := len
      supply := ks (fun t => if cls t == 1 then 5 * level else 0)
      mask := maskOf (fun i => !((b - 2) / 7 == 1 && cls (midAt s len i) == -1))
      zones := zs (fun q =>
        let m := tenthsTrunc (zOffMax q.2.rc)
        ks (fun t =>
          let o := clampInt (-m) m (cls t * level * (prStepK r : Nat))
          if zCool q.2.rc then -o else o)) }

/-- The Q16.16 minutes from second `t` until the allowance of the plan next changes, saturating at 32,767 (R290). -/
def minutesLeft (pl : Plan) (t : Nat) : Word :=
  let here := allowance (some pl) t
  let ends := (List.range 65).map (fun i => if i == 64 then (pl.start + pl.len, true) else (subAt pl.start pl.len i, pl.mask.getLsbD i))
  match ends.find? (fun e => t < e.1 && e.2 != here) with
  | some e => if (e.1 - t) / 60 ≥ 32767 then w32 (32767 * 65536) else w32 ((e.1 - t) * 65536 / 60)
  | none => w32 (32767 * 65536)

/-- The three values of advice (R290) for second `t` of a plan: supply temperature, allowance, minutes until it changes. -/
def adviceValues (p : Pkg) (outdoor : Word) (pl : Plan) (t : Nat) : List Word :=
  let sup := f32Add (weather p outdoor) (supplyOffset (some pl) t)
  [(f32ToQ sup).elim (Config.freeWord p.freeCtr) wordOf, if allowance (some pl) t then 0x00010000 else 0, minutesLeft pl t]

end Sys2Proof.Machine
end

