-- ==== Sys2Proof/Machine/PredictorOps.lean ====
section
/-!
DEFINITION. The predictor's arithmetic and records (R268 to R281, R295, R296): node steps, identification, the emitter
model, capacity allocation, and the checking and writing of model records.
-/

namespace Sys2Proof.Machine

/-- Fields of a node record (R269). -/
def nC (r : BitVec 384) : Word := r.extractLsb' 0 32
def nInit (r : BitVec 384) : Word := r.extractLsb' 32 32
def nMeas (r : BitVec 384) : Handle := r.extractLsb' 64 32
def nIdent (r : BitVec 384) : Bool := bit r 96
def nSrc (r : BitVec 384) (m : Nat) : Handle := r.extractLsb' (128 + 32 * m) 32
def nGain (r : BitVec 384) (m : Nat) : Word := r.extractLsb' (256 + 32 * m) 32

/-- Fields of a coupling record (R269). -/
def cKind (r : BitVec 96) : Nat := bits r 7 0
def cPeer (r : BitVec 96) : Word := r.extractLsb' 32 32
def cG (r : BitVec 96) : Word := r.extractLsb' 64 32

/-- The fitted parameters are in use (R276). -/
def Node.fitted (n : Node) : Bool := f32Le 0x3F000000 n.ident.conf

/-- The parameters in use (R276): capacity, a conductance, a gain. -/
def Node.c (n : Node) : Word := if n.fitted then f32Div (nC n.rc) n.ident.theta2 else nC n.rc
def Node.g (n : Node) (g0 : Word) : Word := if n.fitted then f32Div (f32Mul g0 n.ident.theta1) n.ident.theta2 else g0
def Node.gain (n : Node) (m : Nat) : Word :=
  if n.fitted && m == 1 then f32Div (f32Mul (nGain n.rc 1) n.ident.theta3) n.ident.theta2 else nGain n.rc m

/-- The couplings of a node in slot order: slot, kind, peer word, loaded conductance. -/
def Node.links (n : Node) : List (Nat × BitVec 96) := n.coup.filter (fun q => cKind q.2 != 0)

/-- The sum of four products, in order (R271). -/
def heatSum (gain : Nat → Word) (input : Nat → Word) : Word :=
  (List.range 4).foldl (fun q m => f32Add q (f32Mul (gain m) (input m))) 0

/-- node_step of R271: `gs` the conductances with their peer temperatures in slot order, `q` the input heat flow. -/
def nodeStep (dt temp c : Word) (gs : List (Word × Word)) (q : Word) : Word :=
  let g := gs.foldl (fun a x => f32Add a x.1) 0
  let gt := gs.foldl (fun a x => f32Add a (f32Mul x.1 x.2)) 0
  if f32IsZero g then f32Add temp (f32Div (f32Mul q dt) c)
  else
    let teq := f32Div (f32Add gt q) g
    let a := f32Exp (f32Neg (f32Div (f32Mul g dt) c))
    f32Add teq (f32Mul (f32Sub temp teq) a)

/-- reset_ident of R275. -/
def IdentSt.clear (i : IdentSt) : IdentSt :=
  { i with theta1 := 0x3F800000, theta2 := 0x3F800000, theta3 := 0x3F800000
           p := [0x3F800000, 0, 0, 0, 0x3F800000, 0, 0, 0, 0x3F800000], conf := 0 }

/-- The regressors of R274 from the loaded parameters: conductances with temperature differences, and gain × input, each product
from left to right. -/
def regressors (dt c0 : Word) (gs : List (Word × Word)) (gain input : Nat → Word) : List Word :=
  let k := f32Div dt c0
  let s1 := gs.foldl (fun a x => f32Add a (f32Mul x.1 x.2)) 0
  let pr (m : Nat) : Word := f32Mul (gain m) (input m)
  [f32Mul k s1, f32Mul k (f32Add (f32Add (pr 0) (pr 2)) (pr 3)), f32Mul (f32Mul k (gain 1)) (input 1)]

/-- ident_step of R275, for a usable pair that is not frozen. -/
def identStep (y : Word) (phi : List Word) (i : IdentSt) : IdentSt :=
  let f (j : Nat) : Word := phi.getD j 0
  let dot (a : Nat → Word) : Word := f32Add (f32Add (f32Mul (a 0) (f 0)) (f32Mul (a 1) (f 1))) (f32Mul (a 2) (f 2))
  if !f32Le 0x2B8CBCCC (dot f) then i
  else
    let pm (r c : Nat) : Word := i.p.getD (3 * r + c) 0
    let pp (r : Nat) : Word := dot (pm r)
    let th (j : Nat) : Word := match j with | 0 => i.theta1 | 1 => i.theta2 | _ => i.theta3
    let den := (List.range 3).foldl (fun a j => f32Add a (f32Mul (f j) (pp j))) i.lambda
    let e := (List.range 3).foldl (fun a j => f32Sub a (f32Mul (th j) (f j))) y
    let kg (j : Nat) : Word := f32Div (pp j) den
    let nth (j : Nat) : Word :=
      f32Clamp (f32Add (th j) (f32Clamp (f32Mul (kg j) e) 0xBC23D70A 0x3C23D70A)) 0x3F000000 0x40000000
    let q (r c : Nat) : Word := f32Div (f32Sub (pm r c) (f32Mul (kg r) (pp c))) i.lambda
    let sy (r c : Nat) : Word := if r == c then f32Min (q r r) 0x3F800000
      else if r < c then f32Mul (f32Add (q r c) (q c r)) 0x3F000000 else f32Mul (f32Add (q c r) (q r c)) 0x3F000000
    let i1 := { i with theta1 := nth 0, theta2 := nth 1, theta3 := nth 2
                       p := [sy 0 0, sy 0 1, sy 0 2, sy 1 0, sy 1 1, sy 1 2, sy 2 0, sy 2 1, sy 2 2] }
    let i2 := if f32Lt 0 (sy 0 0) && f32Lt 0 (sy 1 1) && f32Lt 0 (sy 2 2) then i1 else i1.clear
    let d (j : Nat) : Word := i2.p.getD (4 * j) 0
    { i2 with residual := e
              conf := f32Clamp (f32Sub 0x3F800000 (f32Div (f32Add (f32Add (d 0) (d 1)) (d 2)) 0x40400000)) 0 0x3F800000 }

/-- The emitter model (R279, R280): demand D and frost part F. -/
def emitter (z : BitVec 256) (allow : Bool) (temp sp sup : Word) : Word × Word :=
  let pos (x : Word) : Word := f32Max 0 x
  if !allow then (0, 0)
  else if zCool z then
    (f32Min (pos (f32Mul (zKe z) (f32Sub temp sp))) (pos (f32Mul (zUae z) (f32Sub temp sup))), 0)
  else
    let d := f32Min (pos (f32Mul (zKe z) (f32Sub sp temp))) (pos (f32Mul (zUae z) (f32Sub sup temp)))
    (d, f32Min (pos (f32Mul (zKe z) (f32Sub (zFrost z) temp))) d)

/-- What a class gets of the capacity (R296). -/
inductive Portion where
  | full
  | share (s : Word)
  | none
  deriving DecidableEq, Repr

/-- The four classes in order, from the capacity that the frost parts leave (R296). -/
def portions : List (Word × Word) → Word → List Portion
  | [], _ => []
  | (d, wd) :: rest, r =>
    if f32Le d r then .full :: portions rest (f32Sub r d)
    else if f32Lt 0 r then .share (f32Div r wd) :: portions rest 0
    else .none :: portions rest r

/-- The frost fraction and the portion of each class (R296). -/
def allocate (cap : Word) (s : Sums) : Word × List Portion :=
  let r := f32Sub cap s.f
  if f32Lt r 0 then (f32Div cap s.f, portions (s.d.zip s.wd) 0) else (0x3F800000, portions (s.d.zip s.wd) r)

/-- The comfort fraction of a zone of weight `w` (R296). -/
def Portion.fraction (p : Portion) (w : Nat) : Word :=
  match p with
  | .full => 0x3F800000
  | .share s => f32Min 0x3F800000 (f32Mul s (f32Nat w))
  | .none => 0

/-- Two tiles' sums added (R296: in tile order). -/
def Sums.add (a b : Sums) : Sums :=
  { f := f32Add a.f b.f, d := a.d.zipWith f32Add b.d, wd := a.wd.zipWith f32Add b.wd }

/-- A zone's parts joined to the sums of its tile. -/
def Sums.zone (s : Sums) (prio w : Nat) (f c : Word) : Sums :=
  { f := f32Add s.f f
    d := s.d.zipIdx.map (fun q => if q.2 == prio then f32Add q.1 c else q.1)
    wd := s.wd.zipIdx.map (fun q => if q.2 == prio then f32Add q.1 (f32Mul (f32Nat w) c) else q.1) }

/-- What the allocation gives a zone: fraction and grant (R296), and the outcome 0 served, 1 curtailed, 2 refused. -/
def zoneGrant (al : Word × List Portion) (z : Zone) (d f : Word) : Word × Word × Nat :=
  let c := f32Sub d f
  let fz := (al.2.getD z.prio.toNat .none).fraction z.weight.toNat
  let grant := f32Add (f32Mul f al.1) (f32Mul c fz)
  let out := if f32IsZero fz && f32Lt 0 c then 2
    else if (f32Lt 0 fz && f32Lt fz 0x3F800000 && !f32IsZero c) || f32Lt al.1 0x3F800000 then 1 else 0
  (fz, grant, out)

/-- Sizes and counts of the model parts (R269). -/
def partRec (part : Nat) : Nat := match part with | 0 => 48 | 1 => 12 | _ => 32
def partMax (part : Nat) : Nat := match part with | 0 => 128 | 1 => 1024 | _ => 256

/-- A handle is none, or names a point of one of these classes (R269). -/
def modelHandle (p : Pkg) (classes : List Nat) (h : Handle) : Bool :=
  (handleError p h).isNone && classes.contains (handleClass h)
def liveClasses : List Nat := [0x2, 0x7, 0xB, 0xC]

/-- A node record is in range (R269). -/
def nodeRecOk (p : Pkg) (r : BitVec 384) : Bool :=
  let h (x : Handle) : Bool := x == noHandle || modelHandle p liveClasses x
  f32NonNeg (nC r) && h (nMeas r) && (!nIdent r || nMeas r != noHandle) && bits r 127 97 == 0
    && (List.range 4).all (fun m => h (nSrc r m) && f32Finite (nGain r m))

/-- A coupling record is in range (R269). -/
def coupRecOk (p : Pkg) (r : BitVec 96) : Bool :=
  let peer := cPeer r
  bits r 31 8 == 0 && f32NonNeg (cG r) &&
    (match cKind r with
     | 0 => peer == 0 && cG r == 0
     | 1 => modelHandle p [0x8] peer && handleIdx peer % 8 == 0 && (localOf p (handleTile peer)).isSome
     | 2 | 3 => modelHandle p liveClasses peer
     | 4 => true
     | _ => false)

/-- A zone record is in range, against the nodes of its tile (R269, R278): one that removes its zone too. -/
def zoneRecOk (p : Pkg) (tl : Tile) (r : BitVec 256) : Bool :=
  let usedNode (n : Nat) : Bool := n < 128 && nodeInUse (tl.node n)
  bits r 23 18 == 0 && usedNode (zAir r) && usedNode (zEmit r) && modelHandle p [0x7, 0xB, 0xC] (zSp r)
    && f32NonNeg (zLo r) && f32NonNeg (zHi r) && f32Finite (zFrost r)
    && f32NonNeg (zOffMax r) && f32Le (zOffMax r) 0x41400000 && f32NonNeg (zKe r) && f32NonNeg (zUae r)

/-- A node record takes effect (R268, R269, R277): identification starts anew, and what was commanded after the record stays for
the same live step. -/
def loadNode (r : BitVec 384) (n : Node) : Node :=
  if f32IsZero (nC r) then { n with rc := setBits r 31 0 0, temp := 0, prev := 0, prev2 := 0, ident := { pend := n.ident.pend }, hostTemp := none, heat := 0 }
  else
    let temp := if f32IsNan (nInit r) then n.temp else nInit r
    let fresh := !nodeInUse n
    { n with rc := r, temp := temp, ident := { pend := n.ident.pend }
             prev := if fresh then temp else n.prev, prev2 := if fresh then temp else n.prev2 }

/-- One record of a model part takes effect on a tile. -/
def loadRecord (part i : Nat) (b : List Byte) (tl : Tile) : Tile :=
  let pr := tl.pred
  match part with
  | 0 => { tl with pred := { pr with nodes := pr.nodes.modify i Node.reset (loadNode (recOf 384 b)) } }
  | 1 => { tl with pred := { pr with nodes := pr.nodes.modify (i / 8) Node.reset (fun n =>
      { n with coup := n.coup.set (i % 8) (recOf 96 b), lastPt := n.lastPt.erase (i % 8) }) } }
  | _ => { tl with pred := { pr with zones := pr.zones.modify i Zone.reset (fun z => { z with rc := recOf 256 b }) } }

/-- The records of a payload with their indices. -/
def numbered (part first : Nat) (recs : List Byte) : List (Nat × List Byte) :=
  (List.range (recs.length / partRec part)).map (fun i => (first + i, slice recs (partRec part * i) (partRec part)))

/-- The records of a MODEL_LOAD on the tile's model. -/
def loadAll (part first : Nat) (recs : List Byte) (tl : Tile) : Tile :=
  (numbered part first recs).foldl (fun a q => loadRecord part q.1 q.2 a) tl

/-- The tile as it will stand when its pending loads have taken effect. -/
def afterLoads (tl : Tile) : Tile := tl.pred.pend.foldl (fun a q => loadAll q.part q.first q.recs a) tl

/-- A zone record of the tile names the node. -/
def zoneNames (tl : Tile) (n : Nat) : Bool := tl.pred.zones.any (fun q => bit q.2.rc 16 && (zAir q.2.rc == n || zEmit q.2.rc == n))

/-- The records of a MODEL_LOAD to tile `t` are in range (R269, R278). -/
def recordsOk (p : Pkg) (t part first : Nat) (recs : List Byte) : Bool :=
  let tl := afterLoads (p.tile t)
  (numbered part first recs).all (fun q =>
    match part with
    | 0 =>
      let r := recOf 384 q.2
      nodeRecOk p r && !(f32IsZero (nC r) && zoneNames tl q.1)
    | 1 => coupRecOk p (recOf 96 q.2)
    | _ =>
      let r := recOf 256 q.2
      zoneRecOk p tl r && !(bit r 16 && (List.range p.n).any (fun u => u != t && zoneHosted (afterLoads (p.tile u)) q.1)))

/-- What waits for the live step of a node and was taken before the MODEL_LOAD `num` has no effect where that takes its own (R269,
R277): the identification commands, and a live temperature that its record sets. -/
def outdated (num : Nat) (r : BitVec 384) (n : Node) : Node :=
  { n with ident := { n.ident with pend := n.ident.pend.filter (fun q => num < q.1) }
           hostTemp := if f32IsNan (nInit r) then n.hostTemp else n.hostTemp.filter (fun q => num < q.1) }

/-- The same for every node that a MODEL_LOAD names. -/
def dropOutdated (q : PendModel) (tl : Tile) : Tile :=
  if q.part == 0 then
    { tl with pred := { tl.pred with nodes := (numbered 0 q.first q.recs).foldl (fun a x =>
        a.modify x.1 Node.reset (outdated q.num (recOf 384 x.2))) tl.pred.nodes } }
  else tl

/-- MODEL_LOAD (R269). -/
def modelLoad (c : Ctx) (t part first count : Nat) (recs : List Byte) (p : Pkg) : Pkg :=
  let stop (st : Byte) : Pkg := finish c 0x50 st t p
  if part > 2 then stop stBadParam
  else if recs.length != partRec part * count then stop stBadLength
  else if first + count > partMax part then stop stBadHandle
  else if !recordsOk p t part first recs then stop stBadParam
  else accept c 0x50 t (onTile t (fun tl => { tl with pred := { tl.pred with
    loads := tl.pred.loads + 1
    pend := tl.pred.pend ++ [{ ctx := c, part := part, first := first, recs := recs, num := tl.pred.loads }] } }) p)

/-- The bytes of one record as MODEL_READ returns it: the live temperature stands in T_INIT (R269). -/
def recordBytes (tl : Tile) (part i : Nat) : List Byte :=
  match part with
  | 0 => recBytes (setBits (tl.node i).rc 63 32 (tl.node i).temp.toNat)
  | 1 => recBytes ((tl.node (i / 8)).coup.getD (i % 8) 0)
  | _ => recBytes (tl.zone i).rc

/-- MODEL_READ (R269). -/
def modelRead (c : Ctx) (t part first count : Nat) (p : Pkg) : Pkg :=
  if part > 2 || partRec part * count > 1016 then finish c 0x51 stBadParam t p
  else if first + count > partMax part then finish c 0x51 stBadHandle t p
  else reply c 0x51 t ((List.range count).flatMap (fun i => recordBytes (p.tile t) part (first + i))) p

/-- Items 0 to 7 of a node or zone that has gone read 0, OFFLINE (R29, R268). -/
def clearItems (t cls i : Nat) (p : Pkg) : Pkg :=
  forAll (List.range 8) (fun j => putNow t (key cls (8 * i + j)) 0 .offline) p

/-- One pending MODEL_LOAD takes effect: OK, and a latent plan is retracted (R269, R292, R472). -/
def applyLoad (t : Nat) (q : PendModel) (p : Pkg) : Pkg :=
  if deniedNow p t 0x50 q.ctx then denyCommit t 0x50 q.ctx p
  else
  let p1 := onTile t (fun tl => loadAll q.part q.first q.recs (dropOutdated q tl)) p
  let named := (numbered q.part q.first q.recs).map (·.1)
  let gone := named.filter (fun i => q.part == 0 && !nodeInUse ((p1.tile t).node i))
  let goneZones := named.filter (fun i => q.part == 2 && !zoneHosted (p1.tile t) i)
  finish q.ctx 0x50 stOk t (retractPlan (forAll goneZones (clearItems t 9) (forAll gone (clearItems t 8) p1)))

/-- One IDENT_CONTROL acts (R277): 0 freeze, 1 run with factor `l`, 2 reset. -/
def identOne (i : IdentSt) (a : Byte) (l : Word) : IdentSt :=
  match a.toNat with
  | 0 => { i with frozen := true }
  | 1 => { i with frozen := false, lambda := l }
  | _ => i.clear

/-- The IDENT_CONTROLs that wait act in order (R277). The parameters in use follow at the end of the live step (R276). -/
def identAct (i : IdentSt) : IdentSt := i.pend.foldl (fun a q => identOne a q.2.1 q.2.2) { i with pend := [] }

/-- The pending loads of a tile take effect at its live step (R269), and host writes of live temperatures (R270). -/
def applyPending (t : Nat) (p : Pkg) : Pkg :=
  let l := (p.tile t).pred.pend
  let p1 := forAll l (applyLoad t) (onTile t (fun tl => { tl with pred := { tl.pred with pend := [] } }) p)
  onTile t (fun tl => { tl with pred := { tl.pred with nodes := tl.pred.nodes.mapVals (fun _ n =>
    { n with temp := if nodeInUse n && nMeas n.rc == noHandle then (n.hostTemp.map (·.2)).getD n.temp else n.temp, hostTemp := none }) } }) p1

end Sys2Proof.Machine
end

