-- ==== Sys2Proof/Machine/LiveOps.lean ====
section
/-!
DEFINITION. The live step of a tile (R272, R273), its zones (R279 to R281, R288, R296, R297), and FIX advice (R290).
-/

namespace Sys2Proof.Machine

/-- The model step in seconds (R273). -/
def planStep (p : Pkg) : Nat := prStep (planRec p)

/-- The points that the model of a tile reads (R273): MEAS, the sources, kinds 2 and 3, and the setpoints of its zones. -/
def modelPoints (tl : Tile) : List Handle :=
  let ns := tl.pred.nodes.filter (fun q => nodeInUse q.2)
  (ns.flatMap (fun q => [nMeas q.2.rc] ++ (List.range 4).map (nSrc q.2.rc)
      ++ ((q.2.links.filter (fun l => cKind l.2 == 2 || cKind l.2 == 3)).map (fun l => cPeer l.2)))
    ++ (tl.pred.zones.filter (fun q => bit q.2.rc 16)).map (fun q => zSp q.2.rc)).filter (· != noHandle)

/-- The copy of one remote point is refreshed (R273, R533): on a tile of the package directly, on the other package by a
read, of which one is out at a time. -/
def refreshCopy (t : Nat) (h : Handle) (p : Pkg) : Pkg :=
  match localOf p (handleTile h) with
  | some u =>
    let r := if online p u then readPoint p u (handleKey h) else staleForm (copyOf p t h)
    onTile t (fun tl => { tl with fabric := { tl.fabric with copies := tl.fabric.copies.set (bits h 23 0) r } }) p
  | none =>
    if (p.tile t).fabric.out.any (fun o => o.req.purpose == .predictor t && o.req.op == .read h) then p
    else issue t (handleTile h) 3 (.predictor t) (.read h) (p.now + 1000 * msTicks) p

/-- The value of a point as the model takes it (R272): none while it is unusable. -/
def modelValue (p : Pkg) (t : Nat) (h : Handle) : Option Word :=
  let r := seen p t h
  if h != noHandle && plainUsable r then some (f32FromInt r.value.toInt 16) else none

/-- The temperature of a peer in the live model (R272). -/
def peerTemp (p : Pkg) (t : Nat) (n : Node) (slot : Nat) (l : BitVec 96) : Word :=
  match cKind l with
  | 1 =>
    match localOf p (handleTile (cPeer l)) with
    | some u =>
      let nd := (p.tile u).node (handleIdx (cPeer l) / 8)
      if !nodeInUse nd then n.temp
      else if u == t then nd.temp
      else if (p.tile u).pred.liveAt == some p.now then nd.prev2 else nd.prev
    | none => n.temp
  | 4 => cPeer l
  | _ => (modelValue p t (cPeer l)).getD (n.lastPt.getD slot n.temp)

/-- The live step of one node (R271 to R277), with whether the step failed: its parameters are those in use before it, and the
identification commands that wait act before its identification step. -/
def liveNode (p : Pkg) (t : Nat) (dt : Word) (n : Node) : Node × Bool :=
  let peers : List (BitVec 96 × Word) := n.links.map (fun q => (q.2, peerTemp p t n q.1 q.2))
  let input (m : Nat) : Word := (modelValue p t (nSrc n.rc m)).getD 0
  let q := heatSum n.gain input
  let t1 := nodeStep dt n.temp n.c (peers.map (fun x : BitVec 96 × Word => (n.g (cG x.1), x.2))) q
  let failed := !f32Finite t1
  let meas := modelValue p t (nMeas n.rc)
  let id0 := identAct n.ident
  let ident := match id0.lastMeas, meas with
    | some m0, some m1 =>
      if nIdent n.rc && !id0.frozen then
        identStep (f32Sub m1 m0)
          (regressors dt (nC n.rc) (peers.map (fun x : BitVec 96 × Word => (cG x.1, f32Sub x.2 n.temp))) (nGain n.rc) input) id0
      else id0
    | _, _ => id0
  let lastPt := n.links.foldl (fun a l =>
    if cKind l.2 == 2 || cKind l.2 == 3 then
      match modelValue p t (cPeer l.2) with
      | some v => a.set l.1 v
      | none => a
    else a) n.lastPt
  ({ n with temp := meas.getD (if failed then n.temp else t1), prev := n.temp, prev2 := n.prev
            ident := { ident with lastMeas := meas }, lastPt := lastPt, heat := q }, failed)

/-- The next planning boundary after second `t`. -/
def nextBoundary (p : Pkg) (t : Nat) : Nat := (t / (60 * prCycle (planRec p)) + 1) * (60 * prCycle (planRec p))

/-- What the plan in force predicts for a node at the next planning boundary (R270, item 7); open where its simulation gives
none. -/
def predicted (p : Pkg) (t n : Nat) : Option Word :=
  let sec := p.now / secTicks
  match governing p.sh.planner.fixed sec with
  | some pl => (pl.temps.find? (nextBoundary p sec)).elim none (fun m => m.find? (t * 1024 + n))
  | none => none

/-- A value that the spec leaves open where it is none. -/
def orFree (v : Option Word) (p : Pkg) : Word × Pkg :=
  match v with
  | some w => (w, p)
  | none => takeFree p

/-- The eight NOD items of a node (R270, R273). -/
def writeNode (t i : Nat) (failed : Bool) (p : Pkg) : Pkg :=
  let n := (p.tile t).node i
  let (v7, p1) := orFree (predicted p t i) p
  let gs := n.links.foldl (fun a l => f32Add a (n.g (cG l.2))) 0
  let vs := [n.temp, n.c, gs, n.gain 1, n.ident.conf, if failed then f32Nan else n.ident.residual, n.heat, v7]
  forAll vs.zipIdx (fun x q => if x.2 == 0 && overridden (q.tile t) (key 8 (8 * i)) then countOverridden t q
    else putNow t (key 8 (8 * i + x.2)) x.1 .good q) p1

/-- Package-wide sums of the previous step (R296): those that the tiles online sent. -/
def packageSums (p : Pkg) : Sums :=
  ((List.range p.n).filter (online p)).foldl (fun a u =>
    let pr := (p.tile u).pred
    a.add (if pr.liveAt == some p.now then pr.sumsPrev else pr.sums)) {}

/-- One zone at a live step (R279 to R281, R288, R296): `outdoor` is the forecast temperature. -/
def liveZone (t : Nat) (outdoor : Word) (al : Word × List Portion) (z : Nat) (p : Pkg) : Pkg :=
  let sec := p.now / secTicks
  let fx := p.sh.planner.fixed
  let zo := (p.tile t).zone z
  let temp := ((p.tile t).node (zAir zo.rc)).temp
  let base := modelValue p t (zSp zo.rc)
  let off := zoneOffset fx z sec
  let sp := f32Add (base.getD (zFrost zo.rc)) off
  let (d, f) :=
    if base.isNone && zCool zo.rc then (0, 0)
    else emitter zo.rc (allowance fx sec) temp (if base.isNone then zFrost zo.rc else sp) (f32Add (weather p outdoor) (supplyOffset fx sec))
  let (fz, _, out) := zoneGrant al zo d f
  let item0 :=
    if base.isNone then zFrost zo.rc
    else match out with
      | 0 => sp
      | 1 => if zCool zo.rc then sp else f32Max (f32Add temp (f32Mul fz (f32Sub sp temp))) (zFrost zo.rc)
      | _ => if zCool zo.rc then base.getD 0 else zFrost zo.rc
  let (v4, p1) := orFree (predicted p t (zAir zo.rc)) p
  let (v5, p2) := orFree ((governing fx sec).elim none (fun pl => pl.comfort.find? z)) p1
  let id := (governing fx sec).elim 0 (fun pl => pl.id.toNat % 16777216)
  let vs := [item0, fz, f32Nat out, off, v4, v5, f32Nat id, d]
  let p3 := forAll vs.zipIdx (fun x => putNow t (key 9 (8 * z + x.2)) x.1 .good) p2
  onTile t (fun tl => { tl with pred := { tl.pred with
    zones := tl.pred.zones.set z { zo with outcome := out, frac := fz, spBad := base.isNone, demand := d }
    sums := tl.pred.sums.zone zo.prio.toNat zo.weight.toNat f (f32Sub d f) } }) p3

/-- The forecast block as a live step reads it (R283, R295): the points of the coordinator, or the last copy while it is not
online; none without a planning record. -/
def liveForecast (p : Pkg) : List Rec :=
  if p.sh.planner.record.isNone then [] else if online p (planCoord p) then readForecast p else p.sh.planner.forecast

/-- A series was read at a civil time: a clamp of its slot sets FORECAST_SHORT (R283). -/
def noteShort (fc : List Rec) (civil : Nat) (p : Pkg) : Pkg :=
  if !fc.isEmpty && slotClamped fc civil then onPlanner (fun x => { x with short := true }) p else p

/-- The zones of a tile at a live step, and event 66 (R296, R297). -/
def liveZones (t : Nat) (p : Pkg) : Pkg :=
  let fc := liveForecast p
  let civil := p.sh.rtc.secs.toNat
  let al := allocate ((seriesAt fc 3 civil).getD 0x7F800000) (packageSums p)
  let (outdoor, p1) := orFree (seriesAt fc 1 civil) p
  let p1 := if (hostedZones p t).isEmpty then p1 else noteShort fc civil p1
  let p2 := onTile t (fun tl => { tl with pred := { tl.pred with sumsPrev := tl.pred.sums, sums := {} } }) p1
  let p3 := forAll ((hostedZones p t).map (·.1)) (liveZone t outdoor al) p2
  let short := (hostedZones p3 t).any (fun q => q.2.outcome != 0)
  let p4 := onTile t (fun tl => { tl with pred := { tl.pred with anyShort := short } }) p3
  if short && !(p.tile t).pred.anyShort then raise t 66 p4 else p4

/-- FIX advice for the fixed plan in force (R290): expiry 3 × STEP after sending. -/
def sendFix (p : Pkg) : Pkg :=
  let sec := p.now / secTicks
  match governing p.sh.planner.fixed sec with
  | some pl =>
    let (outdoor, p0) := orFree (seriesAt (liveForecast p) 1 p.sh.rtc.secs.toNat) p
    let p1 := noteShort (liveForecast p) p.sh.rtc.secs.toNat p0
    sendAdvice 2 pl.id (p.now + 3 * planStep p * secTicks) (adviceValues p outdoor pl sec) { p1 with freeCtr := p1.freeCtr + 1 }
  | none => p

/-- The live step of tile `t` at the present instant (R273). -/
def liveStep (t : Nat) (p : Pkg) : Pkg :=
  let p1 := applyPending t p
  let p2 := forAll (modelPoints (p1.tile t)).eraseDups (fun h q => if handleTile h == ownNo q t then q else refreshCopy t h q) p1
  let used := (p2.tile t).pred.nodes.filter (fun q => nodeInUse q.2)
  let new := used.map (fun q => (q.1, liveNode p2 t (f32Nat (planStep p2)) q.2))
  let p3 := onTile t (fun tl => { tl with pred := { tl.pred with
    nodes := new.foldl (fun a q => a.set q.1 q.2.1) tl.pred.nodes } }) p2
  let p4 := forAll new (fun q => writeNode t q.1 q.2.2) p3
  let fell (q : Nat × (Node × Bool)) : Bool :=
    f32Le 0x3F000000 ((p.tile t).node q.1).ident.conf && f32Lt q.2.1.ident.conf 0x3F000000
  let p5 := forAll (new.filter fell) (fun _ => raise t 65) p4
  let p6 := onTile t (fun tl => { tl with pred := { tl.pred with liveAt := some p.now } }) (liveZones t p5)
  if t == planCoord p && p.sh.planner.record.isSome then sendFix p6 else p6

end Sys2Proof.Machine
end

