-- ==== Sys2Proof/Machine/PlannerOps.lean ====
section
/-!
DEFINITION. The planning cycle (R284 to R293): planning boundaries, the simulation and cost of a bracket, the winner, and
plan status (R294).
-/

namespace Sys2Proof.Machine

/-- A simulation under way: temperatures now and one step earlier by tile × 1,024 + node, sums and costs by tile, and what
R270, R281 and R294 keep of it. -/
structure Sim where
  temps : Tbl Word
  before : Tbl Word
  sums : Tbl Sums
  costs : Tbl Word := []
  kept : Tbl (Tbl Word) := []
  comfort : Tbl Word := []
  short : List Nat := []
  deriving DecidableEq, Repr

/-- The number of a node across tiles. -/
def nodeNo (t n : Nat) : Nat := t * 1024 + n

/-- What one step of a simulation holds fixed: the second, the forecast values, the allocation, and the plan that governs
(R286). -/
structure StepEnv where
  sec : Nat
  dt : Word
  outdoor : Word
  solar : Word
  tariff : Word
  alloc : Word × List Portion
  plan : Option Plan
  spanStart : Nat
  deriving DecidableEq, Repr

/-- The comfort cost of one step (R287). -/
def comfortCost (wc dt : Word) (z : BitVec 256) (sp temp : Word) : Word :=
  let lo := f32Sub (f32Sub sp (zLo z)) temp
  let hi := f32Sub temp (f32Add sp (zHi z))
  let d := f32Max (f32Max 0 lo) hi
  f32Div (f32Mul wc (f32Mul (f32Mul d d) dt)) 0x45610000

/-- One zone of tile `u` in a step: its costs, sums and flow (R286, R287). -/
def simZone (p : Pkg) (e : Eval) (v : StepEnv) (u : Nat) (z : Nat) (zo : Zone) (a : Sim × Tbl Word) : Sim × Tbl Word :=
  let (s, flows) := a
  let r := planRec p
  let temp := s.temps.getD (nodeNo u (zAir zo.rc)) 0
  let base := e.setpoints.find? z
  let sup := f32Add (weather p v.outdoor) (supplyOffset v.plan v.sec)
  let sp := match base with
    | some b => f32Add b (zoneOffset v.plan z v.sec)
    | none => zFrost zo.rc
  let (d, f) := if base.isNone && zCool zo.rc then (0, 0) else emitter zo.rc (allowance v.plan v.sec) temp sp sup
  let (_, grant, out) := zoneGrant v.alloc zo d f
  let energy := f32Mul v.tariff (f32Div (f32Mul grant v.dt) (f32Mul (copAt p v.outdoor sup) 0x4A5BBA00))
  let comf := match base with
    | some b => comfortCost (prWc r) v.dt zo.rc b temp
    | none => 0
  let inSpan := v.spanStart ≤ v.sec
  let em := nodeNo u (zEmit zo.rc)
  ({ s with
      costs := s.costs.set u (f32Add (f32Add (s.costs.getD u 0) energy) comf)
      sums := s.sums.set u ((s.sums.getD u {}).zone zo.prio.toNat zo.weight.toNat f (f32Sub d f))
      comfort := if inSpan then s.comfort.set z (f32Add (s.comfort.getD z 0) comf) else s.comfort
      short := if inSpan && out != 0 && !s.short.contains z then s.short ++ [z] else s.short },
   flows.set em (f32Add (flows.getD em 0) (if zCool zo.rc then f32Neg grant else grant)))

/-- A peer temperature in a simulation (R272): another tile's node one step earlier. -/
def simPeer (p : Pkg) (s : Sim) (outdoor : Word) (u : Nat) (own : Word) (n : Node) (slot : Nat) (l : BitVec 96) : Word :=
  match cKind l with
  | 1 =>
    match localOf p (handleTile (cPeer l)) with
    | some w =>
      let k := nodeNo w (handleIdx (cPeer l) / 8)
      if w == u then s.temps.getD k own else s.before.getD k own
    | none => own
  | 2 => outdoor
  | 3 => n.lastPt.getD slot own
  | _ => cPeer l

/-- One node of tile `u` in a step; none where the result is not finite (R271). Input 0 is the granted heat flow, input 1 the
solar forecast; a source for which the spec gives the planner no value is free. -/
def simNode (p : Pkg) (v : StepEnv) (s : Sim) (flows : Tbl Word) (u i : Nat) (n : Node) : Option Word :=
  let k := nodeNo u i
  let temp := s.temps.getD k 0
  let other (m : Nat) : Word := if nSrc n.rc m == noHandle then 0 else f32FromInt (Config.planSource u i m v.sec).toInt 16
  let input (m : Nat) : Word := match m with | 0 => (flows.find? k).getD (other 0) | 1 => v.solar | _ => other m
  let t1 := nodeStep v.dt temp n.c (n.links.map (fun l => (n.g (cG l.2), simPeer p s v.outdoor u temp n l.1 l.2)))
    (heatSum n.gain input)
  if f32Finite t1 then some t1 else none

/-- One step of a simulation (R286). The temperatures at whole minutes of its span are kept, where the planning boundaries fall
whatever CYCLE is then (R270, R281). -/
def simStep (p : Pkg) (e : Eval) (b : Plan) (sec : Nat) (s : Sim) : Sim :=
  let r := planRec p
  let fc := p.sh.planner.forecast
  let civil := e.civil + (sec - e.n)
  let val (k : Nat) (d : Word) : Word := (seriesAt fc k civil).getD d
  let total := s.sums.foldl (fun a q => a.add q.2) {}
  let v : StepEnv :=
    { sec := sec, dt := f32Nat (prStep r), outdoor := val 1 0, solar := val 2 0, tariff := val 0 0
      alloc := allocate (val 3 0x7F800000) total
      plan := if sec < b.start then p.sh.planner.fixed else some b, spanStart := b.start }
  let s0 := { s with sums := s.sums.mapVals (fun _ _ => ({} : Sums)) }
  let (s1, flows) := e.zones.foldl (fun a q => q.2.foldl (fun a z => simZone p e v q.1 z.1 z.2 a) a) (s0, ([] : Tbl Word))
  let new := e.nodes.flatMap (fun q => q.2.map (fun x => (q.1, x.1, simNode p v s flows q.1 x.1 x.2)))
  let temps := new.foldl (fun a x => match x.2.2 with | some w => a.set (nodeNo x.1 x.2.1) w | none => a) s.temps
  let costs := new.foldl (fun a x => if x.2.2.isNone then a.set x.1 0x7F800000 else a) s1.costs
  let next := sec + prStep r
  let keep := next % 60 == 0 && b.start < next
  { s1 with temps := temps, before := s.temps, costs := costs, kept := if keep then s1.kept.set next temps else s1.kept }

/-- Steps of a simulation from second `sec` on. -/
def simRun (p : Pkg) (e : Eval) (b : Plan) : Nat → Nat → Sim → Sim
  | 0, _, s => s
  | k + 1, sec, s => simRun p e b k (sec + prStep (planRec p)) (simStep p e b sec s)

/-- The cost of the compressor starts of a bracket (R287). -/
def switchCost (sw : Word) (before : Bool) (mask : BitVec 64) : Word :=
  ((List.range 64).foldl (fun (a : Word × Bool) i =>
    let on := mask.getLsbD i
    (if on && !a.2 then f32Add a.1 sw else a.1, on)) (0, before)).1

/-- The simulation of one bracket on every tile (R286, R287). -/
def simulate (p : Pkg) (e : Eval) (b : Plan) : BracketDone :=
  let r := planRec p
  let temps : Tbl Word := e.nodes.foldl (fun a q => q.2.foldl (fun a x => a.set (nodeNo q.1 x.1) x.2.temp) a) []
  let s := simRun p e b (60 * prHorizon r / prStep r) e.n { temps := temps, before := temps, sums := e.sums }
  let sum := s.costs.foldl (fun a q => f32Add a q.2) 0
  { total := f32Add sum (switchCost (prSw r) (allowance p.sh.planner.fixed b.start) b.mask)
    tileCosts := s.costs, temps := s.kept, comfort := s.comfort, short := s.short }

/-- The bracket that wins (R287): the lowest finite total, a tie to the lower number. -/
def winner (l : List BracketDone) : Option Nat :=
  (l.zipIdx.foldl (fun (a : Option (Nat × Word)) x =>
    if !f32Finite x.1.total then a
    else match a with
      | none => some (x.2, x.1.total)
      | some (_, w) => if f32Lt x.1.total w then some (x.2, x.1.total) else a) none).map (·.1)

/-- Tiles that hold nodes in use (R289). -/
def nodeTiles (p : Pkg) : List Nat := (List.range p.n).filter (fun t => (p.tile t).pred.nodes.any (fun q => nodeInUse q.2))

/-- Planning slack is recorded (R70, R289). -/
def planSlack (slack : Nat) (p : Pkg) : Pkg :=
  forAll (nodeTiles p) (fun t q => govSlack t slack (onGov t (fun g => { g with planSlack := w32 slack }) q)) p

/-- An evaluation under way is abandoned (R282, R289), and with it the planning work of the tiles that took part (R503). -/
def abandonEval (p : Pkg) : Pkg :=
  match p.sh.planner.eval with
  | none => p
  | some e =>
    forAll (planCoord p :: nodeTiles p).eraseDups (fun t q => onTile t (spoilWork (chainPhase q t) t (e.n * secTicks) q.now) q)
      (onPlanner (fun x => { x with eval := none, abandoned := true }) p)

/-- The latent plan is fixed at second `sec` (R291, R293). -/
def fixPlan (pl : Plan) (p : Pkg) : Pkg :=
  let co := planCoord p
  let p1 := forAll p.sh.planner.fixers (fun c => finish c 0x55 stOk co) p
  sendFix (raise co 63 (onPlanner (fun x => { x with
    fixed := some pl, latent := none, fixers := [], fixedIds := x.fixedIds.filter (· != pl.id) ++ [pl.id] }) p1))

/-- The base setpoints of the zones of a tile (R289). -/
def latchSetpoints (p : Pkg) (t : Nat) (a : Tbl Word) : Tbl Word :=
  (hostedZones p t).foldl (fun a q => match modelValue p t (zSp q.2.rc) with | some v => a.set q.1 v | none => a) a

/-- The nodes of a tile as a simulation starts from them (R286, R289): kind 3 points latched. -/
def latchNodes (p : Pkg) (t : Nat) : Tbl Node :=
  ((p.tile t).pred.nodes.filter (fun q => nodeInUse q.2)).map (fun q =>
    (q.1, { q.2 with lastPt := q.2.links.foldl (fun a l =>
      if cKind l.2 == 3 then (match modelValue p t (cPeer l.2) with | some v => a.set l.1 v | none => a) else a) q.2.lastPt }))

/-- The checks of the coordinator at a boundary (R283, R289): RTC_VALID, slot 0 of the four series and the anchor usable, and
every tile with nodes or zones online. -/
def mayPlan (p : Pkg) : Bool :=
  let fc := readForecast p
  let ok (i : Nat) : Bool := forecastUsable (fc.getD i {})
  p.sh.rtc.valid && ok 0 && ok 96 && ok 192 && ok 288 && plainUsable (fc.getD 384 {})
    && (List.range p.n).all (fun t => online p t || !holdsModel (p.tile t))

/-- An evaluation starts at the present boundary (R285, R289). FORECAST_SHORT follows the first and the last instant that it samples:
a step of its simulation, or the midpoint of the last sub-interval (R283). -/
def startEval (p : Pkg) : Pkg :=
  let r := planRec p
  let n := p.now / secTicks
  let fc := readForecast p
  let civil := p.sh.rtc.secs.toNat
  let tiles := (List.range p.n).filter (fun t => holdsModel (p.tile t))
  let p1 := forAll tiles (fun t q => forAll (modelPoints (q.tile t)).eraseDups (fun h q =>
    if handleTile h == ownNo q t then q else refreshCopy t h q) q) p
  let zones := tiles.flatMap (fun t => hostedZones p1 t)
  let tariff (sec : Nat) : Word := (seriesAt fc 0 (civil + (sec - n))).getD 0
  let eval : Eval :=
    { n := n, civil := civil
      brackets := (List.range (prBrackets r)).map (bracketOf r (governing p.sh.planner.fixed n) zones tariff n)
      nodes := tiles.map (fun t => (t, latchNodes p1 t))
      zones := tiles.map (fun t => (t, hostedZones p1 t))
      setpoints := tiles.foldl (fun a t => latchSetpoints p1 t a) []
      sums := tiles.map (fun t => (t, (p1.tile t).pred.sums)) }
  let len := 60 * (prHorizon r - prCycle r)
  let last := Nat.max (60 * prHorizon r - prStep r) (midAt (60 * prCycle r) len 63)
  onPlanner (fun x => { x with eval := some eval, forecast := fc, short := slotClamped fc civil || slotClamped fc (civil + last) }) p1

/-- The steps of a planning boundary at the present instant (R289, R291, R292); `absent` is HOST_ABSENT. -/
def planningBoundary (absent : Bool) (p : Pkg) : Pkg :=
  let p0 := onPlanner (fun x => { x with boundaryAt := some p.now }) p
  let p1 := if p0.sh.planner.eval.isSome then
      forAll (nodeTiles p0) (fun t q => govOverrun t (onGov t (fun g => { g with planSlack := 0 }) q)) (abandonEval p0)
    else p0
  let p2 := match p1.sh.planner.latent with
    | none => p1
    | some pl =>
      let asked := !prApprove (planRec p1) || !p1.sh.planner.fixers.isEmpty
      if asked || absent then fixPlan pl p1 else retractPlan p1
  if mayPlan p2 then startEval p2 else p2

/-- Every bracket is simulated: the winner becomes latent (R287, R289). -/
def finishEval (e : Eval) (p : Pkg) : Pkg :=
  let r := planRec p
  let cyc := 60 * prCycle r * secTicks
  let p1 := planSlack (((e.n * secTicks + cyc) - p.now) * 1000 / cyc) (onPlanner (fun x => { x with
    eval := none, abandoned := false, noFinite := (winner e.done).isNone }) p)
  match winner e.done with
  | none => p1
  | some b =>
    match e.brackets[b]?, e.done[b]? with
    | some pl, some d =>
      let id := p1.sh.planner.nextId
      let plan := { pl with id := id, temps := d.temps, comfort := d.comfort, short := d.short }
      let p2 := onPlanner (fun x => { x with
        latent := some plan, latentCost := d.total, fixers := []
        nextId := if id == 0xFFFFFFFF then 1 else id + 1, wrapped := x.wrapped || id == 0xFFFFFFFF
        fixedIds := x.fixedIds.filter (· != id) }) p1
      let p3 := onTiles (fun t tl => { tl with pred := { tl.pred with latentCost := d.tileCosts.getD t 0 } }) p2
      let (outdoor, p4) := orFree (seriesAt p.sh.planner.forecast 1 (e.civil + (pl.start - e.n))) p3
      sendAdvice 1 id (e.n * secTicks + cyc + secTicks) (adviceValues p4 outdoor plan pl.start) { p4 with freeCtr := p4.freeCtr + 1 }
    | _, _ => p1

/-- The bracket under way is simulated on every tile (R286). -/
def bracketDone (p : Pkg) : Pkg :=
  match p.sh.planner.eval with
  | none => p
  | some e =>
    match e.brackets[e.done.length]? with
    | none => p
    | some b =>
      if e.nodes.all (fun q => online p q.1) && online p (planCoord p) then
        let e1 := { e with done := e.done ++ [simulate p e b] }
        let p1 := onPlanner (fun x => { x with eval := some e1 }) p
        if e1.done.length == e1.brackets.length then finishEval e1 p1 else p1
      else p

/-- A planning record is in range (R282). -/
def planRecOk (p : Pkg) (r : BitVec 256) : Bool :=
  let c := prCycle r
  let h := prHorizon r
  let s := prStep r
  5 ≤ c && c ≤ 240 && 60 ≤ h && h ≤ 2880 && 10 ≤ s && s ≤ 900 && 60 * c % s == 0 && 60 * h % s == 0 && 2 * c ≤ h
    && 2 ≤ prBrackets r && prBrackets r ≤ 16 && prCoord r < p.n && prAdvTile r ≤ 15 && prAdvVar r ≤ 4093 && prHst r ≤ 3711
    && prWeather r ≤ 511 && prCop r ≤ 511
    && bits r 63 58 == 0 && bits r 159 144 == 0 && bits r 255 232 == 0
    && f32NonNeg (prWc r) && f32NonNeg (prSw r) && 1 ≤ prStepK r && prStepK r ≤ 40
    && (match localOf p (prAdvTile r) with | some u => !adviceClaimed p u (prAdvVar r) | none => true)

/-- PLAN_CONFIG (R282): its effect follows its acceptance. -/
def planConfig (c : Ctx) (t : Nat) (r : BitVec 256) (p : Pkg) : Pkg :=
  if !planRecOk p r then finish c 0x53 stBadParam t p
  else
    let p1 := retractPlan (abandonEval (accept c 0x53 t p))
    let p2 := onTiles (fun _ => releaseClaims .advice) (onPlanner (fun x => { x with record := some r }) p1)
    finish c 0x53 stOk t (forAll (List.range p.n) claimAdvice p2)

/-- The plan was issued (R293). -/
def planIssued (x : Planner) (id : Word) : Bool := id != 0 && (x.wrapped || id.toNat < x.nextId.toNat)

/-- PLAN_FIX and PLAN_VETO (R124, R293): a latent plan that a PLAN_FIX has named counts as fixed. -/
def planFix (c : Ctx) (t : Nat) (id : Word) (p : Pkg) : Pkg :=
  let x := p.sh.planner
  if t != planCoord p then finish c 0x55 stBadParam t p
  else if (x.latent.map (·.id)) == some id then
    if x.fixers.isEmpty then onPlanner (fun x => { x with fixers := [c] }) p else finish c 0x55 stOk t p
  else finish c 0x55 (if x.fixedIds.contains id then stOk else if planIssued x id then stRetracted else stBadState) t p
def planVeto (c : Ctx) (t : Nat) (id : Word) (p : Pkg) : Pkg :=
  let x := p.sh.planner
  if t != planCoord p then finish c 0x56 stBadParam t p
  else if (x.latent.map (·.id)) == some id then
    if x.fixers.isEmpty then finish c 0x56 stOk t (retractPlan p) else finish c 0x56 stBadState t p
  else finish c 0x56 (if x.fixedIds.contains id || !planIssued x id then stBadState else stRetracted) t p

/-- Eight knots as bytes. -/
def knotBytes (ks : List Int) : List Byte := (List.range 8).map (fun j => BitVec.ofInt 8 (ks.getD j 0))

/-- The plan status record (R294). While HOST_ABSENT is set every latent plan is eligible, which bit 2 of the flags shows (R291). -/
def planStatus (absent : Bool) (p : Pkg) (t zone : Nat) : List Byte :=
  let x := p.sh.planner
  let fx := governing x.fixed (p.now / secTicks)
  let idOf (o : Option Plan) : List Byte := le 4 (o.elim 0 (fun pl => pl.id.toNat))
  let ks (o : Option Plan) (f : Plan → List Int) : List Byte := knotBytes (o.elim [] f)
  let word (w : Word) : List Byte := le 4 w.toNat
  if zone == 0xFFFF then
    let state := if x.eval.isSome then 1 else match x.latent with
      | none => 0
      | some _ => if prApprove (planRec p) && x.fixers.isEmpty then 3 else 2
    let cost := if x.latent.isNone then 0 else if t == planCoord p then x.latentCost else (p.tile t).pred.latentCost
    idOf fx ++ idOf x.latent ++ [BitVec.ofNat 8 state, BitVec.ofNat 8 ((x.latent.or fx).elim 0 (·.bracket)),
        BitVec.ofNat 8 (prBrackets (planRec p)),
        BitVec.ofNat 8 (b2n x.short + 2 * b2n x.abandoned + 4 * b2n absent + 8 * b2n x.noFinite)]
      ++ word cost ++ le 8 (x.latent.elim 0 (·.mask.toNat)) ++ ks x.latent (·.supply)
  else
    let z := (p.tile t).zone zone
    idOf fx ++ idOf x.latent ++ [BitVec.ofNat 8 z.outcome,
        BitVec.ofNat 8 (b2n z.spBad + 2 * b2n (fx.any (fun pl => pl.short.contains zone))), 0, 0]
      ++ word z.frac ++ ks fx (fun pl => pl.zones.getD zone []) ++ ks x.latent (fun pl => pl.zones.getD zone [])

end Sys2Proof.Machine
end

