-- ==== Sys2Proof/Machine/CmdPredictor.lean ====
section
/-!
DEFINITION. The predictor family (R123, R124, R268 to R295): MODEL_LOAD, MODEL_READ, IDENT_CONTROL, PLAN_CONFIG, PLAN_STATUS,
PLAN_FIX, PLAN_VETO, CAPACITY_CONFIG.
-/

namespace Sys2Proof.Machine

/-- MODEL_LOAD (R269). -/
def execModelLoad (c : Ctx) (part rsv : Byte) (first count rsv2 : BitVec 16) (recs : List Byte) :
    State → Host.Outcome State Fault Refusal :=
  lift (command (.modelLoad c part rsv first count rsv2 recs) (fun t p =>
    modelLoad c t part.toNat first.toNat count.toNat recs p))

/-- MODEL_READ (R269). -/
def execModelRead (c : Ctx) (part rsv : Byte) (first count rsv2 : BitVec 16) : State → Host.Outcome State Fault Refusal :=
  lift (command (.modelRead c part rsv first count rsv2) (fun t p => modelRead c t part.toNat first.toNat count.toNat p))

/-- The forgetting factor is from 0.995 to 0.99995 (R277). -/
def lambdaOk (l : Word) : Bool := f32Le 0x3F7EB852 l && f32Le l 0x3F7FFCB9

/-- IDENT_CONTROL (R277): acts at the next live step. -/
def execIdentControl (c : Ctx) (node : BitVec 16) (action rsv : Byte) (lambda : Word) : State → Host.Outcome State Fault Refusal :=
  lift (command (.identControl c node action rsv lambda) (fun t p =>
    let n := (p.tile t).node node.toNat
    if node.toNat > 127 then finish c 0x52 stBadHandle t p
    else if action.toNat > 2 || (action == 1 && !lambdaOk lambda) then finish c 0x52 stBadParam t p
    else if !nodeInUse n || !nIdent n.rc || nMeas n.rc == noHandle then finish c 0x52 stRefusedState t p
    else finish c 0x52 stOk t (onTile t (fun tl => { tl with pred := { tl.pred with
      nodes := tl.pred.nodes.modify node.toNat Node.reset (fun x => { x with ident := { x.ident with pend := x.ident.pend ++ [(tl.pred.loads, action, lambda)] } }) } }) p)))

/-- PLAN_CONFIG (R282). -/
def execPlanConfig (c : Ctx) (cfg : BitVec 256) : State → Host.Outcome State Fault Refusal :=
  lift (command (.planConfig c cfg) (fun t p => planConfig c t cfg p))

/-- PLAN_STATUS (R294). -/
def execPlanStatus (c : Ctx) (zone rsv : BitVec 16) : State → Host.Outcome State Fault Refusal :=
  fun s => lift (command (.planStatus c zone rsv) (fun t p =>
    if zone != 0xFFFF && (zone.toNat > 255 || !zoneHosted (p.tile t) zone.toNat) then finish c 0x54 stBadHandle t p
    else reply c 0x54 t (planStatus s.hp.absent p t zone.toNat) p)) s

/-- PLAN_FIX (R124, R293). -/
def execPlanFix (c : Ctx) (plan : Word) : State → Host.Outcome State Fault Refusal :=
  lift (command (.planFix c plan) (fun t p => planFix c t plan p))

/-- PLAN_VETO (R124, R292, R293). -/
def execPlanVeto (c : Ctx) (plan : Word) : State → Host.Outcome State Fault Refusal :=
  lift (command (.planVeto c plan) (fun t p => planVeto c t plan p))

/-- CAPACITY_CONFIG (R295). -/
def execCapacityConfig (c : Ctx) (zone : BitVec 16) (prio weight : Byte) : State → Host.Outcome State Fault Refusal :=
  lift (command (.capacityConfig c zone prio weight) (fun t p =>
    let z := zone.toNat
    if z > 255 || !zoneHosted (p.tile t) z then finish c 0x57 stBadHandle t p
    else if prio.toNat > 3 || weight == 0 then finish c 0x57 stBadParam t p
    else finish c 0x57 stOk t (onTile t (fun tl => { tl with pred := { tl.pred with
      zones := tl.pred.zones.modify z Zone.reset (fun x => { x with prio := prio, weight := weight }) } }) p)))

end Sys2Proof.Machine
end

