-- ==== Sys2Proof/Machine/CmdRings.lean ====
section
/-!
DEFINITION. The ring and event families (R126, R381 to R410): RING_CONFIG, RING_READ, RING_RESET, EVENT_MASK, EVENT_READ,
RING_PERIOD_TRIGGER, RING_SOURCE_TIMEOUT.
-/

namespace Sys2Proof.Machine

/-- RING_CONFIG (R385, R402). -/
def execRingConfig (c : Ctx) (id : Word) (desc : BitVec 128) : State → Host.Outcome State Fault Refusal :=
  lift (command (.ringConfig c id desc) (fun t p =>
    if psramShort (p.tile t) then finish c 0x70 stCapacity t p else
    match ringIdError p t id with
    | some st => finish c 0x70 st t p
    | none => ringConfig c t (bits id 14 0) desc p))

/-- RING_READ (R394 to R399): of a ring that was deconfigured since its admission, nothing is delivered and NEXT says so. -/
def execRingRead (c : Ctx) (id cursor limit : Word) : State → Host.Outcome State Fault Refusal :=
  lift (command (.ringRead c id cursor limit) (fun t p =>
    let i := bits id 14 0
    match ringIdError p t id with
    | some st => finish c 0x71 st t p
    | none =>
      let latch := latchedSeq (p.tile t) (.command (.ringRead c id cursor limit))
      match (p.tile t).ring? i with
      | none => if latch.isSome then reply c 0x71 t (bulkRecord 0 0 0 0xFFFFFFFF) p else finish c 0x71 stBadHandle t p
      | some r =>
        if limit.toNat < 1 || 8192 < limit.toNat then finish c 0x71 stBadParam t p
        else
          let r1 := if cursor == 0xFFFFFFFF then r else freeOlder r cursor.toNat
          let (data, n, next) := ringDelivery r1 (latch.getD r.nextSeq) cursor.toNat limit.toNat
          bulkReply c 0x71 t (.ringRead c id cursor limit) data n next (setRing t i r1 p)))

/-- RING_RESET (R386). -/
def execRingReset (c : Ctx) (id : Word) : State → Host.Outcome State Fault Refusal :=
  lift (command (.ringReset c id) (fun t p =>
    let i := bits id 14 0
    match ringIdError p t id with
    | some st => finish c 0x72 st t p
    | none =>
      match (p.tile t).ring? i with
      | none => finish c 0x72 stBadHandle t p
      | some r => finish c 0x72 stOk t (setRing t i r.discard p)))

/-- EVENT_MASK (R405). -/
def execEventMask (c : Ctx) (word : Byte) (rsv : BitVec 24) (mask : Word) : State → Host.Outcome State Fault Refusal :=
  lift (command (.eventMask c word rsv mask) (fun t p =>
    if word.toNat > 3 then finish c 0x73 stBadParam t p
    else
      let lo := 32 * word.toNat
      finish c 0x73 stOk t (onTile t (fun tl => { tl with events := { tl.events with
        masked := setBits tl.events.masked (lo + 31) lo mask.toNat } }) p)))

/-- EVENT_READ (R407). -/
def execEventRead (c : Ctx) : State → Host.Outcome State Fault Refusal :=
  lift (command (.eventRead c) (fun t p =>
    let e := (p.tile t).events
    reply c 0x74 t (le 16 e.pending.toNat ++ le 16 e.masked.toNat)
      (onTile t (fun tl => { tl with events := { tl.events with pending := 0 } }) p)))

/-- RING_PERIOD_TRIGGER (R390). -/
def execRingPeriodTrigger (tile : TileId) (ring : BitVec 15) : State → Host.Outcome State Fault Refusal :=
  liftTile tile (fun t p =>
    match (p.tile t).ring? ring.toNat with
    | none => p
    | some r =>
      if r.trigger != 2 || !online p t || r.param == 0 then p
      else firePeriod t ring.toNat r
        (advanceTo (nextMultiple r.periodTicks (if r.trigAt == some p.now then p.now + 1 else p.now)) p))

/-- RING_SOURCE_TIMEOUT (R390): the copy in its STALE form stands for the reply. -/
def execRingSourceTimeout (tile : TileId) (ring : BitVec 15) : State → Host.Outcome State Fault Refusal :=
  liftTile tile (fun t p =>
    match (p.tile t).ring? ring.toNat, (p.tile t).rings.waits.find? (fun w => w.ring == ring.toNat && w.got.isNone) with
    | some r, some w =>
      if !online p t then p
      else
        let p1 := advanceTo w.limit p
        sourceArrived t ring.toNat w.at_ (staleForm (copyOf p1 t r.source)) p1
    | _, _ => p)

end Sys2Proof.Machine
end

