-- ==== Sys2Proof/Machine/Images.lean ====
section
/-!
DEFINITION. Images (R453 to R455), their boot checks (R460, R467), and stored data across versions (R466).
-/

namespace Sys2Proof.Machine

/-- The images of a tile changed by `f`. -/
def onImages (t : Nat) (f : Slots → Slots) (p : Pkg) : Pkg := onTile t (fun tl => { tl with images := f tl.images }) p

/-- Fields of an image header (R454). -/
def ihLength (b : List Byte) : Nat := leAt b 36 4
def ihOemSig (b : List Byte) : Bool := (leAt b 6 1).testBit 0
def ihMap (b : List Byte) (t : Nat) : Nat × Nat := (leAt b (48 + 8 * t) 4, leAt b (52 + 8 * t) 4)

/-- The image that bytes spell, with the versions of its header. -/
def imageOf (b : List Byte) : Image :=
  { version := w32 (leAt b 24 4), schema := BitVec.ofNat 16 (leAt b 28 2), epoch := BitVec.ofNat 16 (leAt b 30 2)
    proto := BitVec.ofNat 16 (leAt b 32 2), protoMin := BitVec.ofNat 16 (leAt b 34 2), bytes := b }

/-- MAGIC, FORMAT and the reserved header bytes are right (R454, R457). -/
def headerForm (b : List Byte) : Bool :=
  leAt b 0 4 == 0x4938584C && leAt b 4 2 == 1 && leAt b 6 2 < 2 && (leAt b 10 1) < 8 && zeroAt b 11 1 && zeroAt b 14 2
    && zeroAt b 40 8 && zeroAt b 144 112

/-- The payload map keeps R455: each payload in its place, aligned, of a legal length; two either the same or apart. -/
def mapForm (b : List Byte) : Bool :=
  let es := ((List.range 8).map (ihMap b)).filter (fun e => e.2 != 0)
  es.all (fun e => 512 ≤ e.1 && e.1 % 4 == 0 && 4 ≤ e.2 && e.2 ≤ 523648 && e.1 + e.2 + 128 ≤ ihLength b)
    && es.all (fun e => es.all (fun f => e == f || e.1 + e.2 ≤ f.1 || f.1 + f.2 ≤ e.1))

/-- The silicon revision of the part, as IDENT codes it (R454). -/
def siliconRev : Nat := 0x42

/-- The bit of a variant in VARIANTS (R454). -/
def variantBit : Variant → Nat
  | .lx82 => 0 | .lx84 => 1 | .lx88 => 2

/-- Two images are compatible (R467). -/
def compatible (a b : Image) : Bool := b.protoMin.toNat ≤ a.proto.toNat && a.protoMin.toNat ≤ b.proto.toNat

/-- What the boot checks of R460 find: 0 nothing, 2 a rejection for signature, 3 one for binding. The image that a part is
delivered with, of which State holds no bytes, passes checks 1 to 6. -/
def imageVerdict (p : Pkg) (t : Nat) (img : Image) : Nat :=
  let b := img.bytes
  let uid := leAt b 16 8
  let (off, len) := ihMap b t
  let binding := headerForm b && ihLength b == b.length && leAt b 8 2 == 8 && (leAt b 10 1).testBit (variantBit p.ident.variant)
    && leAt b 12 1 ≤ siliconRev && siliconRev ≤ leAt b 13 1
    && (p.ident.variant == .lx88 || uid == 2 ^ 64 - 1 || uid == p.ident.unitId.toNat)
  let msg := b.take 512
  let oem := match p.ident.oemHash with
    | none => true
    | some h => ihOemSig b && sha256 (slice b 112 32) == h && edVerify (slice b 112 32) msg (slice b (ihLength b - 64) 64)
  let signed := edVerify Config.akgenKey msg (slice b (ihLength b - 128) 64) && oem
    && len != 0 && sha256 (slice b off len) == slice b (256 + 32 * t) 32
  if !b.isEmpty && !binding then 3
  else if !b.isEmpty && !signed then 2
  else if (List.range p.n).all (fun u => u == t || !online p u || compatible img (p.tile u).images.print) then 0
  else 3

/-- The print and the negative of a tile change roles (R453). -/
def swapRoles (neg : NegState) (s : Slots) : Slots := { s with printIsA := !s.printIsA, print := s.neg, neg := s.print, negState := neg }

/-- A negative may be booted (R453): it is neither empty, nor downloading, nor rejected. -/
def bootable (s : NegState) : Bool := s == .retained || s == .staged

/-- The settings area of the lead: the settings in force. -/
def settingsOf (p : Pkg) : Settings :=
  { permits := p.sh.permits.permits.mapVals (fun _ x => { enabled := x.enabled, pred := x.pred }), tether := p.sh.tether.cfg, share := p.sh.tether.bulkShare }

/-- Settings come into force in the package (R375, R418). -/
def setSettings (s : Settings) (p : Pkg) : Pkg :=
  onShared (fun x => { x with
    permits := { x.permits with permits := s.permits.mapVals (fun i v =>
      let y := x.permits.permits.getD i Permit.reset
      if y.enabled == v.enabled && y.pred == v.pred then y else { enabled := v.enabled, pred := v.pred }) }
    tether := { x.tether with
      cfg := s.tether, bulkShare := s.share
      state := if !bit s.tether 0 then .disabled else if x.tether.state == .disabled && hasTether p then .down else x.tether.state } }) p

/-- The settings area of tile `t` of the pair changed by `f`; `none` stands for what the lead's holds. -/
def onSettings (t : Nat) (f : Option Settings → Option Settings) (p : Pkg) : Pkg :=
  onTile t (fun tl => { tl with flash := { tl.flash with settings := f tl.flash.settings } }) p

/-- A setting is written to the areas of the pair's tiles that are online (R359): an area that is not keeps what it held. -/
def writeSettings (f : Settings → Settings) (p : Pkg) : Pkg :=
  let u := 1 - p.lead % 2
  onSettings u (fun s => if online p u then s.map f else some (s.getD (settingsOf p))) p

/-- The settings area of a tile is reset to defaults (R466); the package runs with those of its lead. -/
def resetSettings (t : Nat) (p : Pkg) : Pkg :=
  if 1 < t then p
  else if t == p.lead then setSettings {} (onSettings (1 - t) (fun s => some (s.getD (settingsOf p))) p)
  else onSettings t (fun _ => some {}) p

/-- Tile `new` of the pair has taken the lead: the package runs with its settings, and the other keeps its own (R18, R466). -/
def adoptSettings (new : Nat) (p : Pkg) : Pkg :=
  match (p.tile new).flash.settings with
  | none => p
  | some s => setSettings s (onSettings new (fun _ => none) (onSettings (1 - new) (fun _ => some (settingsOf p)) p))

/-- A tile boots into its print (R466): stored settings and tables of another version go. -/
def bootVersions (t : Nat) (p : Pkg) : Pkg :=
  let s := (p.tile t).images
  let p1 :=
    if s.schema == s.print.schema then p
    else
      resetSettings t (onTile t (fun tl => { tl with flash := { tl.flash with baselines := [] }
                                                     images := { tl.images with schema := s.print.schema } }) p)
  if s.epoch == s.print.epoch then p1
  else
    onTile t (fun tl => { tl with
      tables := { tl.tables with active := [] }
      images := { tl.images with epoch := s.print.epoch } }) p1

end Sys2Proof.Machine
end

