-- ==== Sys2Proof/Machine/Lifecycle.lean ====
section
/-!
DEFINITION. Tiles in and out of service: the leaving of service, the offline mark, resets, and the coming online (R20, R21,
R42 to R51, R156, R228, R258, R325, R354, R363, R365).
-/

namespace Sys2Proof.Machine

/-- Boot of a tile changed by `f`. -/
def onBoot (t : Nat) (f : Boot → Boot) (p : Pkg) : Pkg := onTile t (fun tl => { tl with boot := f tl.boot }) p

/-- The incarnation that a restart takes (R45). -/
def nextIncarnation (b : Boot) : Byte := if b.incLost || b.incarnation == 255 then 1 else b.incarnation + 1

/-- The lead has gone without a handover (R21): the shared balls are not driven, tags outstanding wait for the other tile,
and no handover goes on. -/
def loseLead (p : Pkg) : Pkg :=
  onShared (fun s => { s with driven := false, handover := none, leadLostAt := p.now, hostEra := s.hostEra + 1
                              serviceEra := s.serviceEra + 1
                              permits := { s.permits with permits := s.permits.permits.mapVals (fun _ x => { x with permitted := false, high := false }) } }) p

/-- A tile leaves service into `st` (R42, R43): outputs go to Hold, or in Offline to Safelight at once, those of a tile that
boots from its reset among them. -/
def leaveService (t : Nat) (st : TileState) (p : Pkg) : Pkg :=
  let p1 := onBoot t (fun b => { b with state := st, marking := b.marking || b.state == .online }) p
  let p2 := onAllChans t (fun c ch =>
    let e := safeEntry (p.tile t) c
    if st == .offline then (if ch.out == .off then ch else enterSafelight e ch) else enterHold p.now e ch) p1
  let p3 := if st == .offline && (p.tile t).boot.state == .restarting then readSafelight t p2 else p2
  let p3 := if t == 0 then panelStops p3 else p3
  if t == p.lead && (p.tile t).boot.state == .online then loseLead p3 else p3

/-- The sender of a completion was lost with an earlier lead (R21): the new lead answers its tags. -/
def senderLost (p : Pkg) (s : Source) : Bool :=
  match s with
  | .host _ era => era != p.sh.hostEra
  | .service _ era => era != p.sh.serviceEra
  | _ => false

/-- A completion of this step that says TILE_OFFLINE on behalf of tile `t` carries the tile that answers (R48), and each
command has one; to a port whose lead was lost none is made (R21). -/
def answeredBy (t by_ : Nat) (p : Pkg) (l : List Completion) : List Completion :=
  l.foldl (fun acc c =>
    if c.status == stTileOffline && c.tile == ownNo p t then
      if senderLost p c.src || acc.any (fun d => d.src == c.src && d.final) then acc else acc ++ [{ c with tile := ownNo p by_ }]
    else acc ++ [c]) []

/-- The work held in the flight table or queue of a leaving tile is answered TILE_OFFLINE (R48). A reply made before the mark has
left the tile and is delivered; one made at the instant of the mark is still inside, and is discarded at the adjacent tile: the
one before `t` on the path of the request. -/
def answerWork (t : Nat) (w : Work) (p : Pkg) : Pkg :=
  match w with
  | .command i => match commandParts i with
    | some (c, op, _) => finish c op stTileOffline t p
    | none => p
  | .request r =>
    let by_ := answerTile p r.origin t
    match (p.tile r.origin).fabric.out.find? (fun o => o.req == r && o.reply.isSome) with
    | some o => if o.repliedAt < p.now then p else refuseAt by_ r stTileOffline (countDiscarded by_ p)
    | none => refuseAt by_ r stTileOffline p

/-- The tile at which the reply to a request stands: the one that holds its entry, else its target, else the lead (R36, R48). -/
def replierOf (p : Pkg) (r : FabricReq) : Nat :=
  match (List.range p.n).find? (fun u => (p.tile u).fabric.flights.any (fun f => isRequest r f.work)) with
  | some u => u
  | none => (localOf p r.tile.toNat).getD p.lead

/-- The replies on their way to a leaving tile are discarded, counted at the tiles that made them, and their entries are freed
(R35, R48). -/
def dropReplies (t : Nat) (p : Pkg) : Pkg :=
  forAll ((p.tile t).fabric.out.filter (fun o => o.reply.isSome)) (fun o q =>
    countDiscarded (replierOf q o.req) (forAll (List.range p.n) (fun u => freeFlights u (isRequest o.req)) q)) p

/-- The command of a fire, move or stop, when a command made it. -/
def srcCtx (s : FireSrc) : List Ctx :=
  match s with
  | .command c => [c]
  | _ => []

/-- The commands under way in the engines and units of a tile, with their opcodes (R325, R354). -/
def engineCtxs (tl : Tile) : List (Byte × Ctx) :=
  tl.engines.flatMap (fun q =>
      (((if q.2.phase == .running then q.2.src.toList.flatMap srcCtx else [])
        ++ q.2.held.toList.flatMap (fun h => srcCtx h.src)).map (fun c => ((0x61 : Byte), c))))
    ++ tl.steppers.flatMap (fun q =>
      (match q.2.cmd with
       | some (.move s) => (srcCtx s).map (fun c => ((0x69 : Byte), c))
       | some (.stop s) => (srcCtx s).map (fun c => (0x6A, c))
       | some (.home c) => [(0x6B, c)]
       | none => [])
      ++ (q.2.homeNext.toList.map (fun h => (0x6B, h.1))))
    ++ tl.fans.flatMap (fun q => q.2.capture.toList.map (fun x => (0x6E, x.ctx)))

/-- What waits at a leaving tile for a bulk buffer is answered TILE_OFFLINE (R48, R96). -/
def answerBulk (t : Nat) (w : BulkWork) (p : Pkg) : Pkg :=
  match w with
  | .command i => answerWork t (.command i) p
  | .delivery c _ => refuseDelivery stTileOffline t c p

/-- The commands that wait at a leaving tile for something else than an entry: slots, groups, machines, tables, entropy,
probes, self tests, bulk buffers (R48, R122, R228, R236). -/
def answerPending (t : Nat) (p : Pkg) : Pkg :=
  let tl := p.tile t
  let off (op : Byte) (c : Ctx) (q : Pkg) : Pkg := finish c op stTileOffline t q
  let p1 := forAll tl.slots (fun s q => match s.2.pend with | some x => slotDone t x stTileOffline q | none => q) p
  let p2 := forAll tl.groups (fun g q => match g.2.pend with | some x => off 0x34 x.ctx q | none => q) p1
  let p3 := forAll tl.machines (fun m q => forAll m.2.ctl (fun x => off 0x43 x.1) q) p2
  let p4 := stopCommits t t p3
  let p5 := forAll tl.entropy.waits (fun w => off 0xB3 w.ctx) p4
  let p6 := forAll tl.counters.tests (fun w => off 0xF0 w.1) (forAll tl.fabric.probes (fun w => off 0xF1 w.ctx) p5)
  let p7 := forAll tl.pred.pend (fun w => off 0x50 w.ctx) p6
  let p7 := forAll (engineCtxs tl) (fun w => off w.1 w.2) p7
  let bulk := p.sh.bulkWaits.filter (fun w => w.tile == t)
  let p8 := forAll bulk (fun w => answerBulk t w.work) p7
  onTile t (fun x => { x with entropy := { x.entropy with waits := [] }
                              pred := { x.pred with pend := [] }
                              counters := { x.counters with tests := [] }
                              fabric := { x.fabric with probes := [] } })
    (onShared (fun s => { s with bulkWaits := s.bulkWaits.filter (fun w => w.tile != t) }) p8)

/-- Copies of the points of tile `t` are STALE in the other tiles (R47, R50, R533). -/
def staleCopies (t : Nat) (p : Pkg) : Pkg :=
  onTiles (fun u tl => if u == t then tl else
    { tl with fabric := { tl.fabric with copies := tl.fabric.copies.mapVals (fun k r => if k / 1048576 == ownNo p t then staleForm r else r) } }) p

/-- Everything a tile's engines do stops (R190, R228, R325, R354). -/
def stopEngineBlocks (t : Nat) (p : Pkg) : Pkg :=
  stopFans t (stopSteppers t (onTile t (fun tl => stopMachines (stopSlots (stopTrackers tl))) (haltConverters t (stopEngines t p))))

/-- The reply of TILE_STATE (R116): the state of the tile and its incarnation. -/
def tileStateBytes (p : Pkg) (t : Nat) : List Byte :=
  le 1 (p.tile t).boot.state.code ++ le 1 (p.tile t).boot.incarnation.toNat ++ zeros 2

/-- A TILE_STATE completes OK with its reply, from tile `by_` (R116, R117). -/
def tileStateDone (t by_ : Nat) (c : Ctx) (p : Pkg) : Pkg := reply c 0x02 by_ (tileStateBytes p t) p

/-- The TILE_STATE that waits for its tile is not part of the work that the mark ends: R117 says when it completes. -/
def waitsForTile (b : Boot) (w : Work) : Bool :=
  match w with
  | .command i => match commandParts i with
    | some (c, _, _) => b.offlineFor.contains c || b.restartFor.contains c
    | none => false
  | .request _ => false

/-- The offline mark of a tile (R48): everything it held is answered for it by tile `by_`, its engines stop, and overrides
on its points end (R32). Its resync reads come to nothing (R425). -/
def offlineMark (t by_ : Nat) (p : Pkg) : Pkg :=
  let tl := p.tile t
  let n := p.outbox.length
  let works := ((tl.fabric.flights.map (·.work)) ++ (tl.fabric.queue.map (·.work))).filter (fun w => !waitsForTile tl.boot w)
  let p1 := dropReplies t (forAll works (answerWork t) p)
  let p2 := answerPending t p1
  let p3 := stopEngineBlocks t (planLoses t p2)
  let p4 := forAll tl.boot.offlineFor (tileStateDone t by_) (if t == 0 then panelMark p3 else p3)
  let p5 := { p4 with outbox := p4.outbox.take n ++ answeredBy t by_ p (p4.outbox.drop n) }
  let p6 := onTile t (fun x => { x with
    overrides := []
    fabric := { x.fabric with flights := [], queue := [], out := [] }
    rings := { x.rings with waits := [] }
    boot := { x.boot with marking := false, offlineFor := [] } }) p5
  let back := p.sh.update.state == .fallingBack || p.sh.update.state == .restoring
  let p7 := onTether (fun te => { te with session := { te.session with resync := te.session.resync.filter (fun x => x.1 != t) } }) p6
  staleCopies t (if back then onShared (fun s => { s with update := { s.update with recovery := true } }) p7 else p7)

/-- The tile that answers for tile `t`: the one before it on the path from the lead, or from the other of the pair where it
is the lead itself (R48, R117). -/
def standIn (p : Pkg) (t : Nat) : Nat := if t == p.lead then 1 - t % 2 else answerTile p p.lead t

/-- A tile just reset (R363, R365): what is in flash, the incarnation, the override count (R74) and what its comparators
show stay; its restart begins. -/
def resetTile (cause : Nat) (now : Nat) (t : Nat) (tl : Tile) : Tile :=
  systemRings t
    { boot := { state := .restarting, incarnation := nextIncarnation tl.boot, resetCause := cause, bootAt := now
                bootMs := tl.boot.bootMs, fromReset := true, restartFor := tl.boot.restartFor, tap := tl.boot.tap, incLost := false }
      fabric := { down := tl.fabric.down }
      conv := { enabledAt := now }
      gov := { overrides := tl.gov.overrides }
      counters := { fixed := if cause == 6 then tl.counters.fixed else 0 }
      tables := { active := tl.tables.active, commits := if tl.supply.holdup then (nextWrite tl).toList else [] }
      rings := { kib := tl.rings.kib }
      supply := { powerFail := tl.supply.powerFail, stopBath := tl.supply.stopBath, holdCharged := tl.supply.holdCharged
                  vhvLow := tl.supply.vhvLow, rtcLost := tl.supply.rtcLost || tl.supply.vrtcGone, holdup := tl.supply.holdup
                  die := tl.supply.die }
      policies := tl.policies
      flash := tl.flash
      images := tl.images }

/-- An unconfirmed image falls back at a reset (R465): the retained image becomes the print again, and a tile that an activation
has not reached keeps its print; no restart of it follows. -/
def fallbackAtReset (t : Nat) (p : Pkg) : Pkg :=
  let u := p.sh.update
  let trial := bit u.tilesNew t
  let staged := u.state == .activating && (p.tile t).images.negState == .staged
  if trial || staged then
    raise t 88 (onShared (fun s => { s with update := { s.update with
        tilesNew := setBits s.update.tilesNew t t 0, result := 5, recovery := true, order := s.update.order.filter (· != t) } })
      (onImages t (fun s => if trial then swapRoles .rejected s else { s with negState := .rejected }) p))
  else p

/-- The ticks of the last raise of an event by a tile, where it has raised it. -/
def lastRaise (tl : Tile) (ev : Nat) : Option Nat := if tl.events.raised.getLsbD ev then some (tl.events.lastAt.getD ev 0) else none

/-- The last overrun of a tile (R463). -/
def lastOverrun (tl : Tile) : Option Nat := ((List.range 8).filterMap (fun g => lastRaise tl (35 + g))).max?

/-- A tile reset takes the tile's own record: what the health window asks of it is kept (R463). -/
def keepRecord (t : Nat) (p : Pkg) : Pkg :=
  let tl := p.tile t
  onShared (fun s => { s with update := { s.update with
    faulted := s.update.faulted || (lastRaise tl 127).any (s.update.windowStart ≤ ·)
    overrunAt := (s.update.overrunAt.toList ++ (lastOverrun tl).toList).max? } }) p

/-- The restart of a tile begins (R45, R50): the governor's parameters return to their defaults (R72). -/
def beginRestart (t : Nat) (p : Pkg) : Pkg :=
  onTile t (fun tl => { tl with
    boot := { tl.boot with state := .restarting, incarnation := nextIncarnation tl.boot, bootAt := p.now
                           fromReset := false, incLost := false }
    gov := { tl.gov with ceil := 1000, floor := 600, slackFloor := 250, toCeil := false } }) p

/-- A tile that its only bridge no longer reaches stays Offline through a reset of its own, which begins no restart (R17, R45):
`was` is its standing before. -/
def staysOut (was : Boot) (t : Nat) (p : Pkg) : Pkg :=
  if cutOff p t then onBoot t (fun b => { b with state := .offline, incarnation := was.incarnation, incLost := was.incLost }) p else p

/-- The state in which a tile reset leaves tile `t` until its boot ends: Offline where no restart can begin (R17, R363). -/
def resetState (p : Pkg) (t : Nat) : TileState := if cutOff p t then .offline else .restarting

/-- The offline mark of a tile is made if it is due, and a reset of its own then clears it (R48, R363). -/
def forceMark (t : Nat) (p : Pkg) : Pkg :=
  let b := (p.tile t).boot
  let p1 := if b.marking then offlineMark t (standIn p t) p else p
  if b.resetting then
    fallbackAtReset t (staysOut b t (onTile t (resetTile b.resetCause p.now t) (keepRecord t (if t == 0 then panelReset p1 else p1))))
  else p1

/-- The machines of a tile after a tile reset start from the tables of its flash, and own their points (R31, R258); after
a restart those whose table is gone are erased (R466). The bus maps of the lead own points of every tile (R434). -/
def loadTables (t : Nat) (p : Pkg) : Pkg :=
  let tl := p.tile t
  let tabs := tl.tables.active
  let p1 := forAll (tl.machines.map (·.1)) (fun m q =>
    if ((q.tile t).table 0 m).isEmpty && !((q.tile t).machine m).image.isEmpty then switchMachine t m [] q else q) p
  let p2 := forAll (tabs.filter (fun q => q.1 < 1024)) (fun e q =>
    if ((q.tile t).machine e.1).image.isEmpty then switchMachine t e.1 e.2 q else q) p1
  let p3 := forAll (tabs.filter (fun q => 2048 ≤ q.1 && q.1 < 3072)) (fun e => enforceClaims t 2 (e.1 % 1024) e.2) p2
  forAll [0, 1, 2, 3] (fun i q =>
    let b := (q.tile q.lead).table 3 i
    if b.isEmpty then q
    else
      let (who, ks) := tableClaims q q.lead 3 i b
      forAll (if t == q.lead then List.range q.n else [t]) (fun u =>
        onTile u (setClaims who ((ks.filter (fun k => k.1 == u)).map (·.2)))) q) p3

/-- The incarnations of tiles 0 to 7, as HELLO and ANNOUNCE carry them (R414). -/
def incarnations (p : Pkg) : List Byte := (List.range 8).map (incarnationOf p)

/-- A tile comes online (R47, R50, R156, R190, R208, R325, R354, R402, R410): a TILE_STATE that waited completes OK. -/
def comeOnline (t : Nat) (p : Pkg) : Pkg :=
  let b := (p.tile t).boot
  let p0 := onBoot t (fun x => { x with state := .online, restartFor := [], bootMs := w32 ((p.now - b.bootAt) / msTicks) }) p
  let p1 := claimAdvice t (loadTables t (if b.fromReset then p0 else restartMarkers t p0))
  let p2 := onTile t (fun tl => resumeSlots (resumeConverters p.now tl)) p1
  let p3 := settleChans t (resumeFans t (resumeSteppers t (resumeTrackers t p2)))
  let p4 := onTile t (fun tl => { tl with fabric := { tl.fabric with learned := tl.fabric.learned.set (ownNo p t) b.incarnation } }) p3
  let p5 := if linkOpen p.sh.tether then tetherSend ftAnnounce (incarnations p4) p4 else p4
  let p5 := if t == 0 then panelBack p5 else p5
  let p5 := if psramShort (p.tile t) then raise t 127 p5 else p5
  forAll b.restartFor (tileStateDone t (standIn p t)) p5

/-- A tile enters Offline after failed boot checks (R51, R117): its outputs go to Safelight. -/
def bootFailed (t : Nat) (p : Pkg) : Pkg :=
  let p1 := leaveService t .offline (onBoot t (fun x => { x with restartFor := [] }) p)
  forAll (p.tile t).boot.restartFor (fun c => finish c 0x02 stTileOffline (standIn p t)) p1

/-- The other tile of the pair takes the lead after a loss (R21, R365): the claims of the client lists on BUS points go with
it. -/
def moveBusClaims (old new : Nat) (p : Pkg) : Pkg :=
  let mine (c : Claim) : Bool := keyClass c.key == 0xB
  let cs := (p.tile old).claims.filter mine
  onTile new (fun tl => { tl with claims := (tl.claims.filter (fun c => !mine c)) ++ cs })
    (onTile old (fun tl => { tl with claims := tl.claims.filter (fun c => !mine c) }) p)

/-- Tile `new` becomes the lead (R18). BUS points and copies for the permits are the new lead's own, and so are the settings. -/
def setLead (new : Nat) (p : Pkg) : Pkg :=
  adoptSettings new (onShared (fun s => { s with lead := new, permits := { s.permits with copyAt := [], evalAt := none } })
    (if new == p.lead then p else moveBusClaims p.lead new p))

end Sys2Proof.Machine
end

