-- ==== Sys2Proof/Machine/UpdateOps.lean ====
section
/-!
DEFINITION. Updates of a package (R129 to R131, R453 to R468): download, activation, health window, fallback.
-/

namespace Sys2Proof.Machine

/-- The update of the package changed by `f`. -/
def onUpdate (f : Update → Update) (p : Pkg) : Pkg := onShared (fun s => { s with update := f s.update }) p

/-- Some tile of the package satisfies `f`. -/
def anyTile (p : Pkg) (f : Nat → Tile → Bool) : Bool := (List.range p.n).any (fun t => f t (p.tile t))

/-- A permit output is active. -/
def permitActive (p : Pkg) : Bool := p.sh.permits.permits.any (fun q => q.2.permitted || q.2.high)

/-- A stepper or a fan unit is running. -/
def unitRuns (tl : Tile) : Bool :=
  tl.steppers.any (fun q => q.2.state == .moving || q.2.state == .homing || q.2.state == .dwell)
    || tl.fans.any (fun q => q.2.state == .running || q.2.state == .starting || q.2.state == .openLoop || q.2.state == .baseline)

/-- The reason word of an update refusal (R130): bits 0 to 3 on the LX8-8 only. -/
def updateReason (p : Pkg) : Nat :=
  (if p.ident.variant == .lx88 then
    b2n (permitActive p) + 2 * b2n (anyTile p (fun _ tl => unitRuns tl))
      + 4 * b2n (anyTile p (fun _ tl => !tl.supply.holdCharged)) + 8 * b2n (anyTile p (fun _ tl => tl.supply.stopBath))
   else 0) + 16 * b2n (ownerLocked p)

/-- A command of the update family past its guards (R130, R456). -/
def guarded (c : Ctx) (op : Byte) (t : Nat) (f : Pkg → Pkg) (p : Pkg) : Pkg :=
  let r := updateReason p
  if r == 0 then f p
  else finishWith c op stRefusedState t (le 4 r) (onUpdate (fun u => { u with reason := w32 r }) p)

/-- An activation, its health window, or a fallback is running. -/
def updateBusy (p : Pkg) : Bool :=
  match p.sh.update.state with
  | .activating | .window | .fallingBack | .restoring => true
  | _ => false

/-- The negatives of every tile take a state. -/
def setNegatives (s : NegState) (p : Pkg) : Pkg := onTiles (fun _ tl => { tl with images := { tl.images with negState := s } }) p

/-- UPDATE_DATA commands, and an UPDATE_END behind them, whose download is gone complete BAD_STATE. -/
def dropWrites (t : Nat) (p : Pkg) : Pkg :=
  forAll p.sh.update.ending.toList (fun w => finish w.1 0xC2 stBadState t)
    (forAll p.sh.update.writing (fun w => finish w.1 0xC1 stBadState t)
      (onUpdate (fun u => { u with writing := [], ending := none }) p))

/-- UPDATE_BEGIN (R457): the erase of every negative starts. -/
def updateBegin (c : Ctx) (t len : Nat) (hdr : List Byte) (p : Pkg) : Pkg :=
  if updateBusy p then finish c 0xC0 stBadState t p
  else if !headerForm hdr || ihLength hdr != len || !mapForm hdr then finish c 0xC0 stBadParam t p
  else withFlash c 0xC0 t ((List.range p.n).filter (online p)) (fun q =>
    let q1 := match q.sh.update.erasing with
      | some (c0, _) => finish c0 0xC0 stBadState t q
      | none => q
    onUpdate (fun u => { u with state := .idle, erasing := some (c, hdr), image := [], received := 0, length := 0, tilesNew := 0 })
      (setNegatives .empty (dropWrites t q1))) p

/-- The erase of every negative has finished, and the header is in the slot of every tile in service (R457). -/
def negativeErased (p : Pkg) : Pkg :=
  match p.sh.update.erasing with
  | none => p
  | some (c, hdr) =>
    finish c 0xC0 stOk p.lead (onTiles (fun t tl => if online p t then { tl with images := { tl.images with
        neg := imageOf hdr, negState := .downloading } } else tl)
      (onUpdate (fun u => { u with state := .downloading, erasing := none, image := hdr, received := hdr.length
                                   length := w32 (ihLength hdr), rejectTile := 0xFF }) p))

/-- UPDATE_DATA (R131, R458). -/
def updateData (c : Ctx) (t off : Nat) (data : List Byte) (p : Pkg) : Pkg :=
  let u := p.sh.update
  if u.state != .downloading then finish c 0xC1 stBadState t p
  else if off != u.received || u.length.toNat < off + data.length then finish c 0xC1 stBadParam t p
  else
    let tiles := (List.range p.n).filter (fun k => online p k && (p.tile k).images.negState == .downloading)
    withFlash c 0xC1 t ((List.range p.n).filter (online p)) (fun q => onUpdate (fun u => { u with
      image := u.image ++ data, received := u.received + data.length
      writing := u.writing ++ [(c, u.received, tiles)] }) q) p

/-- The download is checked and staged on every tile that holds it, once its chunks are written (R459, R472). -/
def endDownload (p : Pkg) : Pkg :=
  match p.sh.update.ending with
  | none => p
  | some (c, crc) =>
    let t := p.lead
    let p1 := onUpdate (fun u => { u with ending := none }) p
    if !p.sh.update.writing.isEmpty then p
    else if deniedNow p t 0xC2 c then denyCommit t 0xC2 c p1
    else withFlash c 0xC2 t ((List.range p.n).filter (online p)) (fun q =>
      let image := q.sh.update.image
      if crc32c image != crc then
        finish c 0xC2 stBadCheck t (setNegatives .empty (onUpdate (fun u => { u with state := .idle, image := [] }) q))
      else
        let q1 := onTiles (fun _ tl => if tl.images.negState == .downloading then
          { tl with images := { tl.images with neg := imageOf image, negState := .staged } } else tl) q
        finish c 0xC2 stOk t (raiseAll 87 (onUpdate (fun u => { u with state := .staged }) q1))) p1

/-- UPDATE_END (R131, R459): it acts when the chunks before it are written. -/
def updateEnd (c : Ctx) (t : Nat) (crc : Word) (p : Pkg) : Pkg :=
  let u := p.sh.update
  if u.state != .downloading || u.received < u.length.toNat || u.ending.isSome then finish c 0xC2 stBadState t p
  else endDownload (onUpdate (fun u => { u with ending := some (c, crc) }) p)

/-- Writes of download chunks that every tile has made complete OK (R458), and an UPDATE_END behind the last acts (R459). -/
def finishWrites (p : Pkg) : Pkg :=
  endDownload (forAll (p.sh.update.writing.filter (fun w => w.2.2.isEmpty)) (fun w => finish w.1 0xC1 stOk p.lead)
    (onUpdate (fun u => { u with writing := u.writing.filter (fun w => !w.2.2.isEmpty) }) p))

/-- Tile `t` has written the oldest chunk it still had to write. -/
def chunkWritten (t : Nat) (p : Pkg) : Pkg :=
  match p.sh.update.writing.findIdx? (fun w => w.2.2.contains t) with
  | none => p
  | some i => finishWrites (onUpdate (fun u => { u with
      writing := u.writing.mapIdx (fun j w => if j == i then (w.1, w.2.1, w.2.2.filter (· != t)) else w) }) p)

/-- A tile that leaves service during a download has an empty negative, and no chunk waits for it. -/
def dropWriter (t : Nat) (p : Pkg) : Pkg :=
  finishWrites (onUpdate (fun u => { u with writing := u.writing.map (fun w => (w.1, w.2.1, w.2.2.filter (· != t))) })
    (onImages t (fun s => if s.negState == .downloading then { s with negState := .empty } else s) p))

/-- The chunk that tile `t` is writing, the oldest it still has to write. -/
def chunkUnderWay (t : Nat) (p : Pkg) : Option (Ctx × Nat × List Nat) := p.sh.update.writing.find? (fun w => w.2.2.contains t)

/-- The stop-bath threshold ends the chunks that a tile has not written, all but `keep`, and an UPDATE_END behind them: SUPPLY_LOW
(R361). The download stands where the first of them began. -/
def lowWrites (t : Nat) (keep : Option (Ctx × Nat × List Nat)) (p : Pkg) : Pkg :=
  let mine (w : Ctx × Nat × List Nat) : Bool := w.2.2.contains t && keep != some w
  let lost := p.sh.update.writing.filter mine
  if lost.isEmpty then p
  else
    forAll p.sh.update.ending.toList (fun w => finish w.1 0xC2 stSupplyLow p.lead)
      (forAll lost (fun w => finish w.1 0xC1 stSupplyLow p.lead)
        (onUpdate (fun u =>
          let at_ := (lost.map (·.2.1)).foldl Nat.min u.received
          { u with writing := u.writing.filter (fun w => !mine w), ending := none, received := at_, image := u.image.take at_ }) p))

/-- The tiles of an activation, in their order (R461). -/
def activationOrder (p : Pkg) : List Nat :=
  (List.range p.n).drop 2 ++ [1 - p.lead % 2, p.lead]

/-- A tile stops to restart into the other image (R461, R462, R464). -/
def restartInto (t : Nat) (new : Bool) (p : Pkg) : Pkg :=
  let p1 := onImages t (swapRoles (if new then .retained else .rejected)) (leaveService t .holding p)
  onUpdate (fun u => { u with busy := some t, order := u.order.filter (· != t), retryAt := none, tries := 0
                              tilesNew := setBits u.tilesNew t t (b2n new) }) p1

/-- The direction of the restarts under way: into the new image, or back. -/
def intoNew (p : Pkg) : Bool := p.sh.update.state == .activating

/-- A handover starts (R20): the old lead takes no more submissions. -/
def startHandover (c : Option Ctx) (p : Pkg) : Pkg := onShared (fun s => { s with handover := some { ctx := c, startAt := p.now } }) p

/-- A handover of the activation was refused (R461): it is tried twice more, then the lead restarts without one. -/
def handoverFailed (p : Pkg) : Pkg :=
  if p.sh.update.tries ≥ 2 then restartInto p.lead (intoNew p) p
  else onUpdate (fun u => { u with tries := u.tries + 1, retryAt := some (p.now + 10 * msTicks) }) p

/-- The handover of an activation or fallback begins, or fails at once where the other tile is not online. -/
def updateHandover (p : Pkg) : Pkg := if online p (1 - p.lead % 2) then startHandover none p else handoverFailed p

/-- The last tile of an activation is online: ACTIVATE completes OK and the health window opens (R461, R463). -/
def openWindow2 (p : Pkg) : Pkg :=
  let u := p.sh.update
  let p1 := match u.ctx with
    | some c => finish c 0xC3 stOk p.lead p
    | none => p
  raise p.lead 89 (onUpdate (fun u => { u with state := .window, ctx := none, fixed := false, windowStart := p.now
                                               faulted := false, overrunAt := none
                                               windowEnd := p.now + u.windowSecs * secTicks }) p1)

/-- The last tile of a fallback is online (R462, R464): a rejected activation completes as its rejection was. -/
def fallbackDone (p : Pkg) : Pkg :=
  let u := p.sh.update
  let p1 := match u.ctx with
    | some c => finish c 0xC3 (if u.result == 2 then stBadCheck else stBadParam) p.lead p
    | none => p
  onUpdate (fun u => { u with state := .idle, ctx := none }) p1

/-- A fallback recovery ends when the last tile of the package is online in the retained image (R506). -/
def recoveryEnds (p : Pkg) : Pkg :=
  let back := p.sh.update.state == .fallingBack || p.sh.update.state == .restoring
  if p.sh.update.recovery && !back && (List.range p.n).all (online p) then onUpdate (fun u => { u with recovery := false }) p else p

/-- No tile is left to restart (R461 to R464). -/
def restartsDone (p : Pkg) : Pkg :=
  match p.sh.update.state with
  | .activating => openWindow2 p
  | .fallingBack | .restoring => fallbackDone p
  | _ => p

/-- The next tile of an activation or fallback is restarted; the lead hands over first (R461, R462, R464). A tile that is cut off
until package reset (R17) is passed by. -/
def nextTileFrom : List Nat → Pkg → Pkg
  | [], p => restartsDone p
  | t :: rest, p =>
    if cutOff p t then nextTileFrom rest (onUpdate (fun u => { u with order := rest }) p)
    else if t == p.lead then updateHandover p
    else restartInto t (intoNew p) p
def nextTile (p : Pkg) : Pkg := if p.sh.update.order.isEmpty then p else nextTileFrom p.sh.update.order p

/-- ACTIVATE (R131, R461). -/
def activate (c : Ctx) (t conf window : Nat) (p : Pkg) : Pkg :=
  if conf > 1 || window < 60 || 3600 < window then finish c 0xC3 stBadParam t p
  else if updateBusy p || anyTile p (fun u tl => !online p u || tl.images.negState != .staged) then finish c 0xC3 stBadState t p
  else
    nextTile (accept c 0xC3 t (onUpdate (fun u => { u with
      state := .activating, ctx := some c, order := activationOrder p, confirmHost := conf == 1, windowSecs := window
      rejectTile := 0xFF, fixed := false, tries := 0, retryAt := none, busy := none }) p))

/-- A tile is online (R461 to R464): one that an update restarted into the retained image raises event 88; with the last one the
restarts are done. -/
def updateOnline (t : Nat) (p : Pkg) : Pkg :=
  let u := p.sh.update
  let p1 := if u.busy != some t then p
    else onUpdate (fun u => { u with busy := none, onlineAt := p.now }) (if u.state == .fallingBack then raise t 88 p else p)
  if u.order.isEmpty && p1.sh.update.busy.isNone then restartsDone p1 else p1

/-- A tile rejects its new image at boot (R462): it runs the retained one, the image is rejected on every tile, and the
tiles already restarted go back in reverse order. -/
def rejectImage (t verdict : Nat) (p : Pkg) : Pkg :=
  let ran := (activationOrder p).filter (fun k => k != t && bit p.sh.update.tilesNew k)
  let p1 := onTiles (fun k tl => if k == t then { tl with images := swapRoles .rejected tl.images }
    else if tl.images.negState == .staged then { tl with images := { tl.images with negState := .rejected } } else tl) p
  onUpdate (fun u => { u with result := verdict, rejectTile := BitVec.ofNat 8 t, order := ran.reverse, busy := none
                              state := .restoring, onlineAt := p.now, tilesNew := setBits u.tilesNew t t 0 }) p1

/-- Some self condition of the health window has failed at tick `at_` (R463): event 127 since it opened, or an overrun in
its final 300 s. -/
def windowFailing (p : Pkg) (at_ : Nat) : Bool :=
  let u := p.sh.update
  let from_ := Nat.max u.windowStart (u.windowEnd - 300 * secTicks)
  let late (x : Option Nat) : Bool := from_ ≤ at_ && x.any (from_ ≤ ·)
  u.faulted || late u.overrunAt
    || anyTile p (fun _ tl => (lastRaise tl 127).any (u.windowStart ≤ ·) || late (lastOverrun tl))

/-- The health window ends (R463, R464): confirmation, or fallback of every tile that runs the image on trial; one that fell back
at a reset already runs the retained one. -/
def endWindow2 (p : Pkg) : Pkg :=
  let u := p.sh.update
  let good := !windowFailing p p.now && !anyTile p (fun t _ => !online p t) && (!u.confirmHost || u.fixed)
  if good then onUpdate (fun u => { u with state := .idle, result := 1, tilesNew := 0 }) p
  else
    let order := (activationOrder p).filter (bit u.tilesNew)
    nextTileFrom order (onUpdate (fun u => { u with state := .fallingBack, result := 4, order := order, busy := none
                                                    tries := 0, retryAt := none }) p)

/-- The version of the negative, 0 when it is empty (R468). -/
def negVersion (s : Slots) : Word := if s.negState == .empty then 0 else s.neg.version

/-- The update status record (R468): a tile runs an image while it is online, and the bits of byte 18 are those of a window that is
open. -/
def updateRecord (p : Pkg) : List Byte :=
  let u := p.sh.update
  let s := (p.tile p.lead).images
  let inWindow := u.state == .window
  let runs := (List.range p.n).foldl (fun a t => a + 2 ^ t * b2n (bit u.tilesNew t && online p t)) 0
  let len := if u.state == .downloading || u.state == .staged then u.length.toNat else 0
  let left := if inWindow then (u.windowEnd - p.now + secTicks - 1) / secTicks else 0
  le 1 u.state.code ++ le 1 u.result ++ le 1 runs ++ le 1 u.rejectTile.toNat ++ le 4 u.received ++ le 4 len
    ++ le 4 (negVersion s).toNat ++ le 2 left
    ++ le 2 (b2n (inWindow && u.confirmHost) + 2 * b2n (inWindow && u.fixed) + 4 * b2n (inWindow && windowFailing p p.now))
    ++ le 4 s.print.version.toNat ++ le 4 (negVersion s).toNat ++ le 4 u.reason.toNat

/-- A package reset ends a download, an activation and a health window (R459, R465). -/
def updateReset (u : Update) : Update :=
  let busy := u.state == .activating || u.state == .window || u.state == .fallingBack || u.state == .restoring
  { u with state := if u.state == .staged then .staged else .idle
           result := if busy then 5 else u.result
           tilesNew := 0, erasing := none, writing := [], ending := none, ctx := none, order := [], busy := none, retryAt := none
           received := if u.state == .staged then u.received else 0
           image := if u.state == .staged then u.image else [] }

/-- The negative of a tile after a package reset (R459, R465): a download is gone, an image under trial rejected. -/
def negReset (trial busy : Bool) (s : Slots) : Slots :=
  if trial then swapRoles .rejected s
  else if s.negState == .downloading then { s with negState := .empty }
  else if busy && s.negState == .staged then { s with negState := .rejected }
  else s

end Sys2Proof.Machine
end

