-- ==== Sys2Proof/Machine/Flags.lean ====
section
/-!
DEFINITION. The status words of the package: IDENT, HEALTH and the tile masks (R85, R116).
-/

namespace Sys2Proof.Machine

/-- The IDENT word: layout version 1, tile count, silicon revision B (R85). -/
def identWord (p : Pkg) : Nat := 0x01000000 + 65536 * p.n + 256 * 0x42

/-- A mask of the own tiles that `f` selects, in the numbering of handles (R6, R85). -/
def ownMask (p : Pkg) (f : Nat → Bool) : Nat :=
  (List.range p.n).foldl (fun a t => if f t then a + 2 ^ ownNo p t else a) 0

/-- The place of the other package in a tile mask. -/
def farShift (p : Pkg) : Nat := if isFar p then 1 else 256

/-- TILES_PRESENT (R85). -/
def tilesPresent (p : Pkg) : Nat :=
  ownMask p (fun _ => true) + (if p.sh.tether.status.farSeen then farShift p * (2 ^ p.sh.tether.status.farTiles - 1) else 0)

/-- TILES_ONLINE (R85). -/
def tilesOnline (p : Pkg) : Nat := ownMask p (online p) + farShift p * p.sh.tether.status.farOnline.toNat

/-- A tile is in safelight awaiting tables (R267, R366). -/
def awaitsTables (p : Pkg) (t : Nat) : Bool := online p t && !sealedTile p t

/-- An image is staged in the negative slot (R453). -/
def imageStaged (p : Pkg) : Bool := anyTile p (fun _ tl => tl.images.negState == .staged)

/-- The HEALTH word (R85), with its bits of the host port. -/
def healthWord (hp : HostPort) (p : Pkg) : Nat :=
  let te := p.sh.tether.state
  b2n p.sh.permits.health + 2 * b2n (tilesPresent p == tilesOnline p) + 4 * b2n hp.absent + 8 * b2n hp.rings.halted
    + 16 * b2n (!hp.rings.held.isEmpty) + 32 * b2n (te == .up) + 64 * b2n (te == .suspect || te == .lost)
    + 128 * b2n (p.tile p.lead).entropy.ready + 256 * b2n ((List.range p.n).any (awaitsTables p)) + 512 * b2n (imageStaged p)
    + 1024 * b2n (p.sh.update.state == .window || p.sh.update.state == .fallingBack) + 2048 * b2n (p.tile p.lead).supply.powerFail + 4096 * b2n (p.tile p.lead).supply.stopBath + 8192 * b2n p.sh.service.attached + 16384 * b2n (ownerLocked p)
    + 32768 * b2n (serviceHold p)

/-- A version in the FIRMWARE format (R85): its low half is reserved. -/
def firmwareWord (v : Word) : Nat := v.toNat / 65536 * 65536

/-- The identity record (R116). -/
def identityBytes (p : Pkg) (t : Nat) : List Byte :=
  let tl := p.tile t
  let neg := if tl.images.negState == .empty then 0 else firmwareWord tl.images.neg.version
  le 4 (identWord p) ++ le 8 p.ident.unitId.toNat ++ le 4 (firmwareWord tl.images.print.version) ++ le 4 neg
    ++ le 1 tl.boot.incarnation.toNat ++ le 1 p.ident.grade.toNat ++ le 2 (tilesPresent p)

/-- The health record (R116). -/
def healthBytes (hp : HostPort) (p : Pkg) (t : Nat) : List Byte :=
  let tl := p.tile t
  le 4 (healthWord hp p) ++ le 2 (tilesOnline p) ++ le 1 tl.boot.state.code ++ le 1 tl.boot.incarnation.toNat
    ++ le 4 tl.gov.overrides.toNat ++ le 4 tl.gov.vcore.toNat ++ le 4 (lowestSlack p.now tl) ++ le 4 tl.boot.faultCode.toNat

end Sys2Proof.Machine
end

