-- ==== Sys2Proof/Machine/CmdSystem.lean ====
section
/-!
DEFINITION. The system and diagnostic commands (R20, R56, R72, R110, R116 to R118, R132, R160, R161, R264): NOP, IDENTIFY,
TILE_STATE, LEAD_HANDOVER, HEALTH, TIME_SET, GOVERNOR, SAFELIGHT_LOAD, PERMIT_CONFIG, SELF_TEST, FABRIC_PROBE, and
SELF_TEST_COMPLETE.
-/

namespace Sys2Proof.Machine

/-- NOP (R116). -/
def execNop (c : Ctx) : State → Host.Outcome State Fault Refusal :=
  lift (command (.nop c) (fun t p => finish c 0x00 stOk t p))

/-- IDENTIFY (R116). -/
def execIdentify (c : Ctx) : State → Host.Outcome State Fault Refusal :=
  lift (command (.identify c) (fun t p => reply c 0x01 t (identityBytes p t) p))

/-- TILE_STATE action 1 (R42, R117): Offline now, OK at the offline mark. -/
def takeOffline (c : Ctx) (t : Nat) (p : Pkg) : Pkg :=
  let b := (p.tile t).boot
  if b.state == .offline && !b.marking then tileStateDone t (standIn p t) c p
  else
    let p1 := onBoot t (fun x => { x with restartFor := [], resetting := false })
      (if b.state == .offline then p else leaveService t .offline p)
    let p2 := forAll b.restartFor (fun d => finish d 0x02 stTileOffline (standIn p t)) p1
    if (p2.tile t).boot.marking then onBoot t (fun x => { x with offlineFor := x.offlineFor ++ [c] }) p2
    else tileStateDone t (standIn p t) c p2

/-- TILE_STATE action 2 (R42, R51, R117): the tile restarts from any state. -/
def restartTile (c : Ctx) (t : Nat) (p : Pkg) : Pkg :=
  let b := (p.tile t).boot
  let p1 := onBoot t (fun x => { x with restartFor := x.restartFor ++ [c] }) (accept c 0x02 (standIn p t) p)
  match b.state with
  | .online => leaveService t .holding p1
  | .offline => beginRestart t (forceMark t p1)
  | _ => p1

/-- TILE_STATE (R42, R117). -/
def execTileState (c : Ctx) (action ei : Byte) (rsv : BitVec 16) : State → Host.Outcome State Fault Refusal :=
  lift (command (.tileState c action ei rsv) (fun t p =>
    if action.toNat > 2 then finish c 0x02 stBadParam t p
    else if action == 0 then
      reply c 0x02 t (tileStateBytes p t) p
    else if t == p.lead then finish c 0x02 stRefusedState t p
    else if action == 1 then takeOffline c t p
    else restartTile c t p))

/-- LEAD_HANDOVER (R20). -/
def execLeadHandover (c : Ctx) : State → Host.Outcome State Fault Refusal :=
  lift (command (.leadHandover c) (fun t p =>
    if !online p (1 - p.lead % 2) || p.sh.handover.isSome then finish c 0x03 stRefusedState t p
    else startHandover (some c) p))

/-- HEALTH (R85, R116). -/
def execHealth (c : Ctx) (s : State) : Host.Outcome State Fault Refusal :=
  lift (command (.health c) (fun t p => reply c 0x04 t (healthBytes s.hp p t) p)) s

/-- TIME_SET (R56, R118, R262): the clock takes its value and the calendars are evaluated. -/
def execTimeSet (c : Ctx) (secs : Word) : State → Host.Outcome State Fault Refusal :=
  lift (command (.timeSet c secs) (fun t p =>
    let p1 := onShared (fun s => { s with rtc := { secs := secs, valid := true, sub := 0 } }) p
    finish c 0x05 stOk t (forAll ((List.range p.n).filter (online p)) runCalendars p1)))

/-- The reply of GOVERNOR (R116). -/
def governorBytes (g : Governor) : List Byte :=
  le 2 g.ceil.toNat ++ le 2 g.floor.toNat ++ le 2 g.slackFloor.toNat ++ le 2 g.vcore.toNat ++ le 4 g.overrides.toNat

/-- GOVERNOR (R72, R118). -/
def execGovernor (c : Ctx) (ceil floor slack : BitVec 16) (flags rsv : Byte) : State → Host.Outcome State Fault Refusal :=
  lift (command (.governor c ceil floor slack flags rsv) (fun t p =>
    if flags.getLsbD 0 then reply c 0x06 t (governorBytes (p.tile t).gov) p
    else if !govOk ceil floor slack then finish c 0x06 stBadParam t p
    else
      let p1 := setGovernor t ceil floor slack p
      reply c 0x06 t (governorBytes (p1.tile t).gov) p1))

/-- A channel that is in Safelight takes its new entry, through the break of R158 if its mode changes (R160). -/
def newSafeEntry (now : Nat) (e : BitVec 128) (c : Chan) : Chan :=
  if c.out != .safelight then c
  else
    let breaks := bits c.safe 7 0 != bits e 7 0
    { c with safe := e, drive := if breaks then c.drive.breakAt now else c.drive }

/-- Entries of the safelight table are written, with their CRC: after a failure only once all 32 are (R160, R161), and while a
TAP instruction holds the channels in Off none leaves it (R529). -/
def safelightWrite (t first : Nat) (es : List (BitVec 128)) (p : Pkg) : Pkg :=
  let cs := (List.range es.length).map (first + ·)
  let p1 := onTile t (fun tl => { tl with
    flash := { tl.flash with safelight := (cs.zip es).foldl (fun a x => a.set x.1 x.2) tl.flash.safelight }
    boot := { tl.boot with safeSeen := cs.foldl (fun a k => a ||| (1#32 <<< k)) tl.boot.safeSeen } }) p
  let p2 := forAll cs (fun k => onChan t k (newSafeEntry p.now (safeEntry (p1.tile t) k)))
    (onTile t (fun tl =>
      if tl.boot.safeBad && tl.boot.safeSeen != BitVec.allOnes 32 then tl
      else { tl with flash := { tl.flash with safeCrc := safeCrcOf tl } }) p1)
  let b := (p2.tile t).boot
  if b.safeBad && b.safeSeen == BitVec.allOnes 32 then
    let p3 := onBoot t (fun x => { x with safeBad := false }) p2
    if tapForces b.tap then p3 else settleChans t (chansToSafelight t p3)
  else p2

/-- SAFELIGHT_LOAD (R160, R161). -/
def execSafelightLoad (c : Ctx) (first count : Byte) (rsv : BitVec 16) (entries : List (BitVec 128)) :
    State → Host.Outcome State Fault Refusal :=
  lift (command (.safelightLoad c first count rsv entries) (fun t p =>
    if count == 0 || first.toNat + count.toNat > 32 || !entries.all safeEntryOk then finish c 0x07 stBadParam t p
    else withFlash c 0x07 t [t] (fun q => finish c 0x07 stOk t (safelightWrite t first.toNat entries q)) p))

/-- The predicate is defined by the active permit table (R264). -/
def predDefined (p : Pkg) (i : Nat) : Bool :=
  let b := (p.tile p.lead).table 3 32
  !b.isEmpty && i < pmPreds b

/-- PERMIT_CONFIG (R264). A permit that is not enabled is static low. -/
def execPermitConfig (c : Ctx) (permit enable : Byte) (pred : BitVec 16) : State → Host.Outcome State Fault Refusal :=
  lift (command (.permitConfig c permit enable pred) (fun t p =>
    if permit.toNat > 3 || pred.toNat > 15 then finish c 0x08 stBadHandle t p
    else if enable.toNat > 1 then finish c 0x08 stBadParam t p
    else if !predDefined p pred.toNat then finish c 0x08 stBadHandle t p
    else withFlash c 0x08 t (onlinePair p) (fun q =>
      finish c 0x08 stOk t (onShared (fun s => { s with permits := { s.permits with
        permits := s.permits.permits.modify permit.toNat Permit.reset (fun x =>
          { x with enabled := enable == 1, pred := pred, permitted := x.permitted && enable == 1, high := x.high && enable == 1 }) } })
        (writeSettings (fun s => { s with permits := s.permits.set permit.toNat { enabled := enable == 1, pred := pred } }) q))) p))

/-- The self tests of a tile changed by `f`. The converter test interrupts the sequences, which go on after the last of its kind as
they do after a restart (R132, R190). -/
def onTests (t : Nat) (f : List (Ctx × Word) → List (Ctx × Word)) (p : Pkg) : Pkg :=
  let noted (q : Pkg) : Pkg := onTile t (fun tl => { tl with counters := { tl.counters with tests := f tl.counters.tests } }) q
  let after := testing 2 ((noted p).tile t)
  if testing 2 (p.tile t) == after then noted p
  else onTile t (if after then stopConverters p.now else resumeConverters p.now) (noted (catchUp t p.now p))

/-- SELF_TEST (R132): the tests run until SELF_TEST_COMPLETE. -/
def execSelfTest (c : Ctx) (mask : Word) : State → Host.Outcome State Fault Refusal :=
  lift (command (.selfTest c mask) (fun t p =>
    if bits mask 31 5 != 0 then finish c 0xF0 stBadParam t p
    else if (mask.getLsbD 2 || mask.getLsbD 3) && permitActive p then finish c 0xF0 stRefusedState t p
    else accept c 0xF0 t (onTests t (· ++ [(c, mask)]) p)))

/-- SELF_TEST_COMPLETE (R129): the first test under way passes but for `failMask`. -/
def execSelfTestComplete (tile : TileId) (failMask : Word) : State → Host.Outcome State Fault Refusal :=
  liftTile tile (fun t p =>
    match (p.tile t).counters.tests with
    | [] => p
    | (c, mask) :: rest =>
      reply c 0xF0 t (le 4 (mask &&& ~~~failMask).toNat ++ le 4 (mask &&& failMask).toNat)
        (onTests t (fun _ => rest) p))

/-- FABRIC_PROBE (R129, R132): its repeats go out one after another. -/
def execFabricProbe (c : Ctx) (dest repeats : Byte) (rsv : BitVec 16) : State → Host.Outcome State Fault Refusal :=
  lift (command (.fabricProbe c dest repeats rsv) (fun t p =>
    if dest.toNat > 15 || repeats == 0 || ((localOf p dest.toNat).isNone && !farPresent p dest.toNat) then finish c 0xF1 stBadParam t p
    else
      issue t dest.toNat c.cls.toNat (.probe t) .probe (p.now + 1000 * msTicks)
        (onTile t (fun tl => { tl with fabric := { tl.fabric with
          probes := tl.fabric.probes ++ [{ ctx := c, req := tl.fabric.nextId, dest := dest.toNat, left := repeats.toNat }] } }) p)))

end Sys2Proof.Machine
end

