-- ==== Sys2Proof/Machine/CmdTables.lean ====
section
/-!
DEFINITION. The table family (R121, R122, R231 to R259): TABLE_LOAD, TABLE_COMMIT, TABLE_READ, MACHINE_CONTROL.
-/

namespace Sys2Proof.Machine

/-- TABLE_LOAD (R234). -/
def execTableLoad (c : Ctx) (kind rsv : Byte) (idx : BitVec 16) (off : Word) (chunk : List Byte) :
    State → Host.Outcome State Fault Refusal :=
  lift (command (.tableLoad c kind rsv idx off chunk) (fun t p => tableLoad c t kind.toNat idx.toNat off.toNat chunk p))

/-- TABLE_COMMIT (R235). -/
def execTableCommit (c : Ctx) (kind rsv : Byte) (idx : BitVec 16) (len crc : Word) : State → Host.Outcome State Fault Refusal :=
  lift (command (.tableCommit c kind rsv idx len crc) (fun t p =>
    tableCommit c t kind.toNat idx.toNat len.toNat crc.toNat p))

/-- TABLE_READ (R122). -/
def execTableRead (c : Ctx) (kind copy : Byte) (idx : BitVec 16) (off len : Word) : State → Host.Outcome State Fault Refusal :=
  lift (command (.tableRead c kind copy idx off len) (fun t p =>
    tableRead c t kind.toNat copy.toNat idx.toNat off.toNat len.toNat p))

/-- MACHINE_CONTROL (R259, R534): at the next boundary of the machine's group, or at once where that is not enabled. -/
def execMachineControl (c : Ctx) (m : BitVec 16) (action ei : Byte) : State → Host.Outcome State Fault Refusal :=
  lift (command (.machineControl c m action ei) (fun t p =>
    let tl := p.tile t
    let x := tl.machine m.toNat
    if m.toNat > 255 then finish c 0x43 stBadHandle t p
    else if action.toNat > 2 then finish c 0x43 stBadParam t p
    else if x.image.isEmpty then finish c 0x43 stBadHandle t p
    else if !(tl.group (machineGroup x.image)).enabled then machineControl t m.toNat c action.toNat p
    else onMach t m.toNat (fun y => { y with ctl := y.ctl ++ [(c, action)] }) p))

end Sys2Proof.Machine
end

