-- ==== Sys2Proof/Machine/TimeStep.lean ====
section
/-!
DEFINITION. The forward step of the timebase at a rejoin (R421): package time moves on by `k` ticks, and what measures
elapsed time moves with it, so that the step counts as no elapsed time.
-/

namespace Sys2Proof.Machine

/-- The instants of a channel (R43, R140 to R158). -/
def Chan.shift (k : Nat) (c : Chan) : Chan :=
  { c with
    holdUntil := c.holdUntil + k
    drive := { c.drive with cmpAt := c.drive.cmpAt + k, breaks := c.drive.breaks.map (· + k), modeAt := c.drive.modeAt + k
                            pulseAt := c.drive.pulseAt.map (· + k) }
    prot := { c.prot with blankUntil := c.prot.blankUntil + k, isolatedAt := c.prot.isolatedAt + k, tripAt := c.prot.tripAt + k
                          startAt := c.prot.startAt + k, onAt := c.prot.onAt + k } }

/-- The instants of a converter (R166, R173). -/
def Adc.shift (k : Nat) (a : Adc) : Adc :=
  { a with reg := { a.reg with entryAt := a.reg.entryAt + k }, inj := { a.inj with entryAt := a.inj.entryAt + k }
           refs := a.refs.map (fun q => (q.1 + k, q.2))
           ended := a.ended.map (fun x => { x with began := x.began + k, last := x.last + k }) }

/-- The instants of a rate group: a deadline that the step passes over lies at the next boundary (R421). -/
def Group.shift (k now : Nat) (g : Group) : Group :=
  let a := g.latchedAt + k
  { g with latchedAt := if g.working && nextMultiple g.period (a + 1) < now + k then now + k - 1 else a
           readyAt := g.readyAt + k
           slacks := g.slacks.map (fun q => (q.1 + k, q.2)) }

/-- The instants of a governor (R70, R71). -/
def Governor.shift (k : Nat) (g : Governor) : Governor :=
  { g with lastRaise := g.lastRaise.map (· + k), lastStep := g.lastStep.map (· + k), settleAt := g.settleAt + k }

/-- The instants of a machine (R251, R253). -/
def MachineSt.shift (k : Nat) (m : MachineSt) : MachineSt :=
  { m with stateAt := m.stateAt + k, latchedAt := m.latchedAt + k }

/-- The instants of a detect window (R306). -/
def Window.shift (k : Nat) (w : Window) : Window :=
  { w with askedAt := w.askedAt + k, endAt := w.endAt + k, openAt := w.openAt + k, tPeak := w.tPeak + k }

/-- The instants of a profile engine (R303 to R308). -/
def Engine.shift (k : Nat) (e : Engine) : Engine :=
  { e with startAt := e.startAt + k, shutterEnd := e.shutterEnd + k
           run := { e.run with endAt := e.run.endAt + k, tOn := e.run.tOn + k, tOff := e.run.tOff + k
                               window := e.run.window.map (Window.shift k) } }

/-- The instants of a tracker (R318 to R322). -/
def Tracker.shift (k : Nat) (x : Tracker) : Tracker :=
  { x with teeth := { x.teeth with lastEdge := x.teeth.lastEdge.map (· + k), edgeAt := x.teeth.edgeAt.map (· + k), lastReal := x.teeth.lastReal + k
                                   last := x.teeth.last + k }
           firings := x.firings.map (fun f => { f with at_ := f.at_ + k }) }

/-- The instants of a stepper (R331, R336). -/
def Stepper.shift (k : Nat) (x : Stepper) : Stepper := { x with nextAt := x.nextAt + k, holdAt := x.holdAt.map (· + k) }

/-- The instants of a fan unit (R343 to R349). -/
def Fan.shift (k : Nat) (f : Fan) : Fan :=
  { f with edges := f.edges.map (· + k), samples := f.samples.map (fun q => (q.1 + k, q.2)), until_ := f.until_ + k
           lostAt := f.lostAt.map (· + k), goodSince := f.goodSince.map (· + k), agedAt := f.agedAt + k
           countedAt := f.countedAt + k
           capture := f.capture.map (fun c => { c with levelEnd := c.levelEnd + k }) }

/-- The instants of the fabric of a tile (R38, R61). -/
def Fabric.shift (k : Nat) (f : Fabric) : Fabric :=
  { f with queue := f.queue.map (fun w => { w with limit := w.limit + k })
           out := f.out.map (fun o => { o with sentAt := o.sentAt + k, limit := o.limit + k }) }

/-- The instants of a tile. Each ring writes an anchor before its next entry (R388). -/
def Tile.shift (k now : Nat) (tl : Tile) : Tile :=
  { tl with
    boot := { tl.boot with bootAt := tl.boot.bootAt + k }
    fabric := tl.fabric.shift k
    budgetAt := tl.budgetAt.mapVals (fun _ x => x + k)
    loopFree := tl.loopFree + k
    tableFree := tl.tableFree + k
    events := { tl.events with ringAt := tl.events.ringAt.mapVals (fun _ x => x + k) }
    rings := { tl.rings with rings := tl.rings.rings.mapVals (fun _ r => { r with anchor := true })
                             queuedAt := tl.rings.queuedAt + k
                             waits := tl.rings.waits.map (fun w => { w with limit := w.limit + k }) }
    chans := tl.chans.mapVals (fun _ c => c.shift k)
    conv := { tl.conv with a := tl.conv.a.shift k, b := tl.conv.b.shift k, enabledAt := tl.conv.enabledAt + k,
                            lostRefio := tl.conv.lostRefio + k, lostVana := tl.conv.lostVana + k }
    groups := tl.groups.mapVals (fun _ g => g.shift k now)
    gov := tl.gov.shift k
    machines := tl.machines.mapVals (fun _ m => m.shift k)
    engines := tl.engines.mapVals (fun _ e => e.shift k)
    trackers := tl.trackers.mapVals (fun _ x => x.shift k)
    steppers := tl.steppers.mapVals (fun _ x => x.shift k)
    fans := tl.fans.mapVals (fun _ x => x.shift k)
    entropy := { tl.entropy with failures := tl.entropy.failures.map (· + k)
                                 waits := tl.entropy.waits.map (fun w => { w with until_ := w.until_ + k }) } }

/-- The instants of an RS-485 port (R431, R437, R440, R444). -/
def RsState.shift (k : Nat) (r : RsState) : RsState :=
  { r with status := { r.status with errAt := r.status.errAt.map (· + k) }
           reply := r.reply.map (fun q => (q.1, q.2 + k))
           mstp := { r.mstp with until_ := r.mstp.until_.map (· + k) }
           serving := r.serving.map (fun x => { x with until_ := x.until_ + k })
           polling := r.polling.map (fun x => { x with deadline := x.deadline.map (· + k) }) }

/-- The instants of a key or encoder (R494, R495). -/
def Keys.shift (k : Nat) (x : Keys) : Keys :=
  { x with pressedAt := x.pressedAt.mapVals (fun _ a => a + k)
           enc0 := { x.enc0 with atA := x.enc0.atA + k, atB := x.enc0.atB + k }
           enc1 := { x.enc1 with atA := x.enc1.atA + k, atB := x.enc1.atB + k } }

/-- The instants of the tether's session (R416, R421, R422). -/
def Session.shift (k : Nat) (s : Session) : Session :=
  { s with helloAt := s.helloAt.map (· + k), lastValidAt := s.lastValidAt + k, lastSentAt := s.lastSentAt + k
           lastTimeSent := s.lastTimeSent + k }

/-- The instants of the package-wide units. -/
def Shared.shift (k : Nat) (s : Shared) : Shared :=
  { s with
    handover := s.handover.map (fun h => { h with startAt := h.startAt + k, quietAt := h.quietAt.map (· + k) })
    permits := { s.permits with copyAt := s.permits.copyAt.mapVals (fun _ a => a + k) }
    tether := { s.tether with session := s.tether.session.shift k, silent := s.tether.silent.map (· + k)
                              lineFree := s.tether.lineFree + k
                              bulkUse := s.tether.bulkUse.map (fun u => (u.1 + k, u.2 + k))
                              pairing := s.tether.pairing.map (fun q => { q with startAt := q.startAt + k }) }
    bus0 := s.bus0.shift k
    bus1 := s.bus1.shift k
    t1s := { s.t1s with status := { s.t1s.status with errAt := s.t1s.status.errAt.map (· + k) }
                        plca := { s.t1s.plca with at_ := s.t1s.plca.at_ + k, burstEnd := s.t1s.plca.burstEnd + k } }
    panel := { s.panel with readyAt := s.panel.readyAt + k
                            running := s.panel.running.map (fun r => (r.1, r.2.1, r.2.2.1, r.2.2.2.1, r.2.2.2.2 + k)) }
    keys := s.keys.shift k
    update := { s.update with onlineAt := s.update.onlineAt + k, retryAt := s.update.retryAt.map (· + k)
                              windowEnd := s.update.windowEnd + k }
    service := { s.service with lastAt := s.service.lastAt + k, lineFree := s.service.lineFree + k }
    bulk := s.bulk.mapVals (fun _ b => { b with until_ := b.until_ + k })
    bulkWaits := s.bulkWaits.map (fun w => { w with limit := w.limit + k })
    leadLostAt := s.leadLostAt + k
    busCut := s.busCut.map (· + k) }

/-- Package time steps forward by `k` ticks on every tile at one instant (R421). -/
def stepTime (k : Nat) (p : Pkg) : Pkg :=
  let p1 := onTiles (fun _ tl => tl.shift k p.now) p
  { onShared (Shared.shift k) p1 with now := (p.now + k) % 2 ^ 64 }

/-- The instants of the host port. -/
def HostPort.shift (k : Nat) (h : HostPort) : HostPort :=
  { h with lastPoll := h.lastPoll + k, refreshedAt := h.refreshedAt.map (· + k)
           rings := { h.rings with unmirrored := h.rings.unmirrored.map (fun q => (q.1, q.2 + k)) } }

end Sys2Proof.Machine
end

