-- ==== Sys2Proof/Machine/TetherOps.lean ====
section
/-!
DEFINITION. The tether (R411 to R425): the check of received frames, sessions, the timebase exchange, loss and rejoin.
-/

namespace Sys2Proof.Machine

/-- The session changed by `f`, and the status and counters. -/
def onSession (f : Session → Session) (p : Pkg) : Pkg := onTether (fun te => { te with session := f te.session }) p
def onLink (f : LinkStatus → LinkStatus) (p : Pkg) : Pkg := onTether (fun te => { te with status := f te.status }) p

/-- The tether runs on this package: its straps enable it, it is configured on, and a lead tile is in service (R411, R418). -/
def tetherRuns (p : Pkg) : Bool :=
  awake p && hasTether p && bit p.sh.tether.cfg 0 && online p p.lead && p.sh.tether.state != .disabled

/-- The number by which this package names tile `u` of the other one (R6). -/
def farNo (p : Pkg) (u : Nat) : Nat := if isFar p then u else u + 8

/-- The counter that SEQ stands for: the least one not below `least` with these low 32 bits (R415). -/
def rebuild (least : Nat) (seq : Word) : Nat := least + (seq.toNat + 4294967296 - least % 4294967296) % 4294967296

/-- What the check of a received frame finds (R415). -/
inductive FrameVerdict where
  | valid (counter : Nat)
  | bad
  | replay
  deriving DecidableEq, Repr

/-- The check of a received frame (R415): delimiter and length, counter, tag. -/
def frameVerdict (p : Pkg) (ft : Byte) (lengthOk : Bool) (f : TFrame) : FrameVerdict :=
  let te := p.sh.tether
  let v := rebuild te.session.last f.seq
  if !f.sound || !lengthOk || f.payload.length % 4 != 0 || 128 < f.payload.length then .bad
  else if 2 ^ 31 ≤ v - te.session.last then .replay
  else if ft != ftPair && te.pairKey.isNone then .bad
  else if f.tag != frameTag (frameKey te ft) (!isFar p) v ft f.cls f.payload then .bad
  else .valid v

/-- A valid frame is accepted (R415, R422): the link is no longer suspect. -/
def acceptFrame (ft : Byte) (v : Nat) (p : Pkg) : Pkg :=
  onTether (fun te => { te with
      state := if te.state == .suspect then .up else te.state
      session := { te.session with
        last := v + 1, lastValidAt := p.now
        proven := te.session.proven || (linkOpen te && ft != ftHello && ft != ftPair) }
      status := { te.status with framesOk := incSat te.status.framesOk } }) p

/-- A frame arrives: an invalid one is discarded and counted, a valid one has the effect `g` (R415). The other end is heard
(R424). -/
def received (ft : Byte) (lengthOk : Bool) (f : TFrame) (g : Pkg → Pkg) (p : Pkg) : Pkg :=
  if !tetherRuns p then p
  else
    let p1 := onTether (fun te => { te with silent := none }) (countPort 0x12 p.now (18 + f.payload.length) 0 p)
    match frameVerdict p ft lengthOk f with
    | .bad => onLink (fun s => { s with badFrames := incSat s.badFrames }) p1
    | .replay => onLink (fun s => { s with replays := incSat s.replays }) p1
    | .valid v => g (acceptFrame ft v p1)

/-- The entropy source of the lead is ready (R127, R477). -/
def sourceReady (p : Pkg) : Bool := (p.tile p.lead).entropy.ready

/-- `n` random bytes of the lead's source: those of its pool, then what the source makes next, which is open. -/
def takePool (n : Nat) (p : Pkg) : List Byte × Pkg :=
  let e := (p.tile p.lead).entropy
  let more := n - e.pool.length
  (e.pool.take n ++ (List.range more).map (fun i => (Config.freeWord (p.freeCtr + i)).setWidth 8),
    onTile p.lead (fun tl => { tl with entropy := { tl.entropy with pool := tl.entropy.pool.drop n } })
      { p with freeCtr := p.freeCtr + more })

/-- This end may send HELLO and IDLE frames before a session (R416, R424), and HELLO frames until it knows that the other end
has received one. -/
def mayGreet (p : Pkg) : Bool :=
  let te := p.sh.tether
  tetherRuns p && te.pairKey.isSome && !te.session.proven && te.silent.isNone
    && sourceReady p

/-- The session starts (R415, R416, R421). -/
def startSession (p : Pkg) : Pkg :=
  let te := p.sh.tether
  let s := te.session
  let key := if isFar p then sessionKey (te.pairKey.getD []) s.farNonce s.ownNonce
    else sessionKey (te.pairKey.getD []) s.ownNonce s.farNonce
  onTether (fun te => { te with
    state := .rejoining
    session := { te.session with key := key, lastTimeSent := p.now }
    status := { te.status with sessions := incSat te.status.sessions, farTiles := s.peerTiles } }) p

/-- This end sends a HELLO (R414, R416), and the session starts where the other end's has come. -/
def sendHello (p : Pkg) : Pkg :=
  let fresh := p.sh.tether.session.ownNonce.isEmpty
  let (nonce, p1) := if fresh then takePool 16 p else (p.sh.tether.session.ownNonce, p)
  let te := p1.sh.tether
  let payload := nonce ++ le 1 p.n ++ le 1 (b2n (isFar p)) ++ [te.bulkShare, 0] ++ incarnations p1
  let p2 := tetherSend ftHello payload p1
  let p3 := onTether (fun te => { te with
    state := if te.state == .down then .handshake else te.state
    session := { te.session with ownNonce := nonce, sentHello := true, helloAt := some p.now } }) p2
  if te.session.gotHello && !linkOpen te then startSession p3 else p3

/-- A valid HELLO has come (R412, R416). -/
def gotHello (payload : List Byte) (p : Pkg) : Pkg :=
  if linkOpen p.sh.tether then p
  else
    let p1 := onTether (fun te => { te with
      bulkShare := if isFar p then (slice payload 18 1).headD 0 else te.bulkShare
      session := { te.session with farNonce := payload.take 16, peerTiles := leAt payload 16 1, gotHello := true } }) p
    if p1.sh.tether.session.sentHello then startSession p1
    else if mayGreet p1 then sendHello p1 else p1

/-- A point handle names a tile of the other package. -/
def ofFar (p : Pkg) (h : Nat) : Bool := (localOf p (h / 1048576 % 16)).isNone

/-- Every copy of a point of the other package is STALE (R423, R533). -/
def staleFar (p : Pkg) : Pkg :=
  onTiles (fun _ tl => { tl with fabric := { tl.fabric with
    copies := tl.fabric.copies.mapVals (fun k r => if ofFar p k then staleForm r else r) } }) p

/-- A loss of the link (R423): it falls to `st`. -/
def loseLink (st : LinkState) (p : Pkg) : Pkg :=
  let te := p.sh.tether
  let p1 := onTether (fun te => { te with
    state := st, session := {}, queue := [], transactions := [], requests := [], serving := []
    status := { te.status with losses := incSat te.status.losses, timeLocked := false, farOnline := 0 } }) p
  let p2 := forAll te.transactions (fun x => emit { src := x.src, opcode := x.opcode, status := stTetherLost
                                                    tile := ownNo p p.lead, final := true }) p1
  let p3 := forAll te.requests (fun x => answerBy p.lead x.2 (failure stTetherLost)) p2
  raise p.lead 74 (staleFar p3)

/-- This end closes the link with a reason (R418, R424). -/
def closeLink (reason : Nat) (st : LinkState) (p : Pkg) : Pkg :=
  if linkOpen p.sh.tether then loseLink st (lastFrame (plainFrame ftClose (le 1 reason ++ zeros 3)) p)
  else onTether (fun te => { te with state := st, session := {}, queue := [] }) p

/-- A tile of the other package has been heard of in the session: in service, or not (R412). -/
def hearFar (tile : Nat) (up : Bool) (p : Pkg) : Pkg :=
  let u := tile % 8
  let p1 := onSession (fun s => { s with heard := s.heard.filter (fun x => x.1 != u) ++ [(u, up)] }) p
  if p.sh.tether.state == .rejoining then p1 else onLink (fun s => { s with farOnline := setBits s.farOnline u u (b2n up) }) p1

/-- A copy of this package's tiles of tile `u` of the other one is no longer trusted: event 72 on every tile in service, and
its copies STALE (R47). -/
def farAnnounces (u : Nat) (inc : Byte) (p : Pkg) : Pkg :=
  if p.sh.tether.status.farInc.getD u 0 == inc then p
  else
    let n := farNo p u
    let p1 := onLink (fun s => { s with farInc := s.farInc.set u inc }) (if p.sh.tether.session.announced then hearFar n (inc != 0) p else p)
    let p2 := onTiles (fun _ tl => { tl with fabric := { tl.fabric with
      learned := tl.fabric.learned.set n inc
      copies := tl.fabric.copies.mapVals (fun k r => if k / 1048576 == n then staleForm r else r) } }) p1
    forAll ((List.range p.n).filter (online p)) (fun t => raiseWith t 72 (n + 256 * inc.toNat)) p2

/-- The resync reads of every copy of the other package's points, in tile order and then in handle order (R425). -/
def startResync (p : Pkg) : Pkg :=
  forAll ((List.range p.n).filter (online p)) (fun t q =>
    forAll (((q.tile t).fabric.copies.map (·.1)).filter (ofFar p)) (fun k q =>
      let h : Handle := BitVec.ofNat 32 k
      onSession (fun s => { s with resync := s.resync ++ [(t, h)] })
        (issue t (handleTile h) 1 .resync (.read h) (q.now + admissionTicks 1) q)) q) p

/-- An ANNOUNCE has come (R47, R425): the first of a session starts the resync. -/
def gotAnnounce (payload : List Byte) (p : Pkg) : Pkg :=
  if !linkOpen p.sh.tether then p
  else
    let n := p.sh.tether.status.farTiles
    let p1 := forAll (List.range (Nat.min n 8)) (fun u => farAnnounces u ((slice payload u 1).headD 0)) p
    if p.sh.tether.session.announced then p1
    else startResync (onSession (fun s => { s with announced := true }) p1)

/-- A tile of the other package is in service as the link comes up at tick `now` (R412, R425): as it answered in the session, and
where nothing came from it, as it is. One that never had an incarnation is not. -/
def farUp (te : Tether) (now u : Nat) : Bool :=
  te.status.farInc.getD u 0 != 0
    && (((te.session.heard.find? (fun x => x.1 == u)).map (·.2)).getD (Config.farTileUp u now))

/-- The mask of the other package's tiles that are in service. -/
def farMask (te : Tether) (now : Nat) : BitVec 8 :=
  (List.range (Nat.min te.status.farTiles 8)).foldl (fun a u => setBits a u u (b2n (farUp te now u))) 0

/-- The resync has ended: the link is up (R412, R417, R425). -/
def linkUp (p : Pkg) : Pkg :=
  let te := p.sh.tether
  let p1 := onTether (fun te => { te with state := .up, pairWait := none
                                          status := { te.status with farSeen := true, farOnline := farMask te p.now } }) p
  let p2 := match te.pairWait with
    | some c => finish c 0x89 stOk p.lead p1
    | none => p1
  raise p.lead 75 p2

/-- This end sends a TIME frame (R414, R421): the instants in it are those at which it leaves. -/
def sendTime (p : Pkg) : Pkg :=
  onSession (fun s => { s with timesSent := s.timesSent + 1, lastTimeSent := p.now }) (tetherSend ftTime (zeros 24) p)

/-- Ticks in ns, saturating in the signed and unsigned 32-bit range (R419). -/
def offsetNsOf (ticks : Int) : Int := sat32 (ticks * 125 / 4)
def rttNsOf (ticks : Int) : Nat := satNat 32 (ticks * 125 / 4).toNat

/-- The exchange that a received TIME frame completes (R421): own clock minus the other's, and round trip, in ticks. `d1`
left here and reached there at `d2`; `d3` left there and came here at `d4`. -/
def exchangeOf (d1 d2 d3 d4 : Nat) : Int × Int :=
  (((d1 : Int) - d2 + ((d4 : Int) - d3)) / 2, ((d4 : Int) - d1) - ((d3 : Int) - d2))

/-- 20 µs in ticks (R421). -/
def lockTicks : Nat := 20 * usTicks

/-- What an exchange does (R421): offset and round trip, the lock after two in a row within 20 µs, and at the first beyond it
in a session a forward step of the end that is behind. The number of ticks stepped comes with it. -/
def takeExchange (d1 d2 d3 d4 : Nat) (p : Pkg) : Nat × Pkg :=
  let (ahead, rtt) := exchangeOf d1 d2 d3 d4
  let close := ahead.natAbs ≤ lockTicks
  let first := !close && !p.sh.tether.session.stepped
  let run := if close then p.sh.tether.session.within20 + 1 else 0
  let p1 := onTether (fun te => { te with
    status := { te.status with offsetNs := offsetNsOf (if isFar p then ahead else -ahead), rttNs := rttNsOf rtt
                               timeLocked := te.status.timeLocked || 2 ≤ run }
    session := { te.session with exchanges := te.session.exchanges + 1, within20 := run
                                 stepped := te.session.stepped || first } }) p
  let k := if first && ahead < 0 then (-ahead).toNat else 0
  (k, if k == 0 then p1 else stepTime k p1)

/-- ANNOUNCE leaves once the timebases are locked, or after the four close exchanges of R421 (R425). -/
def announceDue (s : Session) (l : LinkStatus) : Bool := !s.announceSent && (l.timeLocked || 4 ≤ s.exchanges)

/-- This end's ANNOUNCE of the session, when it is due. -/
def announceIfDue (p : Pkg) : Pkg :=
  if announceDue p.sh.tether.session p.sh.tether.status then
    tetherSend ftAnnounce (incarnations p) (onSession (fun s => { s with announceSent := true }) p)
  else p

/-- A TIME frame has come in a session (R421): the exchange, the note of its arrival, and the far end's answer. The number of
ticks stepped comes with it. -/
def gotTime (payload : List Byte) (p : Pkg) : Nat × Pkg :=
  if !linkOpen p.sh.tether then (0, p)
  else
    let sent := leAt payload 0 8
    let echo := leAt payload 8 8
    let echoAt := leAt payload 16 8
    let (k, p1) := if echo == 0 && echoAt == 0 then (0, p) else takeExchange echo echoAt sent p.now p
    let p2 := onSession (fun s => { s with lastTimeGot := sent, lastTimeGotAt := p1.now }) p1
    (k, announceIfDue (if isFar p then sendTime p2 else p2))

/-- The pairing key of this end is erased (R417): a session under it ends. -/
def erasePairing (p : Pkg) : Pkg :=
  let st := if p.sh.tether.state == .disabled then LinkState.disabled else .down
  let p1 := if linkOpen p.sh.tether then loseLink st p else p
  onTether (fun te => { te with pairKey := none, state := st, session := {}, queue := [] }) p1

/-- A REQUEST has come (R414): the lead issues it in its own package. One that erases the pairing key acts here, at the far end
(R417). -/
def gotRequest (r : FabricReq) (p : Pkg) : Pkg :=
  if !linkOpen p.sh.tether || p.sh.tether.serving.contains r.id then p
  else if r.op == .unpair then (if isFar p then erasePairing p else p)
  else
    onTile p.lead (fun tl => { tl with fabric := { tl.fabric with
        nextId := tl.fabric.nextId + 1
        out := tl.fabric.out ++ [{ req := { r with id := tl.fabric.nextId, origin := p.lead, purpose := .far r.id (asksDie r) }
                                   sentAt := p.now, limit := p.now + admissionTicks r.cls.toNat }] } })
      (onTether (fun te => { te with serving := te.serving ++ [r.id] }) p)

/-- A command is one that delivers through the bulk window (R114). -/
def bulkCommand (op : Byte) : Bool := op == 0x71 || op == 0xA3

/-- The reply of a bulk command of the other package fills a buffer here, as soon as one is free (R96, R114). -/
def farBulk (x : Transaction) (rep : FabReply) (p : Pkg) : Pkg :=
  let c : Completion := { src := x.src, opcode := x.opcode, status := rep.status, tile := rep.tile.toNat, final := true
                          payload := rep.payload.take 16 }
  if rep.payload.length ≤ 16 then emit c p else deliverBulk c (rep.payload.drop 16) p

/-- What a reply tells of the tile it was asked of: TILE_OFFLINE comes from the tile before it (R48), any other reply of the tile
itself says that it is in service (R412). -/
def noteFarReply (tile : Nat) (rep : FabReply) (p : Pkg) : Pkg :=
  if rep.status == stTileOffline then hearFar tile false p
  else if rep.tile.toNat == tile then hearFar tile true p
  else p

/-- A completion status is not final (R101). -/
def interim (st : Byte) : Bool := st == stAccepted || st == stDelayed

/-- A REPLY has come (R114, R414, R423). -/
def gotReply (id : Nat) (rep : FabReply) (p : Pkg) : Pkg :=
  let te := p.sh.tether
  match te.transactions.find? (fun x => x.id == id) with
  | some x =>
    if interim rep.status then emit { src := x.src, opcode := x.opcode, status := rep.status, tile := rep.tile.toNat, final := false } p
    else
      let p1 := onTether (fun te => { te with transactions := te.transactions.filter (fun y => y.id != id) })
        (noteFarReply x.tile rep p)
      if bulkCommand x.opcode && rep.status == stOk then farBulk x rep p1
      else emit { src := x.src, opcode := x.opcode, status := rep.status, tile := rep.tile.toNat, final := true, payload := rep.payload } p1
  | none =>
    match te.requests.find? (fun x => x.1 == id) with
    | none => p
    | some x =>
      if interim rep.status then p
      else answerBy p.lead x.2 rep (onTether (fun te => { te with requests := te.requests.filter (fun y => y.1 != id) })
        (noteFarReply x.2.tile.toNat rep p))

/-- The pairing key of a shared secret (R417). -/
def pairingKey (shared near far : List Byte) : List Byte := sha256 (shared ++ near ++ far)

/-- The base point of X25519 (RFC 7748). -/
def basePoint : List Byte := 9 :: zeros 31

/-- This end makes a fresh key pair and sends its public key (R417). -/
def sendPair (ctx : Option Ctx) (p : Pkg) : Pkg :=
  let (priv, p1) := takePool 32 p
  let pub := x25519 priv basePoint
  tetherSend ftPair pub
    (onTether (fun te => { te with pairing := some { priv := priv, pub := pub, ctx := ctx, startAt := p.now } }) p1)

/-- The pairing key is stored at this end (R417). -/
def storeKey (key : List Byte) (p : Pkg) : Pkg :=
  onTether (fun te => { te with pairKey := some key, pairWait := te.pairing.bind (·.ctx), pairing := none, session := {} }) p

/-- A PAIR frame has come (R417): the far end answers with its own key where it holds none; the near end completes the
exchange that it began. Each stores the key as a flash write (R359). -/
def gotPair (payload : List Byte) (p : Pkg) : Pkg :=
  let te := p.sh.tether
  if te.pairKey.isSome then p
  else if isFar p then
    if !sourceReady p then p
    else
      match flashCheck [p.lead] p with
      | (some _, q) => q
      | (none, q) =>
        let q1 := sendPair none q
        match q1.sh.tether.pairing with
        | some x => storeKey (pairingKey (x25519 x.priv payload) payload x.pub) q1
        | none => q1
  else match te.pairing with
    | some x => match flashCheck (onlinePair p) p with
      | (some st, q) =>
        let q1 := onTether (fun te => { te with pairing := none }) q
        (match x.ctx with | some c => finish c 0x89 st q1.lead q1 | none => q1)
      | (none, q) => storeKey (pairingKey (x25519 x.priv payload) x.pub payload) q
    | none => p

/-- The tether status record (R419). -/
def tetherRecord (te : Tether) : List Byte :=
  let s := te.status
  le 1 te.state.code ++ le 1 (b2n te.pairKey.isSome + 2 * b2n s.timeLocked) ++ le 1 s.farTiles ++ [0]
    ++ le 4 s.sessions.toNat ++ le 4 s.losses.toNat ++ le 4 s.framesOk.toNat ++ le 4 s.badFrames.toNat ++ le 4 s.replays.toNat
    ++ le 4 (wordOf s.offsetNs).toNat ++ le 4 s.rttNs

end Sys2Proof.Machine
end

