-- ==== Sys2Proof/Machine/CmdTether.lean ====
section
/-!
DEFINITION. The tether family (R126, R127, R417 to R419): TETHER_CONFIG, TETHER_PAIR, TETHER_STATUS.
-/

namespace Sys2Proof.Machine

/-- A tether configuration record is in range (R418). -/
def tetherCfgOk (r : BitVec 128) : Bool :=
  let share := bits r 15 8
  bits r 7 1 == 0 && bits r 127 16 == 0 && (share == 0 || (10 ≤ share && share ≤ 90))

/-- A new configuration takes effect (R418): clearing ENABLE closes the link, setting it starts the greeting again. -/
def applyTetherCfg (r : BitVec 128) (p : Pkg) : Pkg :=
  let p1 := onTether (fun te => { te with cfg := r, bulkShare := BitVec.ofNat 8 (bits r 15 8) }) p
  if !bit r 0 then (if p.sh.tether.state == .disabled then p1 else closeLink 0 .disabled p1)
  else if p.sh.tether.state == .disabled then onTether (fun te => { te with state := .down }) p1
  else p1

/-- TETHER_CONFIG (R126, R418): accepted at the near end only. -/
def execTetherConfig (c : Ctx) (rec : BitVec 128) : State → Host.Outcome State Fault Refusal :=
  lift (command (.tetherConfig c rec) (fun t p =>
    if !tetherCfgOk rec then finish c 0x88 stBadParam t p
    else if isFar p || !hasTether p then finish c 0x88 stRefusedState t p
    else withFlash c 0x88 t (onlinePair p) (fun p =>
      finish c 0x88 stOk t (applyTetherCfg rec (writeSettings (fun s => { s with tether := rec, share := BitVec.ofNat 8 (bits rec 15 8) }) p))) p))

/-- TETHER_PAIR action 1 (R417): the key of this end is erased, and from the near end, while the link is up, that of the far end
too, by a request that carries it. -/
def unpair (p : Pkg) : Pkg :=
  let te := p.sh.tether
  if isFar p || !(te.state == .up || te.state == .suspect) then erasePairing p
  else
    let r : FabricReq := { id := te.nextId, origin := p.lead, tile := BitVec.ofNat 4 (farNo p 0), cls := 2, inc := 0
                           purpose := .far te.nextId, op := .unpair }
    erasePairing (forAll (requestFrames r) lastFrame (onTether (fun x => { x with nextId := x.nextId + 1 }) p))

/-- The command reached this package by its own service port. -/
def fromService (c : Ctx) : Bool :=
  match c.src with
  | .service .. => true
  | _ => false

/-- TETHER_PAIR action 0 at the near end (R417). -/
def pairStart (c : Ctx) (t : Nat) (p : Pkg) : Pkg :=
  let te := p.sh.tether
  if te.pairKey.isSome || te.pairing.isSome then finish c 0x89 stRefusedState t p
  else sendPair (some c) (accept c 0x89 t p)

/-- TETHER_PAIR (R127, R417). -/
def execTetherPair (c : Ctx) (action : Byte) (rsv : BitVec 24) : State → Host.Outcome State Fault Refusal :=
  lift (command (.tetherPair c action rsv) (fun t p =>
    if action.toNat > 1 then finish c 0x89 stBadParam t p
    else if !hasTether p || (isFar p && (action == 0 || !fromService c)) then finish c 0x89 stRefusedState t p
    else if !sourceReady p then finish c 0x89 stNotReady t p
    else if action == 0 then pairStart c t p
    else withFlash c 0x89 t (onlinePair p) (fun p => finish c 0x89 stOk t (unpair (accept c 0x89 t p))) p))

/-- TETHER_STATUS (R126, R419). -/
def execTetherStatus (c : Ctx) : State → Host.Outcome State Fault Refusal :=
  lift (command (.tetherStatus c) (fun t p => reply c 0x8A t (tetherRecord p.sh.tether) p))

end Sys2Proof.Machine
end

