-- ==== Sys2Proof/Machine/CmdUpdate.lean ====
section
/-!
DEFINITION. The update family and its events (R129 to R131, R456 to R468): UPDATE_BEGIN, UPDATE_DATA, UPDATE_END, ACTIVATE, FIX,
UPDATE_STATUS, NEGATIVE_ERASE, ACTIVATION_NEXT_TILE, HANDOVER_RETRY, HEALTH_WINDOW_END.
-/

namespace Sys2Proof.Machine

/-- UPDATE_BEGIN (R457). -/
def execUpdateBegin (c : Ctx) (len : Word) (hdr : List Byte) : State → Host.Outcome State Fault Refusal :=
  lift (command (.updateBegin c len hdr) (fun t => guarded c 0xC0 t (updateBegin c t len.toNat hdr)))

/-- UPDATE_DATA (R458). -/
def execUpdateData (c : Ctx) (off : Word) (data : List Byte) : State → Host.Outcome State Fault Refusal :=
  lift (command (.updateData c off data) (fun t => guarded c 0xC1 t (updateData c t off.toNat data)))

/-- UPDATE_END (R459). -/
def execUpdateEnd (c : Ctx) (crc : Word) : State → Host.Outcome State Fault Refusal :=
  lift (command (.updateEnd c crc) (fun t => guarded c 0xC2 t (updateEnd c t crc)))

/-- ACTIVATE (R461). -/
def execActivate (c : Ctx) (conf rsv : Byte) (window : BitVec 16) : State → Host.Outcome State Fault Refusal :=
  lift (command (.activate c conf rsv window) (fun t => guarded c 0xC3 t (activate c t conf.toNat window.toNat)))

/-- FIX (R463). -/
def execFix (c : Ctx) : State → Host.Outcome State Fault Refusal :=
  lift (command (.fix c) (fun t p =>
    if p.sh.update.state != .window then finish c 0xC4 stBadState t p
    else finish c 0xC4 stOk t (onUpdate (fun u => { u with fixed := true }) p)))

/-- UPDATE_STATUS (R468). -/
def execUpdateStatus (c : Ctx) : State → Host.Outcome State Fault Refusal :=
  lift (command (.updateStatus c) (fun t p => reply c 0xC5 t (updateRecord p) p))

/-- NEGATIVE_ERASE (R457). -/
def execNegativeErase : State → Host.Outcome State Fault Refusal := lift negativeErased

/-- ACTIVATION_NEXT_TILE (R461): 50 ms after the last one came online. -/
def execActivationNextTile : State → Host.Outcome State Fault Refusal :=
  lift (fun p =>
    let u := p.sh.update
    if !updateBusy p || u.busy.isSome || u.order.isEmpty || u.retryAt.isSome || p.sh.handover.isSome then p
    else nextTile (advanceTo (u.onlineAt + 50 * msTicks) p))

/-- HANDOVER_RETRY (R461): 10 ms after a refused handover. -/
def execHandoverRetry : State → Host.Outcome State Fault Refusal :=
  lift (fun p =>
    match p.sh.update.retryAt with
    | some at_ =>
      if p.sh.handover.isSome then p
      else updateHandover (onUpdate (fun u => { u with retryAt := none }) (advanceTo at_ p))
    | none => p)

/-- HEALTH_WINDOW_END (R463). -/
def execHealthWindowEnd : State → Host.Outcome State Fault Refusal :=
  lift (fun p => if p.sh.update.state != .window then p else endWindow2 (advanceTo p.sh.update.windowEnd p))

end Sys2Proof.Machine
end

