-- ==== Sys2Proof/Machine/EvBus.lean ====
section
/-!
DEFINITION. The events of the bus ports (R427 to R446).
-/

namespace Sys2Proof.Machine

/-- The bus ports work: the package is awake and the lead tile that runs them is in service (R19). -/
def busAwake (p : Pkg) : Bool := awake p && online p p.lead

/-- An RS-485 port runs in a mode and listens: whatever arrives while it drives the line is discarded (R428). -/
def rsListens (p : Pkg) (b : RsPort) (mode : Nat) : Bool :=
  let r := rsOf p b
  busAwake p && r.running && r.mode.toNat == mode && r.sending.isNone

/-- A frame of `n` characters comes in on an RS-485 port (R446, R504): its characters are counted, and one that was on the line as a
handover cut off the frames is abandoned. -/
def rsFrame (b : RsPort) (n : Nat) (g : Pkg → Pkg) (p : Pkg) : Pkg :=
  let p1 := countPort (busSource (.rs b)) p.now n 0 p
  if wasCut p (rsTicks (rsOf p b).cfg n) then countAbandoned (.rs b) p1 else g p1

/-- The waits of the MS/TP nodes that are over, and the frames that the T1S port may begin, by now (R429, R441). -/
def busDue (p : Pkg) : Pkg :=
  if !busAwake p then p
  else onT1s (beginT1s p.now) (onRs .bus1 (nodeDue p.now) (onRs .bus0 (nodeDue p.now) p))

/-- With nothing to start, package time passes by one tick of 31.25 ns. -/
def tick (s : State) : Host.Outcome State Fault Refusal := lift (fun p => busDue (advance 1 p)) s

/-- BUS_START (R427): the line has been idle for 3.5 characters. -/
def execBusStart (port : BusPort) : State → Host.Outcome State Fault Refusal :=
  lift (fun p =>
    if !busAwake p then p
    else match port with
      | .rs b =>
        let r := rsOf p b
        if r.mode == 0 || r.running then p
        else clientRun b (noteSources b (onRs b (fun r => freshNode { r with running := true, silent := true }) p))
      | .t1s => if !tcOn p.sh.t1s.cfg || p.sh.t1s.running then p else onT1s (runT1s p.now) p)

/-- MODBUS_REQUEST (R432, R436, R437): a frame with its CRC. -/
def execModbusRequest (port : RsPort) (frame : List Byte) : State → Host.Outcome State Fault Refusal :=
  lift (fun p0 =>
    let r := rsOf p0 port
    if !busAwake p0 || !r.running || r.mode != 2 then p0
    else rsFrame port frame.length (fun p =>
    if !crcRight frame then (if r.sending.isSome then p else countRxErr (.rs port) p)
    else if leAt frame 0 1 != 0 && leAt frame 0 1 != rcAddress r.cfg then (if r.sending.isSome then p else countRxOk (.rs port) p)
    else
      let p1 := countRxOk (.rs port) p
      if r.serving.isSome || r.sending.isSome then countDropped (.rs port) p1
      else serveRequest port (frame.take (frame.length - 2)) p1) p0)

/-- SERVER_WAIT_EXPIRY (R437): exception 0x06. -/
def execServerWaitExpiry (port : RsPort) : State → Host.Outcome State Fault Refusal :=
  lift (fun p =>
    match (rsOf p port).serving with
    | none => p
    | some x => serverException port x.frame 6 (advanceTo x.until_ p))

/-- An item falls due; one that is due already is not queued twice (R440). -/
def itemDue (b : RsPort) (i : Nat) (e : List Byte) (p : Pkg) : Pkg :=
  clientRun b (onRs b (fun r => { r with
    due := if r.due.contains i then r.due else r.due ++ [i]
    dueAt := r.dueAt.set i p.now
    seen := if piWrites e && piOnChange e then r.seen.set i (sourceNow p e) else r.seen }) p)

/-- POLL_ITEM_DUE (R440): a change of the source of a write item with ON_CHANGE, else the next whole multiple of its period. -/
def execPollItemDue (port : RsPort) (item : BitVec 9) : State → Host.Outcome State Fault Refusal :=
  lift (fun p =>
    let r := rsOf p port
    let list := portTable p 1 port
    let i := item.toNat
    let e := plItem list i
    if !busAwake p || !r.running || r.mode != 3 || list.isEmpty || plCount list ≤ i || piServer e == 0 then p
    else
      let changed := piWrites e && piOnChange e && (match r.seen.find? i with
        | some x => x != sourceNow p e
        | none => false)
      if changed then itemDue port i e p
      else
        let from_ := match r.dueAt.find? i with
          | some a => Nat.max p.now (a + 1)
          | none => p.now
        itemDue port i e (advanceTo (nextMultiple (piPeriod e * msTicks) from_) p))

/-- MODBUS_SILENCE (R440): 3.5 characters of silence after a response or a timeout. -/
def execModbusSilence (port : RsPort) : State → Host.Outcome State Fault Refusal :=
  lift (fun p =>
    let r := rsOf p port
    if !busAwake p || !r.running || r.mode != 3 || r.sending.isSome then p
    else match r.polling with
      | none => clientRun port (onRs port (fun r => { r with silent := true }) p)
      | some x => if x.asking.isSome || x.deadline.isSome then p else sendAttempt port x p)

/-- MODBUS_RESPONSE (R432, R439): a frame with its CRC. -/
def execModbusResponse (port : RsPort) (frame : List Byte) : State → Host.Outcome State Fault Refusal :=
  lift (fun p0 =>
    if !rsListens p0 port 3 then p0
    else rsFrame port frame.length (fun p =>
    if !crcRight frame then countRxErr (.rs port) p
    else
      let p1 := countRxOk (.rs port) p
      match (rsOf p port).polling with
      | some x => if x.deadline.isSome then takeResponse port x (frame.take (frame.length - 2)) p1 else p1
      | none => p1) p0)

/-- RESPONSE_TIMEOUT (R440). -/
def execResponseTimeout (port : RsPort) : State → Host.Outcome State Fault Refusal :=
  lift (fun p =>
    match (rsOf p port).polling with
    | none => p
    | some x => match x.deadline with
      | none => p
      | some d => attemptFails port x (advanceTo d p))

/-- A valid MS/TP frame from a station (R444): one from this station's own address is a fault. -/
def mstpHeard (b : RsPort) (src : Byte) (p : Pkg) : Pkg :=
  let p1 := countRxOk (.rs b) p
  if src.toNat == rcAddress (rsOf p b).cfg then busFault (.rs b) 0 p1 else p1

/-- An MS/TP frame comes in (R428, R429, R446): while the port sends it is discarded, and one with a wrong CRC is counted; a sound
one has the effect `g`, told from the node as it was. -/
def mstpIn (b : RsPort) (f : MstpFrame) (g : RsState → Pkg → Pkg) (p0 : Pkg) : Pkg :=
  let p := busDue p0
  if !rsListens p b 1 then p
  else rsFrame b (frameChars f) (fun p =>
    if !frameSound f then onRs b nodeInvalid (countRxErr (.rs b) p)
    else g (rsOf p b) (onRs b (nodeHears f) (mstpHeard b f.src p))) p

/-- MSTP_DATA_FRAME (R429 to R431, R443). -/
def execMstpDataFrame (port : RsPort) (ftype dst src : Byte) (rest : MstpRest) : State → Host.Outcome State Fault Refusal :=
  let f : MstpFrame := { rest with ftype := ftype, dst := dst, src := src }
  lift (mstpIn port f (fun r p1 =>
    let mine := f.dst.toNat == rcAddress r.cfg
    if f.ftype != ftExpecting && f.ftype != ftNotExpecting then countDropped (.rs port) p1
    else if !mine && f.dst != 255 then p1
    else
      let wants := f.ftype == ftExpecting && mine
      let answers := f.ftype == ftNotExpecting && mine && r.mstp.phase == .waiting f.src
      let status := b2n wants + 2 * b2n (f.dst == 255) + 4 * b2n answers
      let p2 := putFrame (2 + rsNo port) status ([f.ftype, f.dst, f.src] ++ f.data) p1
      if wants then onRs port (fun x => { x with reply := some (f.src, p2.now + rcWait r.cfg * msTicks) }) p2 else p2))

/-- MSTP_TOKEN (R429, R430): the token for this station. -/
def execMstpToken (port : RsPort) (f : MstpFrame) : State → Host.Outcome State Fault Refusal :=
  lift (mstpIn port f (fun r p1 =>
    if f.ftype == ftToken && f.dst.toNat == rcAddress r.cfg && nodeFree r then onRs port takeToken p1 else p1))

/-- MSTP_CONTROL_FRAME (R429): Poll For Master and Test_Request to this station are answered by the port itself. -/
def execMstpControlFrame (port : RsPort) (ftype dst src : Byte) (rest : MstpRest) : State → Host.Outcome State Fault Refusal :=
  let f : MstpFrame := { rest with ftype := ftype, dst := dst, src := src }
  lift (mstpIn port f (fun r p1 =>
    if f.dst.toNat != rcAddress r.cfg || !nodeFree r then p1
    else if f.ftype == ftPoll then onRs port (ownFrame ftPollReply f.src []) p1
    else if f.ftype == ftTestRequest then onRs port (ownFrame ftTestResponse f.src f.data) p1
    else p1))

/-- REPLY_POSTPONED (R431). -/
def execReplyPostponed (port : RsPort) : State → Host.Outcome State Fault Refusal :=
  lift (fun p =>
    match (rsOf p port).reply with
    | none => p
    | some (src, limit) =>
      if !rsListens p port 1 then p
      else countB (.rs port) (onRs port (fun r => ownFrame ftPostponed src [] { r with reply := none }) (advanceTo limit p)))

/-- TOKEN_REGENERATION (R429, R444): an idle station that has heard nothing looks for a successor. -/
def execTokenRegeneration (port : RsPort) : State → Host.Outcome State Fault Refusal :=
  lift (fun p =>
    if !rsListens p port 1 || (rsOf p port).mstp.phase != .idle then p
    else onRs port generateToken (busFault (.rs port) 1 (countA (.rs port) p)))

/-- RX_ERR (R428, R444). -/
def execRxErr (port : RsPort) : State → Host.Outcome State Fault Refusal :=
  lift (fun p =>
    let r := rsOf p port
    if !busAwake p || r.mode == 0 || !r.running || r.sending.isSome then p
    else
      let p1 := countRxErr (.rs port) p
      if r.mode == 1 then onRs port nodeInvalid p1 else p1)

/-- Why a T1S frame is accepted, as its receive status (R442, R443). -/
def t1sMatch (r : T1sState) (frame : List Byte) : Option Nat :=
  let dst : BitVec 48 := recOf 48 (frame.take 6)
  match (r.filters.filter (fun q => q.2 == dst)).head? with
  | some q => some q.1
  | none =>
    if tcBcast r.cfg && dst == BitVec.allOnes 48 then some 16
    else if tcPromisc r.cfg then some 17 else none

/-- A T1S frame that has its place on the segment (R441, R446, R504): it is counted, and then the port may begin its own. -/
def t1sIn (len : Nat) (g : Pkg → Pkg) (p : Pkg) : Pkg :=
  let p1 := countPort (busSource .t1s) p.now len 0 p
  let p2 := if wasCut p (t1sTicks len) then countAbandoned .t1s p1 else g p1
  onT1s (fun r => beginT1s p.now (hearT1s p.now len r)) p2

/-- T1S_FRAME (R442): a frame and the FCS that came behind it. -/
def execT1sFrame (frame : List Byte) (fcs : Word) : State → Host.Outcome State Fault Refusal :=
  lift (fun p =>
    if !busAwake p || !p.sh.t1s.running then p
    else t1sIn (frame.length + 4) (fun p =>
      if fcsOf frame != fcs then countRxErr .t1s p
      else if frame.length < 60 || 1514 < frame.length then p
      else match t1sMatch p.sh.t1s frame with
        | none => p
        | some m => putFrame 4 m frame (countRxOk .t1s p)) p)

/-- T1S_COLLISION (R442, R444): at the 16th the frame is abandoned. -/
def execT1sCollision : State → Host.Outcome State Fault Refusal :=
  lift (fun p =>
    let r := p.sh.t1s
    if !busAwake p || !r.running || (tcPlca r.cfg && !r.fallback) || r.sending.isNone then p
    else
      let p1 := countA .t1s (onT1s (fun x => { x with collisions := x.collisions + 1 }) p)
      if 16 ≤ r.collisions + 1 then dropT1s (countAbandoned .t1s p1) else p1)

/-- BEACON_TIMEOUT (R444): a follower falls back to CSMA/CD. -/
def execBeaconTimeout : State → Host.Outcome State Fault Refusal :=
  lift (fun p =>
    let r := p.sh.t1s
    if !busAwake p || !r.running || !followsPlca r then p
    else busFault .t1s 4 (countB .t1s (onT1s (fun x => beginT1s p.now { x with fallback := true }) p)))

/-- BEACON (R441, R444): BEACONs return, and the opportunities begin. -/
def execBeacon : State → Host.Outcome State Fault Refusal :=
  lift (fun p =>
    if !busAwake p || !p.sh.t1s.running || !followsPlca p.sh.t1s then p
    else onT1s (fun x => beginT1s p.now { x with fallback := false, plca := { x.plca with id := 0, at_ := p.now } }) p)

/-- JABBER (R444): a transmission is cut off. -/
def execJabber : State → Host.Outcome State Fault Refusal :=
  lift (fun p =>
    let r := p.sh.t1s
    if !busAwake p || !r.running || r.sending.isNone then p else dropT1s (busFault .t1s 5 p))

/-- A frame has left an RS-485 port (R127, R430, R431, R440, R504). -/
def rsSent (b : RsPort) (p0 : Pkg) : Pkg :=
  let r := rsOf p0 b
  match r.sending with
  | none => p0
  | some (c, f) =>
    let p := countPort (busSource (.rs b)) p0.now 0 f.length p0
    let p1 := countTx (.rs b) (onRs b (fun r => { r with sending := none }) p)
    let p2 := match c with
      | some c => finish c 0x81 stOk p.lead p1
      | none => p1
    if r.mode == 1 then onRs b (nodeSent p.now c.isSome (f.getD 2 0) (f.getD 3 0)) p2
    else match r.polling with
      | some x => onRs b (fun r => { r with polling := some { x with deadline := some (p.now + rcTimeout r.cfg * msTicks) } }) p2
      | none => p2

/-- BUS_FRAME_SENT (R127, R442, R504). -/
def execBusFrameSent (port : BusPort) : State → Host.Outcome State Fault Refusal :=
  lift (fun p =>
    if !busAwake p then p
    else match port with
      | .rs b => rsSent b p
      | .t1s => match p.sh.t1s.sending with
        | none => p
        | some (c, f) =>
          countTx .t1s (finish c 0x81 stOk p.lead (onT1s (endT1s p.now) (countPort (busSource .t1s) p.now 0 f.length p))))

end Sys2Proof.Machine
end

