-- ==== Sys2Proof/Machine/Pads.lean ====
section
/-!
DEFINITION. The pad of a channel: what its output state, its protection and its configuration make of the pin (R133, R139, R144,
R150, R154, R158, R160, R162).
-/

namespace Sys2Proof.Machine

/-- What a channel does to its pin. Voltages are in mV and currents in µA. -/
inductive Pad where
  /-- high impedance, with the 100 kΩ pull-down -/
  | highZ
  /-- disconnected: the isolation switch is open (R144) -/
  | open_
  /-- driven to a voltage by sourcing or sinking up to the current limit in either direction -/
  | voltage (mv : Nat) (limit : Nat)
  /-- driven with a current -/
  | current (ua : Int)
  /-- driven to VIO, or to 0 V, sourcing up to the current limit -/
  | level (high : Bool) (limit : Nat)
  /-- driven to VIO for `high` ticks of each period of `period` ticks, else to 0 V, sourcing up to the current limit -/
  | pwm (period high limit : Nat)
  /-- driven to 12 V from VHV, or to 0 V, sourcing up to the current limit but for the charging peak of an edge -/
  | gate (high : Bool) (limit : Nat)
  /-- an input path of a mode, with the excitation that flows out of it -/
  | input (mode excitation : Nat)
  deriving DecidableEq, Repr

/-- The entry under way of a converter samples channel `c`, and tick `now` lies from the start of its acquisition time to the
end of its conversion (R139, R165). -/
def samplesNow (v : Converters) (a : Adc) (now c : Nat) : Bool :=
  let s := a.active
  let switch := 2 * (if s.ref != a.lastRef then 9 else 1)
  a.busy && entryRuns v s && enTap s.entry != 3 && enChannel s.entry == c && s.entryAt + switch ≤ now && now < entryEnds v a s

/-- The excitation in µA that flows out of a resistance channel at tick `now` (R139): all the time, or with PULSED only while an
entry samples it. -/
def flowing (now : Nat) (tl : Tile) (c : Nat) : Nat :=
  let ch := tl.chan c
  if ch.mode != 0x05 then 0
  else if bit ch.cfg 10 && !samplesNow tl.conv tl.conv.a now c && !samplesNow tl.conv tl.conv.b now c then 0
  else excitation ch

/-- A PWM drive of `hz` and a duty of 65,536 steps, with its edges at the nearest ticks (R133); inverted, it is high for the rest
of each period (R162). -/
def pwmPad (hz duty : Nat) (invert : Bool) (limit : Nat) : Pad :=
  let d := if invert then 65536 - duty else duty
  .pwm (divRound secTicks hz).toNat (divRound ((secTicks * d : Nat) : Int) (hz * 65536)).toNat limit

/-- A pad driven in mode `m` with a command in CHR units (R133, R162), within its current limit (R146). -/
def drivenPad (m : Nat) (v : Int) (hz : Nat) (invert : Bool) (limit : Nat) : Pad :=
  match m with
  | 0x08 => .voltage v.toNat limit
  | 0x09 => .current (if (limit : Int) < v then limit else v)
  | 0x11 => .level ((v != 0) != invert) limit
  | 0x13 => pwmPad hz v.toNat invert limit
  | 0x18 => .gate ((v != 0) != invert) limit
  | _ => .highZ

/-- The pad of a sense, digital input or pulse input mode; Disabled leaves it at high impedance (R133). -/
def inputPad (now : Nat) (tl : Tile) (c : Nat) : Pad :=
  if (tl.chan c).mode == 0 then .highZ else .input (tl.chan c).mode (flowing now tl c)

/-- The drive command of a channel in its output state, in CHR units (R154): in Run the present one, in Hold what the latch keeps,
and in Safelight that of the entry. A gate goes to 0 in Hold and in Safelight. -/
def padCommand (ch : Chan) : Int :=
  match ch.out with
  | .run => driveRaw ch
  | .hold => if ch.mode == 0x18 then 0 else if ch.drive.heldEng then engToRaw ch.mode ch.drive.held.toInt else ch.drive.held.toNat
  | .safelight => if effMode ch == 0x18 then 0 else (bits ch.safe 63 32 : Nat)
  | .off => 0

/-- The pad of channel `c` of a tile at tick `now` (R154): a break and Off leave it at high impedance (R158); a drive stage that
is off does too, but for a gate, which goes to 0 V (R150); the hold latch keeps the last level, and a gate at 0 V; Safelight
drives its entry, whose mode 0 keeps a sense path. A running profile switches its gates directly (R302). -/
def padOf (now : Nat) (tl : Tile) (c : Nat) : Pad :=
  let ch := tl.chan c
  let m := effMode ch
  if ch.prot.isolated then .open_
  else if now < ch.drive.breakUntil || ch.out == .off then .highZ
  else if m != 0 && !stageOn ch then (if m == 0x18 then .gate false (limitUa ch) else .highZ)
  else match ch.out with
    | .run =>
      if m == 0 then inputPad now tl c
      else
        let v : Int := if m == 0x18 then ((engineGate tl c).map (fun g => (b2n g : Int))).getD (padCommand ch) else padCommand ch
        drivenPad m v ch.pwmFreq (bit ch.cfg 8) (limitUa ch)
    | .hold =>
      if m == 0 then inputPad now tl c
      else if m == 0x18 then .gate false (limitUa ch)
      else drivenPad m (padCommand ch) ch.drive.heldHz (bit ch.cfg 8) (limitUa ch)
    | .safelight =>
      if m == 0 then (if driveMode ch.mode then .highZ else inputPad now tl c)
      else drivenPad m (padCommand ch) (bits ch.safe 95 64) false (limitUa ch)
    | .off => .highZ

end Sys2Proof.Machine
end

