-- ==== Sys2Proof/Machine/EvChannels.lean ====
section
/-!
DEFINITION. Events of the channels (R43, R138 to R153): COMPARATOR_EDGE, INPUT_FILTER_EXPIRY, ISOLATION_OPEN,
ISOLATION_CLOSE, VHV_THRESHOLD, BLANKING_END, LIMIT_TRIP, BUDGET_TRIP, THERMAL_BUDGET, CHANNEL_RETRY,
CHANNEL_ATTEMPT_RESET, OPEN_LOAD, GATE_FAULT, HOLD_LIMIT_EXPIRY.
-/

namespace Sys2Proof.Machine

/-- COMPARATOR_EDGE (R140): the voltage of a pin moves, and each comparator that watches it and crosses its threshold changes. -/
def execComparatorEdge (tile : TileId) (pin : BitVec 5) (pinUv : Int) : State → Host.Outcome State Fault Refusal :=
  liftTile tile (fun t p => if p.inReset then p else pinVoltage t pin.toNat pinUv p)

/-- INPUT_FILTER_EXPIRY (R140, R158): the output has held its level for FILTER µs, and a break of the pad is over. -/
def execInputFilterExpiry (tile : TileId) (ch : BitVec 5) : State → Host.Outcome State Fault Refusal :=
  liftTile tile (fun t p =>
    let c := ch.toNat
    let x := (p.tile t).chan c
    if p.inReset || x.mode != 0x10 then p
    else takeLevel t c (advanceTo (Nat.max (x.drive.cmpAt + x.filter * usTicks) x.drive.breakUntil) p))

/-- ISOLATION_OPEN (R143, R144): each opening sets OVERVOLTAGE. With the switch open, the pin is outside its window again: the 10 ms
begin anew, and a flag that was cleared sets again. -/
def execIsolationOpen (tile : TileId) (ch : BitVec 5) : State → Host.Outcome State Fault Refusal :=
  liftTile tile (fun t p =>
    let c := ch.toNat
    if p.inReset then p
    else faultOwners t c (setFault t c fOver (onChan t c (fun x => { x with prot := { x.prot with
      isolated := true, isolatedAt := if x.prot.isolated then x.prot.isolatedAt else p.now, outsideAt := p.now
      atLimit := false, uA := 0 } }) p)))

/-- ISOLATION_CLOSE (R144): after 10 ms without a break. -/
def execIsolationClose (tile : TileId) (ch : BitVec 5) : State → Host.Outcome State Fault Refusal :=
  liftTile tile (fun t p =>
    let c := ch.toNat
    let x := (p.tile t).chan c
    if p.inReset || !x.prot.isolated then p
    else
      let p1 := advanceTo (x.prot.outsideAt + 10 * msTicks) p
      onChan t c (fun y => reconnect p1.now y { y with prot := { y.prot with isolated := false, closedAt := p1.now } }) p1)

/-- VHV_THRESHOLD (R145): VHV falls below 14.0 V, or is at or above 14.5 V again. While it stays low each detection sets VHV_LOW
again where it was cleared (R143). -/
def execVhvThreshold (tile : TileId) (low : Bool) : State → Host.Outcome State Fault Refusal :=
  liftTile tile (fun t p =>
    if !low && !(p.tile t).supply.vhvLow then p
    else
      let on := (List.range 32).filter (fun c => vhvMode (effMode ((p.tile t).chan c)))
      let p1 := onAllChans t (fun _ => vhvChan p.now low) (onTile t (fun tl => { tl with supply := { tl.supply with vhvLow := low } }) p)
      if low && !p.inReset then forAll on (fun c q => faultOwners t c (setFault t c fVhv q)) p1 else p1)

/-- BLANKING_END (R147). -/
def execBlankingEnd (tile : TileId) (ch : BitVec 5) : State → Host.Outcome State Fault Refusal :=
  liftTile tile (fun t p =>
    let c := ch.toNat
    if p.inReset then p
    else syncChan t c (advanceTo ((p.tile t).chan c).prot.blankUntil p))

/-- LIMIT_TRIP (R147): 50 µs at the limit, outside the channel's own window. -/
def execLimitTrip (tile : TileId) (ch : BitVec 5) : State → Host.Outcome State Fault Refusal :=
  liftTile tile (fun t p =>
    let c := ch.toNat
    let x := (p.tile t).chan c
    if p.inReset || !stageOn x then p
    else tripOff t c fLimit (advanceTo (x.prot.blankUntil + 50 * usTicks) p))

/-- The group budget acts (R149): 100 µs after it last acted at the earliest, since its timing then starts again from zero. -/
def budgetActs (t g : Nat) (amps : List Int) (p0 : Pkg) : Pkg :=
  let p := advanceTo (((p0.tile t).budgetAt.find? g).map (· + 100 * usTicks) |>.getD 0) p0
  forAll (budgetVictims p.now (p.tile t) g amps) (fun c => tripOff t c fBudget)
    (onTile t (fun tl => { tl with budgetAt := tl.budgetAt.set g p.now }) p)

/-- BUDGET_TRIP (R149): the current of a group has stayed above 100 mA for 100 µs, with these drive currents of its channels. -/
def execBudgetTrip (tile : TileId) (group : BitVec 2) (amps : List Int) : State → Host.Outcome State Fault Refusal :=
  liftTile tile (fun t p => if p.inReset then p else budgetActs t group.toNat amps p)

/-- THERMAL_BUDGET (R152, R153): at the next whole millisecond. -/
def execThermalBudget (meas : List Meas) : State → Host.Outcome State Fault Refusal :=
  lift (fun p =>
    if p.inReset then p
    else
      let next := nextMultiple msTicks (if p.sh.thermal.at_ == some p.now then p.now + 1 else p.now)
      let p1 := recordSums (measureAll meas (advanceTo next p))
      if online p1 p1.lead then enforceBudget (List.range p1.n) budgetNw p1
      else forAll (List.range p1.n) (fun t => enforceBudget [t] (budgetNw / p1.n)) p1)

/-- CHANNEL_RETRY (R150, R153): RETRY_INTERVAL after the turn-off. -/
def execChannelRetry (tile : TileId) (ch : BitVec 5) : State → Host.Outcome State Fault Refusal :=
  liftTile tile (fun t p =>
    let c := ch.toNat
    let x := (p.tile t).chan c
    if p.inReset || !x.prot.tripped || x.prot.faults.getLsbD fLatched || effMode x == 0 || retryTicks x == 0 then p
    else
      let p1 := advanceTo (x.prot.tripAt + retryTicks x) p
      if thermalDefers p1 t c then p1 else driveBack t c p1)

/-- CHANNEL_ATTEMPT_RESET (R150): 10 s of drive without a turn-off. -/
def execChannelAttemptReset (tile : TileId) (ch : BitVec 5) : State → Host.Outcome State Fault Refusal :=
  liftTile tile (fun t p =>
    let c := ch.toNat
    let x := (p.tile t).chan c
    if p.inReset || x.prot.attempts == 0 || !stageOn x then p
    else onChan t c (fun y => { y with prot := { y.prot with attempts := 0 } }) (advanceTo (x.prot.onAt + 10 * secTicks) p))

/-- OPEN_LOAD (R138): a current drive commanded above 1 mA has stayed at compliance for 10 ms. -/
def execOpenLoad (tile : TileId) (ch : BitVec 5) : State → Host.Outcome State Fault Refusal :=
  liftTile tile (fun t p =>
    let c := ch.toNat
    let x := (p.tile t).chan c
    match padOf p.now (p.tile t) c with
    | .current _ => if p.inReset || !stageOn x || padCommand x ≤ 1000 then p else setFault t c fOpenLoad p
    | _ => p)

/-- GATE_FAULT (R151): a gate pin has not reached its level 5 µs after the edge. -/
def execGateFault (tile : TileId) (ch : BitVec 5) : State → Host.Outcome State Fault Refusal :=
  liftTile tile (fun t p =>
    let c := ch.toNat
    let x := (p.tile t).chan c
    if p.inReset || effMode x != 0x18 || x.prot.isolated || x.prot.vhvOff then p else faultOwners t c (setFault t c fGate p))

/-- HOLD_LIMIT_EXPIRY (R43, R156). -/
def execHoldLimitExpiry (tile : TileId) (ch : BitVec 5) : State → Host.Outcome State Fault Refusal :=
  liftTile tile (fun t p =>
    let c := ch.toNat
    let x := (p.tile t).chan c
    if p.inReset || x.out != .hold then p
    else onChan t c (enterSafelight (safeEntry (p.tile t) c)) (advanceTo x.holdUntil p))

end Sys2Proof.Machine
end

