-- ==== Sys2Proof/Machine/EvConverters.lean ====
section
/-!
DEFINITION. Events of the converters (R165 to R188): SEQ_TRIGGER, URGENT_TRIGGER, SEQ_ENTRY_RESULT, REF_SETTLED, REFERENCE_LOST.
-/

namespace Sys2Proof.Machine

/-- SEQ_TRIGGER (R174): a trigger from a source comes by itself. A trigger that another event of the table brings about (a comparator
edge, a tooth, a boundary, the end of a pass, a table event) acts with that event. -/
def execSeqTrigger (tile : TileId) (adc : Bool) (src : Byte) : State → Host.Outcome State Fault Refusal :=
  liftTile tile (fun t p => if online p t then regularTrigger t adc src.toNat p else p)

/-- URGENT_TRIGGER (R180, R181). -/
def execUrgentTrigger (tile : TileId) (adc : Bool) (src : Byte) : State → Host.Outcome State Fault Refusal :=
  liftTile tile (fun t p =>
    if online p t && injectedOn ((p.tile t).adc adc) src.toNat then urgent t adc p else p)

/-- SEQ_ENTRY_RESULT (R165, R166, R177, R184): the oldest entry of a converter whose result is not written gives its result, or
is skipped for an unsettled reference. -/
def execSeqEntryResult (tile : TileId) (adc : Bool) (input : ConvInput) : State → Host.Outcome State Fault Refusal :=
  liftTile tile (fun t p =>
    let v := (p.tile t).conv
    let a := (p.tile t).adc adc
    if !online p t then p
    else match a.ended with
      | d :: rest =>
        writeResult t adc d input (advanceTo (resultAt d.last)
          (onTile t (fun tl => tl.onAdc adc (fun x => { x with ended := rest })) p))
      | [] =>
        if !a.busy then p
        else
          let d := a.ending v
          let p1 := if refSettled v a.active then writeResult t adc d input (advanceTo (resultAt d.last) p)
            else skipEntry t d.ref.toNat (advanceTo d.last p)
          finishEntry t adc d.last p1)

/-- REF_SETTLED (R183): the internal reference 2 ms after it was enabled. -/
def execRefSettled (tile : TileId) (ref : BitVec 2) : State → Host.Outcome State Fault Refusal :=
  liftTile tile (fun t p =>
    if ref == 3 || p.inReset then p
    else
      let p1 := if ref == 0 then advanceTo ((p.tile t).conv.enabledAt + 2 * msTicks) p else p
      onTile t (fun tl => { tl with conv := { tl.conv with
        settled := tl.conv.settled ||| (1#3 <<< ref.toNat), skipped := tl.conv.skipped &&& ~~~(1#3 <<< ref.toNat) } }) (catchUp t p1.now p1))

/-- REFERENCE_LOST (R183, R184): REFIO or VANA leaves its window; the internal reference stays on. -/
def execReferenceLost (tile : TileId) (ref : BitVec 2) : State → Host.Outcome State Fault Refusal :=
  liftTile tile (fun t p =>
    if ref == 0 || ref == 3 then p
    else onTile t (fun tl => { tl with conv := { tl.conv with
        settled := tl.conv.settled &&& ~~~(1#3 <<< ref.toNat)
        lostRefio := if ref == 1 then p.now else tl.conv.lostRefio
        lostVana := if ref == 2 then p.now else tl.conv.lostVana } }) (catchUp t p.now p))

end Sys2Proof.Machine
end

