-- ==== Sys2Proof/Machine/EvEngines.lean ====
section
/-!
DEFINITION. Events of the profile engines and angle trackers (R303 to R323): INSTRUCTION_TIME_END, CHOP_OFF_TIME,
DETECT_SAMPLE, DETECT_WINDOW_END, SHUTTER_END, TOOTH_WINDOW_CLOSE, ANGLE_FIRING_DUE.
-/

namespace Sys2Proof.Machine

/-- INSTRUCTION_TIME_END (R303): the DRIVE or CHOP is over. -/
def execInstructionTimeEnd (tile : TileId) (engine : BitVec 3) : State → Host.Outcome State Fault Refusal :=
  liftTile tile (fun t p =>
    let x := (p.tile t).engine engine.toNat
    if x.phase != .running then p else nextInstr t engine.toNat (advanceTo x.run.endAt p))

/-- CHOP_OFF_TIME (R305). -/
def execChopOffTime (tile : TileId) (engine : BitVec 3) : State → Host.Outcome State Fault Refusal :=
  liftTile tile (fun t p => chopTime t engine.toNat p)

/-- DETECT_SAMPLE (R306). -/
def execDetectSample (tile : TileId) (engine : BitVec 3) (code : BitVec 14) : State → Host.Outcome State Fault Refusal :=
  liftTile tile (fun t p =>
    if ((p.tile t).engine engine.toNat).phase != .running then p else detect t engine.toNat code.toNat p)

/-- DETECT_WINDOW_END (R306, R307). -/
def execDetectWindowEnd (tile : TileId) (engine : BitVec 3) : State → Host.Outcome State Fault Refusal :=
  liftTile tile (fun t p =>
    match ((p.tile t).engine engine.toNat).run.window with
    | none => p
    | some w => closeWindow t engine.toNat false (advanceTo w.endAt p))

/-- SHUTTER_END (R308, R309). -/
def execShutterEnd (tile : TileId) (engine : BitVec 3) : State → Host.Outcome State Fault Refusal :=
  liftTile tile (fun t p =>
    let x := (p.tile t).engine engine.toNat
    if x.phase != .shutter then p else endShutter t engine.toNat (advanceTo x.shutterEnd p))

/-- TOOTH_WINDOW_CLOSE (R320). -/
def execToothWindowClose (tile : TileId) (tracker : BitVec 1) : State → Host.Outcome State Fault Refusal :=
  liftTile tile (fun t p =>
    let x := (p.tile t).tracker tracker.toNat
    if !online p t || (x.state != .sync && x.state != .tracking) then p
    else emptyWindow t tracker.toNat (advanceTo (windowCloses x + 1) p))

/-- The earliest tick of some pending firings. -/
def firstFiring (l : List Firing) : Option Nat :=
  match l with
  | [] => none
  | f :: r => some (r.foldl (fun m x => Nat.min m x.at_) f.at_)

/-- ANGLE_FIRING_DUE (R322, R323): the firings of the earliest instant start, or are suppressed. -/
def execAngleFiringDue (tile : TileId) (tracker : BitVec 1) : State → Host.Outcome State Fault Refusal :=
  liftTile tile (fun t p =>
    match firstFiring ((p.tile t).tracker tracker.toNat).firings with
    | none => p
    | some at_ =>
      let p1 := advanceTo at_ p
      fireDue t tracker.toNat (fun f => f.at_ ≤ p1.now) p1)

end Sys2Proof.Machine
end

