-- ==== Sys2Proof/Machine/HostOps.lean ====
section
/-!
DEFINITION. The host port (R76 to R106): its windows, its registers, the taking of packets, and the contact sheet. The service
port takes its packets by the same rules (R108, R449).
-/

namespace Sys2Proof.Machine

/-- The host port changed by `f`, its rings, and its counters. -/
def onHp (f : HostPort → HostPort) (s : State) : State := { s with hp := f s.hp }
def onHpRings (f : HpRings → HpRings) (s : State) : State := onHp (fun h => { h with rings := f h.rings }) s
def onPkg (f : Pkg → Pkg) (s : State) : State := { s with pkg := f s.pkg }

/-- The host port answers: a lead drives it, the package is awake and no far end (R21, R22, R77, R411). -/
def hostAnswers (s : State) : Bool := s.pkg.sh.driven && awake s.pkg && !isFar s.pkg

/-- HP_ERRORS plus `n` (R85). -/
def countErrors (n : Nat) (s : State) : State :=
  onHp (fun h => { h with counts := { h.counts with errors := w32 (satNat 32 (h.counts.errors.toNat + n)) } }) s

/-- SUB_LOST plus `n` (R85). -/
def countLost (n : Nat) (h : HostPort) : HostPort :=
  { h with counts := { h.counts with subLost := w32 (satNat 32 (h.counts.subLost.toNat + n)) } }

/-- BULK_VALID (R89). -/
def bulkValid (p : Pkg) : Nat := (List.range 16).foldl (fun a b => a + 2 ^ b * b2n (p.sh.bulk.find? b).isSome) 0

/-- A register of the configuration window as it is read (R89). -/
def hpRegister (s : State) (off : Nat) : Nat :=
  match off with
  | 0x100 => s.hp.rings.subProd.toNat
  | 0x104 => s.hp.rings.compCons.toNat
  | 0x108 => s.hp.rings.subCons.toNat
  | 0x10C => s.hp.rings.compProd.toNat
  | 0x110 => s.hp.dummy.toNat
  | 0x11C => bulkValid s.pkg
  | 0x120 => s.hp.scratch.toNat
  | _ => 0

/-- A byte of a bulk buffer; a buffer that holds nothing reads as 0 (R96). -/
def bulkByte (p : Pkg) (a : Nat) : Byte :=
  match p.sh.bulk.find? (a / 65536 % 16) with
  | some b => b.data.getD (a % 65536) 0
  | none => 0

/-- A byte of the host port address space (R82, R84). -/
def hpByte (s : State) (a : Nat) : Byte :=
  if a < 0x100 then memGet s.hp.sheet a
  else if a < 0x200 then BitVec.ofNat 8 (hpRegister s (a / 4 * 4) / 2 ^ (8 * (a % 4)))
  else if 0x1000 ≤ a && a < 0x11000 then memGet s.hp.rings.subMem (a - 0x1000)
  else if 0x20000 ≤ a && a < 0x30000 then memGet s.hp.rings.compMem (a - 0x20000)
  else if 0x100000 ≤ a && a < 0x200000 then bulkByte s.pkg a
  else 0

/-- The address after `a` in a burst (R82): the ring windows wrap. -/
def hpNext (a : Nat) : Nat :=
  if a == 0x10FFF then 0x1000 else if a == 0x2FFFF then 0x20000 else (a + 1) % 0x1000000

/-- A burst read of `n` bytes from address `a` (R82). -/
def hpRead (s : State) : Nat → Nat → List Byte
  | 0, _ => []
  | n + 1, a => hpByte s a :: hpRead s n (hpNext a)

/-- A burst write from address `a` (R82): the submission ring takes its bytes; the flag says that some byte was ignored. -/
def hpWriteBytes (m : List Host.Cell) : Nat → List Byte → List Host.Cell × Bool
  | _, [] => (m, false)
  | a, b :: r =>
    let ring := 0x1000 ≤ a && a < 0x11000
    let (m1, ig) := hpWriteBytes (if ring then memSet m (a - 0x1000) b else m) (hpNext a) r
    (m1, ig || !ring)

/-- A poll (R105): HOST_ABSENT clears. -/
def notePoll (s : State) : State := onHp (fun h => { h with absent := false, lastPoll := s.pkg.now }) s

/-- A read of `n` bytes from address `a` (R77, R82, R105): all ones where no tile drives the port. -/
def hostRead (a n : Nat) (s : State) : State :=
  if !hostAnswers s then onHp (fun h => { h with readData := List.replicate n 0xFF }) s
  else
    let s1 := onHp (fun h => { h with readData := hpRead s n a }) s
    if a == 0 && n != 0 then notePoll s1 else s1

/-- Ticks in which a SUB_PROD write reaches the mirror tile (R92). -/
def mirrorTicks : Nat := 5 * usTicks

/-- A new SUB_PROD is valid (R91). -/
def subProdOk (r : HpRings) (v : Word) : Bool := v.toNat % 4 == 0 && (v - r.subCons).toNat ≤ 65536

/-- A write of SUB_PROD (R91, R92). -/
def writeSubProd (v : Word) (s : State) : State :=
  if !subProdOk s.hp.rings v then countErrors 1 s
  else onHpRings (fun r => { r with
    subProd := v
    unmirrored := (r.subProd, s.pkg.now) :: r.unmirrored.filter (fun q => s.pkg.now < q.2 + mirrorTicks) }) s

/-- A new COMP_CONS is valid (R93). -/
def compConsOk (r : HpRings) (v : Word) : Bool := v.toNat % 4 == 0 && (v - r.compCons).toNat ≤ r.compUsed

/-- The held completions that fit are posted (R94), and the bulk buffers that they name begin their 10 s (R96). -/
def postHeld (s : State) : State :=
  onPkg (fun p => forAll s.hp.rings.leaving (fun k q => (bulkNamed k).elim q (fun b => restartBulk b q)) p) (onHp HostPort.flushHeld s)

/-- A write of COMP_CONS (R93, R94, R105): held completions take the space. -/
def writeCompCons (v : Word) (s : State) : State :=
  if !compConsOk s.hp.rings v then countErrors 1 s
  else notePoll (postHeld (onHpRings (fun r => { r with compCons := v }) s))

/-- A write of DUMMY (R89). -/
def writeDummy (v : Word) (s : State) : State :=
  if v.toNat < 4 || 15 < v.toNat then countErrors 1 s else onHp (fun h => { h with dummy := v.extractLsb' 0 4 }) s

/-- A packet with LENGTH `len` can be framed in `used` bytes (R91). -/
def frames (len used : Nat) : Bool := len % 4 == 0 && len ≤ 1016 && 12 + len ≤ used

/-- Packets that can be framed from index `i` on, in `used` bytes (R95). -/
def countFrames (m : List Host.Cell) : Nat → Nat → Nat → Nat
  | 0, _, _ => 0
  | fuel + 1, i, used =>
    let len := leAt (ringGet m i 8) 4 2
    if frames len used then 1 + countFrames m fuel (i + 12 + len) (used - 12 - len) else 0

/-- Bytes in use of the submission ring (R90). -/
def HpRings.subUsed (r : HpRings) : Nat := (r.subProd - r.subCons).toNat

/-- A write of RING_RESET (R95). -/
def writeRingReset (v : Word) (s : State) : State :=
  if 1 < v.toNat then countErrors 1 s
  else if v == 0 then s
  else
    let r := s.hp.rings
    let lost := countFrames r.subMem 16384 r.subCons.toNat r.subUsed
    let r1 : HpRings := { r with subProd := 0, subCons := 0, compProd := 0, compCons := 0, halted := false, unmirrored := [] }
    postHeld (onHp (fun h => countLost lost { h with rings := r1 }) s)

/-- A write of BULK_RELEASE (R96). -/
def writeBulkRelease (v : Word) (s : State) : State :=
  if 0xFFFF < v.toNat then countErrors 1 s
  else onPkg (releaseBulk ((List.range 16).filter (fun b => v.getLsbD b))) s

/-- A write of exactly the four bytes of a register that may be written (R83, R89). -/
def writeRegister (a : Nat) (v : Word) : Option (State → State) :=
  match a with
  | 0x100 => some (writeSubProd v)
  | 0x104 => some (writeCompCons v)
  | 0x110 => some (writeDummy v)
  | 0x114 => some (writeRingReset v)
  | 0x118 => some (writeBulkRelease v)
  | 0x120 => some (onHp (fun h => { h with scratch := v }))
  | _ => none

/-- A write transaction (R82, R83). -/
def hostWrite (a : Nat) (data : List Byte) (s : State) : State :=
  if !hostAnswers s then s
  else match (if data.length == 4 then writeRegister a (w32 (leNat data)) else none) with
    | some f => f s
    | none =>
      let (m, ignored) := hpWriteBytes s.hp.rings.subMem a data
      let s1 := onHpRings (fun r => { r with subMem := m }) s
      if ignored then countErrors 1 s1 else s1

/-- The tags outstanding at a port, and their limit (R41, R108). -/
def portTags (s : State) (svc : Bool) : List OutTag := if svc then s.pkg.sh.service.tags else s.hp.tags
def portLimit (svc : Bool) : Nat := if svc then 64 else 4096

/-- The source of a command with this tag at a port. -/
def portSender (p : Pkg) (svc : Bool) (tag : BitVec 16) : Source :=
  if svc then .service tag p.sh.serviceEra else .host tag p.sh.hostEra

/-- The port may issue the opcode (R108). -/
def mayIssue (svc : Bool) (op : Byte) : Bool := if svc then op != 0xB2 else !(0xC0 ≤ op && op ≤ 0xC3)

/-- Fields of a command packet (R97). -/
def pkOp (b : List Byte) : Byte := b.getD 0 0
def pkTag (b : List Byte) : BitVec 16 := BitVec.ofNat 16 (leAt b 2 2)
def pkLen (b : List Byte) : Nat := leAt b 4 2
def pkTile (b : List Byte) : Nat := leAt b 6 1 % 16
def pkClass (b : List Byte) : Nat := leAt b 6 1 / 16 % 4
def pkPayload (b : List Byte) : List Byte := slice b 8 (pkLen b)

/-- A reserved field of a command header is not zero (R97). -/
def pkReserved (b : List Byte) : Bool := 2 ≤ leAt b 1 1 || 64 ≤ leAt b 6 1 || leAt b 7 1 != 0

/-- The tiles that a command may name (R99, R411): a far end's own port reaches its own package. -/
def namable (p : Pkg) (n : Nat) : Bool :=
  if isFar p then (localOf p n).isSome else (tilesPresent p).testBit n

/-- What R99 finds wrong with a packet: the status, and whether the completion is untagged. -/
def packetError (s : State) (svc : Bool) (b : List Byte) : Option (Byte × Bool) :=
  let p := s.pkg
  let tag := pkTag b
  let op := pkOp b
  let body := b.take (8 + pkLen b)
  if (crc32c body).toNat != leAt b (8 + pkLen b) 4 then some (stBadCheck, true)
  else if (portTags s svc).any (fun o => o.tag == tag) then some (stBadParam, true)
  else if portLimit svc ≤ (portTags s svc).length then some (stCapacity, false)
  else if pkReserved b || pkClass b == 0 then some (stBadParam, false)
  else if !namable p (pkTile b) then some (stBadParam, false)
  else if !knownOp op || !mayIssue svc op then some (stBadOpcode, false)
  else if !lengthOk op (pkPayload b) then some (stBadLength, false)
  else if !allowedAt p p.lead (portSender p svc tag) op (pkPayload b) then some (stPolicy, false)
  else none

/-- The counts that a failed check makes (R99, R472). -/
def countPacketError (st : Byte) (s : State) : State :=
  if st == stBadCheck then
    onHp (fun h => { h with counts := { h.counts with badCheck := incSat h.counts.badCheck } }) s
  else if st == stCapacity then
    onHp (fun h => { h with counts := { h.counts with refusedTags := incSat h.counts.refusedTags } }) s
  else if st == stPolicy then onPkg (refusedByPolicy s.pkg.lead) s
  else s

/-- A completion for a packet that was not taken as a command. -/
def packetAnswer (svc : Bool) (b : List Byte) (st : Byte) (untagged : Bool) (p : Pkg) : Pkg :=
  emit { src := portSender p svc (pkTag b), opcode := pkOp b, status := st, tile := ownNo p p.lead, final := true
         untagged := untagged } p

/-- A command has passed the first of its own checks (R109, R110), and carries another incarnation than that of the tile that
performs it (R46): it is answered before it takes an entry. -/
def staleOnArrival (p : Pkg) (c : Ctx) (op : Byte) (pl : List Byte) : Bool :=
  match localOf p c.tile.toNat with
  | some named => classAdmitted op c.cls && targetAdmitted op named && staleFor p op pl (servingTile p op named)
  | none => false

/-- A command reaches the tile where it takes its entry (R37, R46, R48, R101). -/
def arriveCommand (c : Ctx) (op : Byte) (pl : List Byte) (i : Instr) (t : Nat) (p : Pkg) : Pkg :=
  let done (st : Byte) (final : Bool) : Pkg → Pkg := emit { src := c.src, opcode := op, status := st, tile := ownNo p t, final := final }
  if staleOnArrival p c op pl then done stStaleInc true p
  else match arrive (.command i) t c.cls.toNat (p.now + admissionTicks c.cls.toNat) p with
  | (q, .served) => q
  | (q, .delayed) => done stDelayed false q
  | (q, .refused) => done stCapacity true q

/-- A taken command goes to its target (R16, R36, R48, R110, R423): one that acts on a stopped tile is served by the lead. -/
def routeCommand (c : Ctx) (op : Byte) (pl : List Byte) (i : Instr) (p : Pkg) : Pkg :=
  match localOf p c.tile.toNat with
  | none => if linkOpen p.sh.tether then arriveCommand c op pl i p.lead p else finish c op stTetherLost p.lead p
  | some named =>
    let t := servingTile p op named
    if online p t && (route p p.lead t).isSome then arriveCommand c op pl i t p
    else if actsOnStopped op pl then arriveCommand c op pl i p.lead p
    else finish c op stTileOffline (answerTile p p.lead t) p

/-- A tag becomes outstanding (R104). -/
def addTag (svc : Bool) (tag : BitVec 16) (op : Byte) (tile : Nat) (ordered : Bool) (s : State) : State :=
  let mk (n : Nat) : OutTag := { tag := tag, opcode := op, tile := tile, order := n, ordered := ordered }
  if svc then onPkg (onService (fun v => { v with tags := v.tags ++ [mk ((v.tags.map (·.order)).foldl Nat.max 0 + 1)] })) s
  else onHp (fun h => { h with tags := h.tags ++ [mk h.nextOrder], nextOrder := h.nextOrder + 1 }) s

/-- A framed packet is taken (R99, R104). -/
def takePacket (svc : Bool) (b : List Byte) (s : State) : State :=
  match packetError s svc b with
  | some (st, untagged) =>
    let s1 := if untagged then s else addTag svc (pkTag b) (pkOp b) (pkTile b) false s
    onPkg (packetAnswer svc b st untagged) (countPacketError st s1)
  | none =>
    let p := s.pkg
    let src := portSender p svc (pkTag b)
    let c : Ctx := { src := src, tile := BitVec.ofNat 4 (pkTile b), cls := BitVec.ofNat 2 (pkClass b)
                     epoch := policyEpoch p p.lead src, ordered := leAt b 1 1 == 1 }
    match commandOf c (pkOp b) (pkPayload b) with
    | none => s
    | some i => onPkg (routeCommand c (pkOp b) (pkPayload b) i) (addTag svc (pkTag b) (pkOp b) (pkTile b) c.ordered s)

/-- A lead whose PSRAM cannot hold completions has room in the ring for those of every tag and of one more (R402). -/
def roomUnheld (s : State) : Bool :=
  8192 ≤ (s.pkg.tile s.pkg.lead).rings.kib || s.hp.rings.compUsed + 1152 * (s.hp.tags.length + 1) ≤ 65536

/-- The LX8 takes a packet now (R20, R91, R94, R402). -/
def mayTake (s : State) : Bool :=
  let r := s.hp.rings
  roomUnheld s &&
  hostAnswers s && online s.pkg s.pkg.lead && s.pkg.sh.handover.isNone && !r.halted && r.held.length < 4096 && r.subUsed != 0

/-- The next packet of the submission ring is taken (R91, R99). -/
def takeNext (s : State) : State :=
  let r := s.hp.rings
  let hdr := ringGet r.subMem r.subCons.toNat 8
  let n := 12 + pkLen hdr
  if !frames (pkLen hdr) r.subUsed then
    onPkg (packetAnswer false hdr stBadLength true) (onHpRings (fun r => { r with halted := true }) s)
  else takePacket false (ringGet r.subMem r.subCons.toNat n) (onHpRings (fun r => { r with subCons := r.subCons + BitVec.ofNat 32 n }) s)

/-- The state of a tile as TILE_STATES gives it (R85): a tile of the other package is online or offline as far as is known. -/
def sheetState (p : Pkg) (n : Nat) : Nat :=
  match localOf p n with
  | some t => (p.tile t).boot.state.code
  | none =>
    if farPresent p n then (if p.sh.tether.status.farOnline.getLsbD (n % 8) then 0 else 2) else 15

/-- The event summary of a tile (R85, R408): a tile out of service keeps the bits it last reported. -/
def summaryBytes (s : State) (t : Nat) : List Byte :=
  if online s.pkg t then
    let e := (s.pkg.tile t).events
    le 16 (e.pending &&& ~~~e.masked).toNat
  else (List.range 16).map (fun i => memGet s.hp.sheet (0x20 + 16 * t + i))

/-- The contact sheet (R85) with this GENERATION. -/
def sheetBytes (gen : Word) (s : State) : List Byte :=
  let p := s.pkg
  let h := s.hp
  le 4 gen.toNat ++ le 4 (identWord p) ++ le 4 (healthWord h p) ++ le 2 (tilesPresent p) ++ le 2 (tilesOnline p)
    ++ le 1 p.lead ++ [0] ++ le 2 ((p.tile p.lead).policy portHost).epoch.toNat
    ++ le 4 h.rings.subCons.toNat ++ le 4 h.rings.compProd.toNat ++ le 4 p.sh.counts.overrides.toNat
    ++ (List.range 8).flatMap (summaryBytes s)
    ++ le 4 p.sh.counts.refused1.toNat ++ le 4 p.sh.counts.refused2.toNat ++ le 4 p.sh.counts.refused3.toNat
    ++ le 4 h.counts.refusedTags.toNat ++ le 4 h.counts.badCheck.toNat ++ le 4 h.counts.subLost.toNat
    ++ le 4 h.counts.bulkExpired.toNat ++ le 4 h.counts.errors.toNat
    ++ (List.range 8).map (incarnationOf p)
    ++ (List.range 8).map (fun u => p.sh.tether.status.farInc.getD u 0)
    ++ (List.range 8).map (fun i => BitVec.ofNat 8 (sheetState p (2 * i) + 16 * sheetState p (2 * i + 1)))
    ++ le 2 h.tags.length ++ le 2 h.rings.heldCount ++ le 4 (stamp32 p.now).toNat
    ++ le 4 (firmwareWord (p.tile p.lead).images.print.version) ++ zeros 24 ++ le 4 gen.toNat

/-- The contact sheet is refreshed (R86): GENERATION passes an odd value to the next even one. -/
def refreshSheet (s : State) : State :=
  onHp (fun h => { h with sheet := memOf (sheetBytes (h.generation + 2) s), generation := h.generation + 2
                          refreshedAt := some s.pkg.now }) s

/-- The first tick at which the contact sheet may be refreshed again (R86). -/
def refreshAt (h : HostPort) : Nat :=
  match h.refreshedAt with
  | some a => a + 100 * usTicks
  | none => 0

/-- The contact sheet is refreshed as soon as it may be again (R86). -/
def refreshSpaced (s : State) : State := refreshSheet (onPkg (advanceTo (refreshAt s.hp)) s)

/-- The tags of the host port outstanding at a lost lead are answered TILE_OFFLINE by the new one (R21). Completions that it held
in its PSRAM (R94) went with it. -/
def answerTags (p : Pkg) (h : HostPort) : HostPort :=
  h.tags.foldl (fun a o => a.complete { src := .host o.tag p.sh.hostEra, opcode := o.opcode, status := stTileOffline
                                        tile := ownNo p p.lead, final := true } o.tag)
    { h with rings := { h.rings with held := [] } }

/-- SUB_PROD writes that had not reached the mirror when the lead was lost are undone (R21, R92). -/
def undoUnmirrored (lostAt : Nat) (h : HostPort) : HostPort :=
  let r := h.rings
  let young := r.unmirrored.filter (fun q => lostAt < q.2 + mirrorTicks)
  match young.getLast? with
  | none => { h with rings := { r with unmirrored := [] } }
  | some (v, _) =>
    let v1 := if (v - r.subCons).toNat ≤ r.subUsed then v else r.subCons
    let lost := countFrames r.subMem 16384 v1.toNat (r.subProd - v1).toNat
    countLost lost { h with rings := { r with subProd := v1, unmirrored := [] } }

/-- Tile `new` takes the lead after a loss, and drives the shared balls (R21, R446, R451). -/
def takeLead (new : Nat) (s : State) : State :=
  let s1 := onPkg (fun p => restartBus (onService (fun v => { v with tags := [], tx := [], orphans := [] })
    (onShared (fun x => { x with driven := true }) (setLead new p)))) s
  onHp (fun h => answerTags s1.pkg (undoUnmirrored s.pkg.sh.leadLostAt h)) s1

/-- The other tile of the pair may take the lead (R21, R367). -/
def mayTakeOver (p : Pkg) : Bool :=
  awake p && !p.sh.driven && !online p p.lead && online p (1 - p.lead % 2)

end Sys2Proof.Machine
end

