-- ==== Sys2Proof/Machine/FabricOps.lean ====
section
/-!
DEFINITION. What the events of the fabric do: requests on their way, replies by purpose, admission limits, and tiles in and out
of service (R17, R34 to R51, R365).
-/

namespace Sys2Proof.Machine

/-- The work of a request: itself, or the command it carries (R35, R411). -/
def isWorkOf (r : FabricReq) (w : Work) : Bool :=
  isRequest r w || (match r.purpose, r.op with
    | .far id _, .command .. => workFrom (.far id) w
    | _, _ => false)

/-- The request has arrived: some tile holds or queues its work, or it has crossed the tether. -/
def hasArrived (p : Pkg) (r : FabricReq) : Bool :=
  p.tiles.any (fun q => q.2.fabric.flights.any (fun f => isWorkOf r f.work) || q.2.fabric.queue.any (fun w => isWorkOf r w.work))
    || p.sh.tether.requests.any (fun x => x.2 == r)

/-- A bridge test of a tile on the way from `a` to `b` interrupts the traffic over it (R132). -/
def testHolds (p : Pkg) (a b : Nat) : Bool :=
  a != b && ((route p a b).getD []).any (fun u => testing 3 (p.tile u))

/-- A request that tile `r.origin` has issued reaches its target (R15, R16, R46, R48), once no bridge test holds it (R132). -/
def requestArrives (r : FabricReq) (p : Pkg) : Pkg :=
  match (p.tile r.origin).fabric.out.find? (fun o => o.req == r && o.reply.isNone) with
  | none => p
  | some o =>
    if hasArrived p r || testHolds p r.origin (((localOf p r.tile.toNat).map (meetingTile p r)).getD p.lead) then p
    else
      let p1 := advanceTo o.sentAt p
      match localOf p r.tile.toNat with
      | none => farRequest o p1
      | some t =>
        if (route p r.origin (meetingTile p r t)).isNone then refuseAt (answerTile p r.origin t) r stTileOffline p1
        else requestAt t o p1

/-- The copy that tile `t` holds of a remote point is refreshed (R533). -/
def setCopy (t : Nat) (h : Handle) (r : Rec) (p : Pkg) : Pkg :=
  onTile t (fun tl => { tl with fabric := { tl.fabric with copies := tl.fabric.copies.set (bits h 23 0) r } }) p

/-- A read has come back: the copy takes the record, or turns STALE where the read failed (R29, R533). The record that the copy
then holds comes with it. -/
def readReturns (t : Nat) (h : Handle) (rep : FabReply) (p : Pkg) : Rec × Pkg :=
  let r := if rep.status == stOk then recOfPoint rep.payload else staleForm (copyOf p t h)
  (r, setCopy t h r p)

/-- Hops of the path from tile `a` to the tile numbered `dest` (R15, R16): those of the other package are its own. -/
def hopsTo (a dest : Nat) (p : Pkg) : Nat × Pkg :=
  let hops (b : Nat) : Nat := ((route p a b).getD [a]).length - 1
  match localOf p dest with
  | some b => (hops b, p)
  | none =>
    let (w, q) := takeFree p
    (hops p.lead + w.toNat % 5, q)

/-- The probe's changes as a repeat has come back (R132). -/
def Probe.count (ns : Nat) (ok : Bool) (x : Probe) : Probe :=
  if ok then { x with left := x.left - 1, done := x.done + 1, minNs := Nat.min x.minNs ns, maxNs := Nat.max x.maxNs ns }
  else { x with left := x.left - 1 }

/-- The probes of a tile changed by `f`. -/
def onProbes (t : Nat) (f : List Probe → List Probe) (p : Pkg) : Pkg :=
  onTile t (fun tl => { tl with fabric := { tl.fabric with probes := f tl.fabric.probes } }) p

/-- A repeat of a FABRIC_PROBE has come back (R129, R132): the next goes out, or the command completes. -/
def probeReturns (t id sentAt : Nat) (rep : FabReply) (p : Pkg) : Pkg :=
  match (p.tile t).fabric.probes.find? (fun x => x.req == id) with
  | none => p
  | some x =>
    let y := x.count (satNat 32 ((p.now - sentAt) * 125 / 4)) (rep.status == stOk)
    if y.left == 0 then
      let (h, p1) := hopsTo t x.dest (onProbes t (fun l => l.filter (fun z => z.req != id)) p)
      reply x.ctx 0xF1 t (le 1 h ++ [0] ++ le 2 y.done ++ le 4 y.minNs ++ le 4 y.maxNs) p1
    else
      let next := (p.tile t).fabric.nextId
      issue t x.dest x.ctx.cls.toNat (.probe t) .probe (p.now + 1000 * msTicks)
        (onProbes t (fun l => l.map (fun z => if z.req == id then { y with req := next } else z)) p)

/-- What a reply does at its source, by the purpose of the request (R61, R265, R290, R390, R414, R425, R437, R439). -/
def replyBack (o : Outstanding) (rep : FabReply) (p : Pkg) : Pkg :=
  let t := o.req.origin
  match o.req.purpose, o.req.op with
  | .groupInput _ g, .read h =>
    let (r, q) := readReturns t h rep p
    if ((p.tile t).group g).latchedAt ≤ o.sentAt then latchRemote t g h r q else q
  | .permitCopy, .read h =>
    if rep.status == stOk then
      onShared (fun s => { s with permits := { s.permits with copyAt := s.permits.copyAt.set (bits h 23 0) p.now } })
        (setCopy t h (recOfPoint rep.payload) p)
    else (readReturns t h rep p).2
  | .ringSource _ i, .read h =>
    let (r, q) := readReturns t h rep p
    sourceArrived t i o.sentAt r q
  | .resync, .read h => onSession (fun s => { s with resync := s.resync.erase (t, h) }) (readReturns t h rep p).2
  | .predictor _, .read h => (readReturns t h rep p).2
  | .fanSupply _ _, .read h => (readReturns t h rep p).2
  | .server b, _ => serverReply b o.req.id rep p
  | .client b _, _ => clientReply b o.req.id rep p
  | .probe _, _ => probeReturns t o.req.id o.sentAt rep p
  | .far id _, _ => replyFar id true rep p
  | _, _ => p

/-- A reply returns to its source and frees the entries of its request (R35, R61), once no bridge test holds it (R132). -/
def replyArrives (t id : Nat) (p : Pkg) : Pkg :=
  match (p.tile t).fabric.out.find? (fun o => o.req.id == id && o.reply.isSome) with
  | none => p
  | some o =>
    match o.reply with
    | none => p
    | some rep =>
      if testHolds p ((localOf p rep.tile.toNat).getD p.lead) t then p else
      let p1 := onTile t (fun tl => { tl with fabric := { tl.fabric with out := tl.fabric.out.filter (fun x => x.req != o.req) } }) p
      replyBack o rep (forAll (List.range p.n) (fun u => freeFlights u (isRequest o.req)) p1)

/-- A command or request that was not admitted within its limit (R37, R38). -/
def notAdmitted (t : Nat) (w : Work) (p : Pkg) : Pkg :=
  match w with
  | .command i => match commandParts i with
    | some (c, op, _) => finish c op stCapacity t p
    | none => p
  | .request r => answerBy t r (failure stCapacity) (countRefused r.cls.toNat p)

/-- What waited for a bulk buffer has found none within its limit (R37, R96). -/
def noBuffer (t : Nat) (w : BulkWork) (p : Pkg) : Pkg :=
  match w with
  | .command i => notAdmitted t (.command i) p
  | .delivery c _ => refuseDelivery stCapacity t c p

/-- The admission limit of the work numbered `id` on tile `t` passes (R38, R96). -/
def admissionPasses (t id : Nat) (p : Pkg) : Pkg :=
  match (p.tile t).fabric.queue.find? (fun w => w.order == id) with
  | some w =>
    notAdmitted t w.work (onTile t (fun tl => { tl with fabric := { tl.fabric with
      queue := tl.fabric.queue.filter (fun x => x.order != id) } }) (advanceTo w.limit p))
  | none =>
    match p.sh.bulkWaits.find? (fun w => w.tile == t && w.order == id) with
    | some w =>
      noBuffer t w.work (onShared (fun s => { s with
        bulkWaits := s.bulkWaits.filter (fun x => !(x.tile == t && x.order == id)) }) (advanceTo w.limit p))
    | none => p

/-- A bridge is marked down (R17): event 127 on both tiles, and on an LX8-2 the tile that is not the lead goes Offline, where
TILE_STATE actions that wait for it complete TILE_OFFLINE. -/
def bridgeFails (rx tx : Nat) (p : Pkg) : Pkg :=
  let p1 := onTile rx (fun tl => { tl with fabric := { tl.fabric with down := tl.fabric.down ++ [tx] } }) p
  let p2 := raise tx 127 (raise rx 127 p1)
  let other := 1 - p.lead % 2
  if p.n == 2 && (p.tile other).boot.state != .offline then bootFailed other p2 else p2

/-- A failed repeat of a bridge transfer counts in SYS 6 and is repeated, up to three (R17). -/
def parityError (rx tx failed : Nat) (p : Pkg) : Pkg :=
  if !(bridges p.n rx).contains tx || !bridgeUp p rx tx then p
  else if failed < 3 then onTile rx (fun tl => { tl with fabric := { tl.fabric with repeats := incSat tl.fabric.repeats } }) p
  else bridgeFails rx tx p

/-- The offline mark that is due is made (R48). -/
def makeMark (t : Nat) (p : Pkg) : Pkg :=
  let b := (p.tile t).boot
  if b.marking || b.resetting then dropWriter t (forceMark t p) else p

/-- Tile `t` receives the announcement of another one (R47, R292). -/
def takesAnnouncement (t u : Nat) (p : Pkg) : Pkg :=
  let inc := (p.tile u).boot.incarnation
  let n := ownNo p u
  if !online p t || !online p u || t == u || (p.tile t).fabric.learned.getD n 0 == inc then p
  else
    let p1 := onTile t (fun tl => { tl with fabric := { tl.fabric with
      learned := tl.fabric.learned.set n inc
      copies := tl.fabric.copies.mapVals (fun k r => if k / 1048576 == n then staleForm r else r) } }) p
    let p2 := if holdsModel (p.tile u) && (p.tile t).fabric.learned.getD n 0 != 0 then retractPlan p1 else p1
    raiseWith t 72 (n + 256 * inc.toNat) p2

/-- The tile enters Offline at a failed boot (R51); a first lead that does so leaves the lead to the other tile (R367). -/
def bootFails (t : Nat) (p : Pkg) : Pkg :=
  let p1 := bootFailed t p
  if t == p.lead && !p.sh.driven then onShared (fun s => { s with leadLostAt := Nat.min s.leadLostAt p.now }) p1 else p1

/-- The verdict on an image at boot, check 7 across the tether with it (R460, R467): which versions the tiles of the other package
run no rule gives this package to know, so that part is free. -/
def bootVerdict (p : Pkg) (t : Nat) (img : Image) : Nat × Pkg :=
  let v := imageVerdict p t img
  if v != 0 || !linkOpen p.sh.tether then (v, p)
  else
    let (w, q) := takeFree p
    (if bit w 0 then 0 else 3, q)

/-- The checked tile loads what its flash holds and comes online (R156, R161, R365, R461 to R466); one that has rejected an image
raises event 88. -/
def bootOnline (t : Nat) (rejected : Bool) (p : Pkg) : Pkg :=
  let p1 := comeOnline t (bootVersions t (readSafelight t p))
  recoveryEnds (updateOnline t (if rejected then raise t 88 p1 else p1))

/-- Tile `t` rejects its print at boot (R462, R465): under trial the activation goes back; otherwise the negative becomes the print. -/
def rejectPrint (t verdict : Nat) (p : Pkg) : Pkg :=
  if bit p.sh.update.tilesNew t then rejectImage t verdict p
  else onImages t (swapRoles .rejected) (onUpdate (fun u => { u with result := verdict, rejectTile := BitVec.ofNat 8 t }) p)

/-- The images of a booting tile are checked (R365, R460): a print that fails is rejected, and the negative booted in its place,
where it may be and passes; else the boot fails (R51). -/
def bootImages (t : Nat) (p : Pkg) : Pkg :=
  let s := (p.tile t).images
  let (v, p1) := bootVerdict p t s.print
  if v == 0 then bootOnline t false p1
  else if !bootable s.negState then bootFails t p1
  else
    let (w, p2) := bootVerdict p1 t s.neg
    let p3 := rejectPrint t v p2
    if w == 0 then bootOnline t true p3 else bootFails t p3

/-- A booting tile finishes its boot (R17, R42, R51, R365). -/
def bootCompletes (t : Nat) (ok : Bool) (p : Pkg) : Pkg :=
  let p1 := makeMark t p
  if !ok || (p1.n == 2 && t != p1.lead && !bridgeUp p1 0 1) then bootFails t p1 else bootImages t p1

/-- The lead tile has come online: it drives the shared balls, and the first refresh of the contact sheet follows a package
reset (R86, R365). -/
def leadOnline (t : Nat) (s : State) : State :=
  if t == s.pkg.lead && online s.pkg t && !s.pkg.sh.driven then
    let s1 := takeLead t s
    if s1.hp.refreshedAt.isNone && hostAnswers s1 then refreshSheet s1 else s1
  else s

end Sys2Proof.Machine
end

