-- ==== Sys2Proof/Machine/EvFabric.lean ====
section
/-!
DEFINITION. The events of the fabric and of tiles in and out of service (R17, R34 to R51, R365).
-/

namespace Sys2Proof.Machine

/-- FABRIC_REQUEST (R37, R46, R48). -/
def execFabricRequest (r : FabricReq) : State → Host.Outcome State Fault Refusal :=
  lift (fun p => if awake p then requestArrives r p else p)

/-- FABRIC_REPLY (R35, R61). -/
def execFabricReply (tile : TileId) (id : Nat) : State → Host.Outcome State Fault Refusal :=
  liftTile tile (fun t p => if awake p then replyArrives t id p else p)

/-- ADMISSION_TIMEOUT (R37, R38). -/
def execAdmissionTimeout (tile : TileId) (id : Nat) : State → Host.Outcome State Fault Refusal :=
  liftTile tile (fun t p => admissionPasses t id p)

/-- BRIDGE_PARITY_ERROR (R17). -/
def execBridgeParityError (rx tx : TileId) (failedRepeats : Nat) : State → Host.Outcome State Fault Refusal :=
  liftTile rx (fun t p => if awake p then parityError t tx.toNat failedRepeats p else p)

/-- OFFLINE_MARK (R48). -/
def execOfflineMark (tile : TileId) : State → Host.Outcome State Fault Refusal := liftTile tile makeMark

/-- INCARNATION_ANNOUNCE (R47). -/
def execIncarnationAnnounce (tile announcer : TileId) : State → Host.Outcome State Fault Refusal :=
  liftTile tile (fun t p => if announcer.toNat < p.n then takesAnnouncement t announcer.toNat p else p)

/-- The commands that a tile has begun and not ended when it fails (R101, R112): of each it says itself, before its offline mark, that
it failed with an unknown outcome, or it does not; which is open. A lead that fails answers nobody (R21). -/
def faultReplies (t : Nat) (p : Pkg) : Pkg :=
  let tl := p.tile t
  if t == p.lead then p
  else forAll (tl.fabric.flights.filter (fun f => f.started && !waitsForTile tl.boot f.work)) (fun f q =>
    match f.work with
    | .command i => match commandParts i with
      | some (c, op, _) =>
        let (w, q1) := takeFree q
        if bit w 0 then finish c op stInternalFault t q1 else q1
      | none => q
    | .request _ => q) p

/-- TILE_FAULT (R42): in service the tile goes to Holding; at a boot the boot has failed. -/
def execTileFault (tile : TileId) (code : Word) : State → Host.Outcome State Fault Refusal :=
  liftTile tile (fun t p =>
    let note := onBoot t (fun b => { b with faultCode := code })
    match (p.tile t).boot.state with
    | .online => leaveService t .holding (raise t 127 (faultReplies t (note p)))
    | .restarting => if awake p then bootFails t (makeMark t (note p)) else p
    | _ => p)

/-- TILE_RESTART (R45, R50). -/
def execTileRestart (tile : TileId) : State → Host.Outcome State Fault Refusal :=
  liftTile tile (fun t p =>
    if awake p && (p.tile t).boot.state == .holding then beginRestart t (makeMark t p) else p)

/-- BOOT_COMPLETE (R50, R51, R365). -/
def execBootComplete (tile : TileId) (ok : Bool) : State → Host.Outcome State Fault Refusal := fun s =>
  if tile.toNat < s.pkg.n then
    liftAll (fun s =>
      if awake s.pkg && (s.pkg.tile tile.toNat).boot.state == .restarting then
        leadOnline tile.toNat { s with pkg := bootCompletes tile.toNat ok s.pkg }
      else s) s
  else .fault (.absentTile tile.toNat)

end Sys2Proof.Machine
end

