-- ==== Sys2Proof/Machine/EvHost.lean ====
section
/-!
DEFINITION. The transactions and events of the host port (R20, R21, R76 to R106).
-/

namespace Sys2Proof.Machine

/-- The data bytes of a transaction cross the host port, where it answers (R78, R504). -/
def hostCrosses (received sent : Nat) (s : State) : State :=
  if hostAnswers s then onPkg (fun p => countPort 0x10 p.now received sent p) s else s

/-- A register write of the host, where the port answers (R77, R89). -/
def registerWrite (f : State → State) : State → Host.Outcome State Fault Refusal :=
  liftAll (fun s => if hostAnswers s then f (hostCrosses 4 0 s) else s)

/-- POLL (R82, R105): a read of the contact sheet from offset 0. -/
def execPoll (len : Nat) : State → Host.Outcome State Fault Refusal := liftAll (fun s => hostRead 0 len (hostCrosses 0 len s))

/-- SUB_PROD (R91, R92). -/
def execSubProd (v : Word) : State → Host.Outcome State Fault Refusal := registerWrite (writeSubProd v)

/-- COMP_CONS (R93, R94, R105). -/
def execCompCons (v : Word) : State → Host.Outcome State Fault Refusal := registerWrite (writeCompCons v)

/-- DUMMY (R89). -/
def execDummy (v : Word) : State → Host.Outcome State Fault Refusal := registerWrite (writeDummy v)

/-- HP_RING_RESET (R95). -/
def execHpRingReset (v : Word) : State → Host.Outcome State Fault Refusal := registerWrite (writeRingReset v)

/-- BULK_RELEASE (R96). -/
def execBulkRelease (v : Word) : State → Host.Outcome State Fault Refusal := registerWrite (writeBulkRelease v)

/-- HOST_PORT_WRITE (R82, R83). -/
def execHostPortWrite (addr : BitVec 24) (data : List Byte) : State → Host.Outcome State Fault Refusal :=
  liftAll (fun s => hostWrite addr.toNat data (hostCrosses data.length 0 s))

/-- The six valid command bytes (R79). -/
def validCommand (b : Byte) : Bool := b == 0x8A || b == 0x9A || b == 0xAA || b == 0x0A || b == 0x1A || b == 0x2A

/-- HP_INVALID_COMMAND (R79). -/
def execHpInvalidCommand (cmd : Byte) : State → Host.Outcome State Fault Refusal :=
  liftAll (fun s => if validCommand cmd || !hostAnswers s then s else countErrors 1 s)

/-- HP_BROKEN_BYTE (R83): the whole bytes before it stand. -/
def execHpBrokenByte (isWrite : Bool) (addr : BitVec 24) (data : List Byte) : State → Host.Outcome State Fault Refusal :=
  liftAll (fun s =>
    let s1 := if isWrite then hostWrite addr.toNat data (hostCrosses data.length 0 s)
      else hostRead addr.toNat data.length (hostCrosses 0 data.length s)
    if hostAnswers s then countErrors 1 s1 else s1)

/-- PACKET_TAKE (R91, R99). -/
def execPacketTake : State → Host.Outcome State Fault Refusal :=
  liftAll (fun s => if mayTake s then takeNext s else s)

/-- CONTACT_SHEET_REFRESH (R86): never more often than once per 100 µs. -/
def execContactSheetRefresh : State → Host.Outcome State Fault Refusal :=
  liftAll (fun s => if hostAnswers s then refreshSpaced s else s)

/-- HOST_ABSENT (R105): no poll for 30 s. -/
def execHostAbsent : State → Host.Outcome State Fault Refusal :=
  liftAll (fun s =>
    if !hostAnswers s || !online s.pkg s.pkg.lead || s.hp.absent then s
    else
      onHp (fun h => { h with absent := true })
        (onPkg (fun p => raise p.lead 126 (advanceTo (s.hp.lastPoll + 30 * secTicks) p)) s))

/-- BULK_TIMEOUT (R96): 10 s after the reply is posted. -/
def execBulkTimeout (b : BitVec 4) : State → Host.Outcome State Fault Refusal :=
  liftAll (fun s =>
    match s.pkg.sh.bulk.find? b.toNat with
    | none => s
    | some x =>
      if s.hp.rings.held.any (fun k => bulkNamed k == some b.toNat) then s
      else onHp (fun h => { h with counts := { h.counts with bulkExpired := incSat h.counts.bulkExpired } })
        (onPkg (fun p => releaseBulk [b.toNat] (advanceTo x.until_ p)) s))

/-- The handover changed by `f`. -/
def onHandover (f : Handover → Option Handover) (p : Pkg) : Pkg :=
  onShared (fun x => { x with handover := x.handover.bind f }) p

/-- HANDOVER_BUS_QUIET (R20): every bus port is between frames, or the frames under way at 2 ms are abandoned. -/
def execHandoverBusQuiet : State → Host.Outcome State Fault Refusal :=
  lift (fun p =>
    match p.sh.handover with
    | none => p
    | some h =>
      if h.quietAt.isSome then p
      else
        let end_ := h.startAt + 2 * msTicks
        let p1 := if busSending p || end_ ≤ p.now then abandonFrames (advanceTo end_ p) else p
        onHandover (fun h => some { h with quietAt := some p1.now }) p1)

/-- The handover is given up (R20, R461): the old lead keeps the balls. -/
def abandonHandover (h : Handover) (p : Pkg) : Pkg :=
  let p1 := onHandover (fun _ => none) p
  match h.ctx with
  | some c => finish c 0x03 stRefusedState p.lead p1
  | none => handoverFailed p1

/-- The handover is done (R20): the new lead drives the balls; an activation goes on with the old lead (R461). -/
def completeHandover (h : Handover) (p : Pkg) : Pkg :=
  let old := p.lead
  let new := 1 - old % 2
  let p1 := setLead new (onHandover (fun _ => none) p)
  match h.ctx with
  | some c => reply c 0x03 new (le 1 new ++ zeros 3) p1
  | none => restartInto old (intoNew p1) p1

/-- HANDOVER_MIRROR_COMPLETE (R20): HP_CS_N is high. -/
def execHandoverMirrorComplete : State → Host.Outcome State Fault Refusal :=
  lift (fun p =>
    match p.sh.handover with
    | none => p
    | some h =>
      if h.quietAt.isNone then p
      else if online p (1 - p.lead % 2) then completeHandover h p else abandonHandover h p)

/-- HANDOVER_CS_TIMEOUT (R20): HP_CS_N is low for 1 ms. -/
def execHandoverCsTimeout : State → Host.Outcome State Fault Refusal :=
  lift (fun p =>
    match p.sh.handover with
    | none => p
    | some h => match h.quietAt with
      | none => p
      | some a => abandonHandover h (advanceTo (a + msTicks) p))

/-- LEAD_TAKEOVER (R21). -/
def execLeadTakeover : State → Host.Outcome State Fault Refusal :=
  liftAll (fun s =>
    if mayTakeOver s.pkg && s.pkg.sh.leadLostAt ≤ s.pkg.now then takeLead (1 - s.pkg.lead % 2) s else s)

/-- LEAD_BOOT_TIMEOUT (R367): the first lead is not online in its time. -/
def execLeadBootTimeout : State → Host.Outcome State Fault Refusal :=
  liftAll (fun s =>
    if !awake s.pkg || s.pkg.sh.driven || online s.pkg s.pkg.lead then s
    else
      let s1 := onPkg (advanceTo s.pkg.sh.leadLostAt) s
      if mayTakeOver s1.pkg then takeLead (1 - s1.pkg.lead % 2) s1 else s1)

end Sys2Proof.Machine
end

