-- ==== Sys2Proof/Machine/EvLoops.lean ====
section
/-!
DEFINITION. Events of the loop and table engines and the governor (R60 to R71, R205, R251, R254, R262, R357, R358):
RATE_GROUP_BOUNDARY, REMOTE_READ_TIMEOUT, SLOT_EVALUATION, MACHINE_EVALUATION, GOVERNOR_WINDOW, VCORE_SETTLED, TMR_TICK,
CALENDAR_MINUTE, FLASH_WRITE_COMPLETE.
-/

namespace Sys2Proof.Machine

/-- RATE_GROUP_BOUNDARY (R60, R205): steps 1 to 3 for every group of the tile whose boundary is now, then the latch of this
one. -/
def execRateGroupBoundary (tile : TileId) (group : BitVec 3) : State → Host.Outcome State Fault Refusal :=
  liftTile tile (fun t p =>
    let g := group.toNat
    match boundaryDue p t g with
    | none => p
    | some at_ =>
      if !online p t then p
      else
        let p1 := boundarySteps t (advanceTo at_ p)
        let gr := (p1.tile t).group g
        if gr.enabled && gr.latchDoneAt != some p1.now then latchGroup t g p1 else p1)

/-- REMOTE_READ_TIMEOUT (R61): at boundary + P/2. -/
def execRemoteReadTimeout (tile : TileId) (group : BitVec 3) : State → Host.Outcome State Fault Refusal :=
  liftTile tile (fun t p =>
    let gr := (p.tile t).group group.toNat
    if gr.awaited.isEmpty || !online p t then p else timeoutReads t group.toNat (advanceTo gr.readLimit p))

/-- The loop engine ends an evaluation (R59). -/
def loopEnds (t : Nat) (p : Pkg) : Pkg := onTile t (fun tl => { tl with loopFree := p.now }) p

/-- SLOT_EVALUATION (R205, R206): the result is held until the commit; one that was under way at its deadline is discarded. -/
def execSlotEvaluation (tile : TileId) (slot : BitVec 9) : State → Host.Outcome State Fault Refusal :=
  liftTile tile (fun t p =>
    let n := slot.toNat
    if ((p.tile t).slot n).late then
      loopToken t n true (loopEnds t (onTile t (Tile.onSlot n (fun s => { s with late := false })) p))
    else if slotReady p t n then
      let r := evalSlot (p.tile t) n (tableHandle p)
      workDone t (dGroup ((p.tile t).slot n).desc)
        (loopToken t n false (loopEnds t (onTile t (Tile.onSlot n (fun s => { s with result := some r })) p)))
    else p)

/-- MACHINE_EVALUATION (R251): one that was under way at its deadline ends without a result (R59). -/
def execMachineEvaluation (tile : TileId) (machine : Byte) : State → Host.Outcome State Fault Refusal :=
  liftTile tile (fun t p =>
    let m := machine.toNat
    if ((p.tile t).machine m).late then
      onTile t (fun tl => { tl with tableFree := p.now }) (onMach t m (fun x => { x with late := false }) p)
    else if machineReady p t m then
      let r := evalMachine p t m
      workDone t (machineGroup ((p.tile t).machine m).image) (onTile t (fun tl => { tl with tableFree := p.now }) (onMach t m (fun x => { x with result := some r, since := 0 }) p))
    else p)

/-- The tiles of the package are powered down, the lead's core at retention (R377). -/
def asleep (p : Pkg) : Bool := p.inReset || (p.sh.dark.dark && !p.sh.dark.waking)

/-- GOVERNOR_WINDOW (R70, R365, R377): at the next whole multiple of 10 ms; the governor works from the boot of a tile on, and its
tile need not be online. -/
def execGovernorWindow (tile : TileId) : State → Host.Outcome State Fault Refusal :=
  liftTile tile (fun t p =>
    if asleep p then p
    else
      let p1 := advanceTo (nextMultiple (10 * msTicks) (Nat.max p.now ((p.tile t).gov.windowAt + 1))) p
      onGov t (govWindow (if workWaits (p1.tile t) then 900 else 0) p1.now) p1)

/-- VCORE_SETTLED (R70, R71): changes that waited only for it take effect. -/
def execVcoreSettled (tile : TileId) : State → Host.Outcome State Fault Refusal :=
  liftTile tile (fun t p =>
    if !(p.tile t).gov.settling then p
    else settledChanges t (onGov t (fun g => { g with settling := false }) (advanceTo (p.tile t).gov.settleAt p)))

/-- One counting timer of a tile steps (R254), and stops at 0; under an override the step is discarded (R32). -/
def stepTimer (t n : Nat) (p : Pkg) : Pkg :=
  let v := (readPoint p t (key 6 n)).value
  if overridden (p.tile t) (key 6 n) then countOverridden t p else
  if v == 0 then timerStop t n p else
  let p1 := putNow t (key 6 n) (v - 1) .good p
  if v.toNat ≤ 1 then timerStop t n p1 else p1

/-- A boot from reset is at its first whole millisecond, and the tile has read its safelight table (R365). -/
def bootBegun (p : Pkg) (t : Nat) : Bool :=
  let b := (p.tile t).boot
  (awake p || p.sh.dark.waking) && b.state == .restarting && !b.marking && !b.resetting && b.bootAt < p.now

/-- TMR_TICK (R254, R357, R365, R377): at each whole millisecond the timers that counted before it step, and SYS 36 to 38 show the
rails. -/
def execTmrTick (tile : TileId) (vioMv vholdMv vhvMv : Word) : State → Host.Outcome State Fault Refusal :=
  liftTile tile (fun t p =>
    if asleep p then p
    else
      let last := (p.tile t).points.getD (key 0 36) {}
      let done := last.q == .good && p.now % msTicks == 0 && last.time == stamp p.now
      let p1 := advanceTo (nextMultiple msTicks (if done then p.now + 1 else p.now)) p
      let p2 := putNow t (key 0 38) vhvMv .good (putNow t (key 0 37) vholdMv .good (putNow t (key 0 36) vioMv .good p1))
      if online p t then forAll (((p2.tile t).counting.filter (fun q => q.2 < p2.now)).map (·.1)) (stepTimer t) p2
      else if bootBegun p2 t then readSafelight t p2 else p2)

/-- CALENDAR_MINUTE (R262): at the next whole minute of the clock. -/
def execCalendarMinute (tile : TileId) : State → Host.Outcome State Fault Refusal :=
  liftTile tile (fun t p =>
    let r := p.sh.rtc
    let left := if r.secs.toNat % 60 == 0 && r.sub == 0 then 0 else (60 - r.secs.toNat % 60) * secTicks - r.sub
    if online p t then runCalendars t (advance left p) else p)

/-- FLASH_WRITE_COMPLETE (R236, R358, R458): the write under way of the tile has its commit record. -/
def execFlashWriteComplete (tile : TileId) : State → Host.Outcome State Fault Refusal :=
  liftTile tile (fun t p =>
    if (p.tile t).supply.stopBath && !(p.tile t).supply.holdup then p
    else match nextWrite (p.tile t) with
      | some x => commitWritten t x p
      | none => chunkWritten t p)

end Sys2Proof.Machine
end

