-- ==== Sys2Proof/Machine/EvMotion.lean ====
section
/-!
DEFINITION. Events of the steppers and fans (R331 to R349): STEP_DUE, DWELL_END, HOME_STEP, HOLD_TIME_END, TACH_SPEED_UPDATE,
TACH_LOST_TIMEOUT, START_WINDOW_END, BACKOFF_END, TACH_LOSS_SECOND, FAN_ATTEMPT_RESET, BASELINE_LEVEL_END, AGEING_SAMPLE.
-/

namespace Sys2Proof.Machine

/-- STEP_DUE (R331). -/
def execStepDue (tile : TileId) (unit : BitVec 2) : State → Host.Outcome State Fault Refusal :=
  liftTile tile (fun t p =>
    let u := unit.toNat
    let x := (p.tile t).stepper u
    if x.state != .moving then p else stepperItems t u (takeStep t u (advanceTo x.nextAt p)))

/-- DWELL_END (R331, R332). -/
def execDwellEnd (tile : TileId) (unit : BitVec 2) : State → Host.Outcome State Fault Refusal :=
  liftTile tile (fun t p =>
    let u := unit.toNat
    let x := (p.tile t).stepper u
    if x.state != .dwell then p else stepperItems t u (govern t u (advanceTo x.nextAt p)))

/-- HOME_STEP (R335). -/
def execHomeStep (tile : TileId) (unit : BitVec 2) : State → Host.Outcome State Fault Refusal :=
  liftTile tile (fun t p =>
    let u := unit.toNat
    let x := (p.tile t).stepper u
    if x.state != .homing then p else stepperItems t u (homeDue t u (advanceTo x.nextAt p)))

/-- HOLD_TIME_END (R336). -/
def execHoldTimeEnd (tile : TileId) (unit : BitVec 2) : State → Host.Outcome State Fault Refusal :=
  liftTile tile (fun t p =>
    let u := unit.toNat
    let x := (p.tile t).stepper u
    match x.holdAt with
    | none => p
    | some at_ =>
      if x.state != .standstill then p
      else stepperItems t u (deenergise t u (onStep t u (fun y => { y with holdAt := none }) (advanceTo at_ p))))

/-- A fan unit is configured and its tile in service. -/
def fanLive (p : Pkg) (t u : Nat) : Bool := online p t && ((p.tile t).fan u).state != .unconfigured

/-- TACH_SPEED_UPDATE (R343): at the next whole multiple of 250 ms. -/
def execTachSpeedUpdate (tile : TileId) (unit : BitVec 2) : State → Host.Outcome State Fault Refusal :=
  liftTile tile (fun t p =>
    let u := unit.toNat
    if !fanLive p t u then p
    else
      let done := match ((p.tile t).fan u).samples with | s :: _ => s.1 == p.now | [] => false
      fanUpdate t u (advanceTo (nextMultiple (250 * msTicks) (if done then p.now + 1 else p.now)) p))

/-- TACH_LOST_TIMEOUT (R343, R345). -/
def execTachLostTimeout (tile : TileId) (unit : BitVec 2) : State → Host.Outcome State Fault Refusal :=
  liftTile tile (fun t p =>
    let u := unit.toNat
    let x := (p.tile t).fan u
    match fcTach x.cfg, tachLostDue x with
    | some _, some due => if fanLive p t u then tachLost t u (advanceTo due p) else p
    | _, _ => p)

/-- START_WINDOW_END (R344). -/
def execStartWindowEnd (tile : TileId) (unit : BitVec 2) : State → Host.Outcome State Fault Refusal :=
  liftTile tile (fun t p =>
    let u := unit.toNat
    let x := (p.tile t).fan u
    if !fanLive p t u || x.state != .starting || x.suspended then p
    else
      let p1 := advanceTo x.until_ p
      if (fcTach x.cfg).isNone || x.good then fanStarted t u p1 else fanFailed t u p1)

/-- BACKOFF_END (R344): a backoff always runs to its end. -/
def execBackoffEnd (tile : TileId) (unit : BitVec 2) : State → Host.Outcome State Fault Refusal :=
  liftTile tile (fun t p =>
    let u := unit.toNat
    let x := (p.tile t).fan u
    if !fanLive p t u || x.state != .backoff || x.suspended then p
    else fanObey t u (fanOff t u (advanceTo x.until_ p)))

/-- TACH_LOSS_SECOND (R345). -/
def execTachLossSecond (tile : TileId) (unit : BitVec 2) : State → Host.Outcome State Fault Refusal :=
  liftTile tile (fun t p =>
    let u := unit.toNat
    let x := (p.tile t).fan u
    let held := x.state == .openLoop || (x.state == .running && x.lostAt.isSome)
    if !fanLive p t u || !held || x.suspended then p else judgeLoss t u (advanceTo x.until_ p))

/-- FAN_ATTEMPT_RESET (R344): after 60 s of running with the tachometer good. -/
def execFanAttemptReset (tile : TileId) (unit : BitVec 2) : State → Host.Outcome State Fault Refusal :=
  liftTile tile (fun t p =>
    let u := unit.toNat
    let x := (p.tile t).fan u
    match x.goodSince with
    | some g =>
      if !fanLive p t u || x.suspended || x.state != .running || x.attempts == 0 then p
      else onFanU t u (fun y => { y with attempts := 0 }) (advanceTo (g + 60 * secTicks) p)
    | none => p)

/-- BASELINE_LEVEL_END (R348). -/
def execBaselineLevelEnd (tile : TileId) (unit : BitVec 2) : State → Host.Outcome State Fault Refusal :=
  liftTile tile (fun t p =>
    let u := unit.toNat
    match ((p.tile t).fan u).capture with
    | some c => if fanLive p t u then endLevel t u (advanceTo c.levelEnd p) else p
    | none => p)

/-- AGEING_SAMPLE (R349): at the next whole multiple of 10 s. -/
def execAgeingSample (tile : TileId) (unit : BitVec 2) : State → Host.Outcome State Fault Refusal :=
  liftTile tile (fun t p =>
    let u := unit.toNat
    if !fanLive p t u then p
    else
      let p1 := advanceTo (nextMultiple (10 * secTicks) (Nat.max p.now (((p.tile t).fan u).agedAt + 1))) p
      ageFan t u (onFanU t u (fun x => { x with agedAt := p1.now }) p1))

end Sys2Proof.Machine
end

