-- ==== Sys2Proof/Machine/EvPanel.lean ====
section
/-!
DEFINITION. The events of the panel and the keys (R481 to R498).
-/

namespace Sys2Proof.Machine

/-- Tile 0 serves its panel and keys (R23). -/
def panelServed (p : Pkg) : Bool := awake p && online p 0

/-- PANEL_PHASE (R484, R486). -/
def execPanelPhase : State → Host.Outcome State Fault Refusal :=
  lift (fun p => if panelServed p then panelPhase p else p)

/-- CRACK_CHECK (R484, R489): before an update that waits for it, and at a boot of tile 0. -/
def execCrackCheck (milliohms : Nat) : State → Host.Outcome State Fault Refusal :=
  lift (fun p =>
    let x := p.sh.panel
    let asked := match x.waiting with
      | some (_, _, _, checked) => !checked && online p 0
      | none => (p.tile 0).boot.state == .restarting
    if awake p && x.crackEn && asked then crackResult x.waiting.isNone milliohms p else p)

/-- PANEL_RAILS_PRESENT (R481, R487). -/
def execPanelRailsPresent : State → Host.Outcome State Fault Refusal :=
  lift (fun p =>
    if p.sh.panel.rails then p
    else onPanel (fun x =>
      let y : Panel := { x with rails := true, everPresent := true }
      if panelServed p && x.running.isNone then y.idle else y) p)

/-- PANEL_RAILS_COLLAPSE (R481, R487). -/
def execPanelRailsCollapse : State → Host.Outcome State Fault Refusal :=
  lift (fun p => if p.sh.panel.rails then fastDischarge (onPanel (fun x => { x with rails := false }) p) else p)

/-- DISCHARGE_SWITCH_RELEASE (R487, R498): VHOLD below 2.5 V, the electrodes that the switches hold go to high impedance. -/
def execDischargeSwitchRelease : State → Host.Outcome State Fault Refusal :=
  lift (onPanel (fun x => if x.switches then { x.float with released := true } else x))

/-- KEY_SCAN (R490 to R493): one scan of 1 ms. -/
def execKeyScan (pressed : BitVec 16) : State → Host.Outcome State Fault Refusal :=
  lift (fun p => if panelServed p && bit p.sh.keys.cfg 0 then scanKeys pressed (advance msTicks p) else p)

/-- KEY_INTERRUPT (R492). -/
def execKeyInterrupt : State → Host.Outcome State Fault Refusal :=
  lift (fun p => if panelServed p then writeChanges p else p)

/-- STUCK_KEY (R494). -/
def execStuckKey (k : BitVec 4) : State → Host.Outcome State Fault Refusal :=
  lift (fun p =>
    let i := k.toNat
    let x := p.sh.keys
    if !panelServed p || !bit x.accepted i then p
    else
      let p1 := advanceTo (x.pressedAt.getD i 0 + stuckTicks x) p
      let a := keyBit x.accepted i false
      raise 0 80 (keyEntry i 5 0 a (onKeys (fun y => { y with accepted := a, masked := keyBit y.masked i true }) p1)))

/-- ENCODER_EDGE (R378, R495, R498): an edge while tile 0 does not serve its pins is followed, and counts nothing; in darkroom it can
wake the package. -/
def execEncoderEdge (enc inputB level : Bool) : State → Host.Outcome State Fault Refusal :=
  lift (fun p =>
    onEnc enc (Encoder.edge p.now inputB level (panelServed p && encOn p.sh.keys enc))
      (onKeys (fun k => { k with darkEdge := k.darkEdge || p.sh.dark.dark }) p))

/-- ENCODER_SETTLE (R495). -/
def execEncoderSettle (enc inputB : Bool) : State → Host.Outcome State Fault Refusal :=
  lift (fun p => if panelServed p && encOn p.sh.keys enc then encoderSettles enc inputB p else p)

end Sys2Proof.Machine
end

