-- ==== Sys2Proof/Machine/EvPredictor.lean ====
section
/-!
DEFINITION. Events of the predictor (R273, R286, R289, R290): LIVE_STEP, PLANNING_BOUNDARY, BRACKET_COMPLETE, ADVICE_MESSAGE,
ADVICE_EXPIRY.
-/

namespace Sys2Proof.Machine

/-- LIVE_STEP (R273): at the next package time that is a whole multiple of STEP. -/
def execLiveStep (tile : TileId) : State → Host.Outcome State Fault Refusal :=
  liftTile tile (fun t p =>
    if !online p t then p
    else
      let from_ := if (p.tile t).pred.liveAt == some p.now then p.now + 1 else p.now
      liveStep t (advanceTo (nextMultiple (planStep p * secTicks) from_) p))

/-- PLANNING_BOUNDARY (R289): at the next whole multiple of 60 × CYCLE seconds, while planning runs on an online
coordinator. -/
def execPlanningBoundary : State → Host.Outcome State Fault Refusal := fun s =>
  lift (fun p =>
    let r := planRec p
    if !awake p || !prEnable r || !online p (planCoord p) then p
    else
      let from_ := if p.sh.planner.boundaryAt == some p.now then p.now + 1 else p.now
      planningBoundary s.hp.absent (advanceTo (nextMultiple (60 * prCycle r * secTicks) from_) p)) s

/-- BRACKET_COMPLETE (R286, R287, R289). -/
def execBracketComplete : State → Host.Outcome State Fault Refusal :=
  lift (fun p => if awake p then bracketDone p else p)

/-- The request that carries an advice message to tile `t` and has not been answered (R290). -/
def adviceOut (p : Pkg) (t : Nat) (msg : BitVec 224) : Option FabricReq :=
  ((p.tiles.flatMap (fun q => q.2.fabric.out)).find? (fun o =>
    o.req.op == .advice msg && o.reply.isNone && localOf p o.req.tile.toNat == some t)).map (·.req)

/-- ADVICE_MESSAGE (R290): the request that carries it arrives; a message that no request carries is taken as it is. -/
def execAdviceMessage (tile : TileId) (msg : BitVec 224) : State → Host.Outcome State Fault Refusal :=
  liftTile tile (fun t p =>
    match adviceOut p t msg with
    | some r => if awake p then requestArrives r p else p
    | none => if online p t then receiveAdvice t msg p else p)

/-- The instant at which the advice of a tile next lapses (R290). -/
def adviceLapse (a : Advice) : Option Nat :=
  match a.latent, a.fixedUntil with
  | some (_, x), some y => some (Nat.min x y)
  | some (_, x), none => some x
  | none, y => y

/-- ADVICE_EXPIRY (R290): a latent expiry acts as a RETRACT; a fixed one turns the VARs STALE. -/
def execAdviceExpiry (tile : TileId) : State → Host.Outcome State Fault Refusal :=
  liftTile tile (fun t p =>
    match adviceLapse (p.tile t).pred.advice with
    | none => p
    | some at_ =>
      if !online p t then p
      else
        let p1 := advanceTo at_ p
        let a := (p1.tile t).pred.advice
        if a.latent.any (fun x => x.2 == at_) then restoreAdvice t p1
        else
          let vals := (adviceKeys a.var).map (fun k => (readPoint p1 t k).value)
          onAdvice t (fun a => { a with fixedUntil := none }) (writeAdvice t vals .stale p1))

end Sys2Proof.Machine
end

