-- ==== Sys2Proof/Machine/SupplyOps.lean ====
section
/-!
DEFINITION. Supplies, resets, rate-of-rise monitors, package health and permits, and darkroom (R264, R265, R355 to R380).
-/

namespace Sys2Proof.Machine

/-- The supply of a tile changed by `f`, and the permits of the package. -/
def onSupply (t : Nat) (f : Supply → Supply) (p : Pkg) : Pkg := onTile t (fun tl => { tl with supply := f tl.supply }) p
def onPermits (f : Permits → Permits) (p : Pkg) : Pkg := onShared (fun s => { s with permits := f s.permits }) p

/-- An event of the comparators of a tile (R360 to R362), in whatever state the tile is, but not in package reset. -/
def raiseSupply (t ev : Nat) (p : Pkg) : Pkg := if p.inReset then p else raise t ev p

/-- Every channel of a tile is Off (R156). -/
def chansOff (t : Nat) (p : Pkg) : Pkg := onAllChans t (fun _ c => { c with out := .off }) p

/-- Every permit output is static low, and package health fails (R374). -/
def permitsLow (p : Pkg) : Pkg :=
  onPermits (fun x => { x with health := false, permits := x.permits.mapVals (fun _ q => { q with permitted := false, high := false }) }) p

/-! The stop-bath threshold -/

/-- The erase of the negatives under way ends SUPPLY_LOW (R361). -/
def lowErase (p : Pkg) : Pkg :=
  match p.sh.update.erasing with
  | none => p
  | some (c, _) => finish c 0xC0 stSupplyLow p.lead (onUpdate (fun u => { u with erasing := none, state := .idle }) p)

/-- VIO of tile `t` falls through the stop-bath threshold (R361): the page under way goes on, on hold-up energy. -/
def stopBathFalls (t : Nat) (p : Pkg) : Pkg :=
  let keep := writeUnderWay p t
  let chunk := if keep.isSome then none else chunkUnderWay t p
  let p1 := onSupply t (fun s => { s with stopBath := true, holdup := keep.isSome || chunk.isSome }) p
  raiseSupply t 69 (lowErase (lowWrites t chunk (lowCommits t keep p1)))

/-! Resets -/

/-- A tile as a package reset leaves it until its release: its incarnation is not yet taken, its bridges are whole and its
override count is clear (R17, R74, R363). -/
def tileInReset (cause now t : Nat) (tl : Tile) : Tile :=
  let x := resetTile cause now t tl
  { x with boot := { x.boot with incarnation := tl.boot.incarnation, incLost := tl.boot.incLost, restartFor := [] }
           fabric := {}
           gov := {} }

/-- The shared units as a package reset leaves them (R56, R263, R363, R375, R411, R417, R418, R465, R474, R481). -/
def sharedInReset (s : Shared) : Shared :=
  { lead := s.lead
    permits := { permits := s.permits.permits.mapVals (fun _ x => { enabled := x.enabled, pred := x.pred }) }
    rtc := s.rtc
    tether := { cfg := s.tether.cfg, pairKey := s.tether.pairKey, bulkShare := s.tether.bulkShare, state := .disabled }
    panel := s.panel.cleared
    keys := s.keys.cleared
    update := { updateReset s.update with tilesNew := s.update.tilesNew }
    service := { attached := s.service.attached }
    hostEra := s.hostEra + 1
    serviceEra := s.serviceEra + 1 }

/-- Policies that every tile has written are in force after the reset (R358, R474). -/
def writtenPolicies (p : Pkg) : Pkg :=
  forAll p.sh.policyPend (fun q => onTiles (fun _ tl => { tl with policies := tl.policies.set q.port q.policy })) p

/-- The package goes into reset (R363, R365, R368). A brown-out takes a tile whose page write is under way when that page is
done: its outputs stay until then. -/
def enterReset (cause : Nat) (p : Pkg) : Pkg :=
  if p.inReset then p
  else
    let u := p.sh.update
    let p1 := onTiles (fun t tl => { tl with images := negReset (bit u.tilesNew t) (updateBusy p) tl.images }) (writtenPolicies p)
    let p2 := onTiles (fun t tl =>
      let x := tileInReset cause p.now t tl
      if cause == 2 && tl.supply.holdup then { x with chans := tl.chans } else x) p1
    { p2 with inReset := true, resetCause := cause, sh := sharedInReset p2.sh, outbox := [] }

/-- A package reset of the whole machine (R89, R363). -/
def packageReset (cause : Nat) (s : State) : State :=
  if s.pkg.inReset then s else { s with pkg := enterReset cause s.pkg, hp := HostPort.reset }

/-- The hold-up of a page ends; in reset the channels that waited for it are Off (R363). -/
def holdupEnds (t : Nat) (p : Pkg) : Pkg :=
  let p1 := onSupply t (fun s => { s with holdup := false }) p
  if p.inReset then onTile t (fun tl => { tl with chans := [] }) p1 else p1

/-- The page that a tile completed on hold-up energy is done (R361, R363): no further page is written. -/
def holdupPageDone (t : Nat) (p : Pkg) : Pkg := lowWrites t none (lowCommits t none (holdupEnds t p))

/-- SYS 42 after a release (R364): the straps, with the bit of their conflict. -/
def strapsOf (straps : BitVec 4) : BitVec 5 :=
  straps.zeroExtend 5 ||| (if straps.getLsbD 0 && !straps.getLsbD 3 then (1#5 <<< 4) else 0)

/-- The tiles whose image under trial went back at the reset raise event 88 (R465). -/
def tellFallbacks (p : Pkg) : Pkg :=
  forAll ((List.range p.n).filter (fun t => bit p.sh.update.tilesNew t)) (fun t => raise t 88)
    (onUpdate (fun u => { u with tilesNew := 0, recovery := u.tilesNew != 0 }) p)

/-- Reset release (R45, R52, R363 to R367): straps are sampled and every tile boots; after a power-up the cause is 0 and
package time starts at 0. -/
def releaseReset (straps : BitVec 4) (powerUp : Bool) (p : Pkg) : Pkg :=
  let kept := p.everReleased && !powerUp
  let cause := if kept then p.resetCause else 0
  let now := if kept then p.now else 0
  let p1 : Pkg := { p with inReset := false, everReleased := true, resetCause := cause, straps := strapsOf straps, now := now }
  let p2 := onTiles (fun t tl => resetTile cause now t tl) p1
  let p3 := onShared (fun s => { s with
    lead := b2n (straps.getLsbD 2), driven := false, leadLostAt := now + 200 * msTicks
    tether := { s.tether with state := if straps.getLsbD 3 && bit s.tether.cfg 0 then .down else .disabled } }) p2
  let p4 := tellFallbacks p3
  if (strapsOf straps).getLsbD 4 then raise p4.lead 127 p4 else p4

/-- A core regulator fault (R363): to the others an offline mark, and then a tile reset with cause 5. -/
def coreFault (t : Nat) (p : Pkg) : Pkg :=
  let p1 := chansOff t (leaveService t (resetState p t) p)
  let p2 := onBoot t (fun b => { b with resetting := true, resetCause := 5 }) p1
  if (p2.tile t).boot.marking then p2 else makeMark t p2

/-! Rate-of-rise monitors -/

/-- Word `j` of monitor `m` (R372). -/
def monitorWord (p : Pkg) (t m j : Nat) : Word := (readPoint p t (key 0xC (3840 + 4 * m + j))).value

/-- A point that a monitor may watch (R372). -/
def monitorPoint (p : Pkg) (t : Nat) (h : Handle) : Bool :=
  h.toNat < 0x1000000 && handleTile h == ownNo p t && [2, 4, 7, 8, 9, 0xB, 0xC].contains (handleClass h) && keyValid p t (handleKey h)

/-- The words of a monitor keep the rules of R372. -/
def monitorOk (p : Pkg) (t m : Nat) : Bool :=
  let w1 := monitorWord p t m 1
  monitorPoint p t (monitorWord p t m 0) && 2 ≤ bits w1 8 0 && bits w1 8 0 ≤ 256 && bits w1 15 9 == 0 && bits w1 31 18 == 0
    && 0 < (monitorWord p t m 2).toInt && monitorWord p t m 3 == 0

/-- A usable sample is judged (R373). -/
def judgeSlope (n : Nat) (falling latch : Bool) (limit v : Int) (x : Monitor) : Monitor :=
  let vs := (v :: x.samples).take (n + 1)
  let y := { x with samples := vs }
  if vs.length < n + 1 then y
  else
    let old := vs.getD n 0
    let d := sat32 (if falling then old - v else v - old)
    if limit < divRound (d * 10) n then { y with runOver := x.runOver + 1, under := 0, exceeded := x.exceeded || 2 ≤ x.runOver + 1 }
    else { y with runOver := 0, under := x.under + 1, exceeded := x.exceeded && (latch || x.under + 1 < 10) }

/-- A write of a monitor's words takes effect (R372). -/
def Monitor.renewed (latch : Bool) (x : Monitor) : Monitor :=
  if x.dirty then { exceeded := x.exceeded && !(x.unlatch && latch) } else x

/-- One sample of monitor `m` (R372, R373). -/
def sampleMonitor (t m : Nat) (p : Pkg) : Pkg :=
  let h := monitorWord p t m 0
  let w1 := monitorWord p t m 1
  let latch := bit w1 17
  let x := ((p.tile t).monitors.getD m Monitor.reset).renewed latch
  let put (y : Monitor) (q : Pkg) : Pkg := onTile t (fun tl => { tl with monitors := tl.monitors.set m y }) q
  if !monitorOk p t m then put { invalid := h != noHandle } p
  else
    let r := readPoint p t (handleKey h)
    let binary := handleClass h == 8 || handleClass h == 9
    if !plainUsable r || (binary && f32IsNan r.value) then put { exceeded := x.exceeded } p
    else
      let (v, p1) := pointQ (handleClass h) r.value p
      let y := judgeSlope (bits w1 8 0) (bit w1 16) latch (monitorWord p t m 2).toInt v { x with invalid := false }
      let p2 := put y p1
      if y.exceeded && !x.exceeded then raise t 67 p2 else p2

/-- The sample of every monitor of a tile at the next whole multiple of 100 ms (R373). -/
def sampleMonitors (t : Nat) (p : Pkg) : Pkg :=
  let from_ := match (p.tile t).supply.sampledAt with
    | some a => Nat.max p.now (a + 1)
    | none => p.now
  let p1 := advanceTo (nextMultiple (100 * msTicks) from_) p
  forAll (List.range 64) (sampleMonitor t) (onSupply t (fun s => { s with sampledAt := some p1.now }) p1)

/-! Package health and permits -/

/-- The permit predicate table in force (R264). -/
def permitTable (p : Pkg) : List Byte := (p.tile p.lead).table 3 32

/-- The terms of predicate `i` (R264). -/
def permitTerms (b : List Byte) (i : Nat) : List (List Byte) :=
  let r := pmPred b i
  (List.range (leAt r 2 1)).map (fun j => pmTerm b (leAt r 0 2 + j))

/-- The points that the permit terms name (R265). -/
def permitHandles (p : Pkg) : List Handle :=
  let b := permitTable p
  if b.isEmpty then [] else ((List.range (pmTerms b)).flatMap (fun i => termHandles p (pmTerm b i))).eraseDups

/-- 750 µs, after which a copy is STALE (R265). -/
def copyTicks : Nat := 750 * usTicks

/-- A point as the permit terms see it (R265, R533). -/
def permitLook (p : Pkg) (h : Handle) : Rec :=
  if handleTile h == ownNo p p.lead then readPoint p p.lead (handleKey h)
  else match p.sh.permits.copyAt.find? (bits h 23 0) with
    | some a => if p.now < a + copyTicks then copyOf p p.lead h else staleForm (copyOf p p.lead h)
    | none => staleForm (copyOf p p.lead h)

/-- A predicate is true (R264, R265). -/
def predTrue (p : Pkg) (since : BitVec 128) (i : Nat) : Bool :=
  let b := permitTable p
  !b.isEmpty && i < pmPreds b
    && (evalTerms { look := permitLook p, timers := [], stateMs := 0, since := since, latchUs := p.now / usTicks } p p.lead (permitTerms b i)).1

/-- Package health (R374, R529). -/
def healthHolds (p : Pkg) : Bool :=
  awake p && online p p.lead && p.sh.driven && sealedTile p p.lead && !(p.tile p.lead).supply.stopBath
    && !anyTile p (fun _ tl => tl.boot.state == .offline || tapForces tl.boot.tap)

/-- The reads that refresh the lead's copies (R265): one of each point is out at a time. -/
def refreshCopies (p : Pkg) : Pkg :=
  forAll ((permitHandles p).filter (fun h => handleTile h != ownNo p p.lead)) (fun h q =>
    if (q.tile q.lead).fabric.out.any (fun o => o.req.purpose == .permitCopy && o.req.op == .read h) then q
    else issue q.lead (handleTile h) 0 .permitCopy (.read h) (q.now + copyTicks) q) p

/-- The lead measures its die temperature where a permit term names it (R370). -/
def measureForPermits (p : Pkg) : Pkg :=
  if (permitHandles p).any (fun h => handleTile h == ownNo p p.lead && dieKey (handleKey h)) then measureDie p.lead p else p

/-- Each permit follows its predicate (R375). -/
def judgePermits (p : Pkg) : Pkg :=
  let since := (p.tile p.lead).events.permitSince
  let health := healthHolds p
  onTile p.lead (fun tl => { tl with events := { tl.events with permitSince := 0 } })
    (onPermits (fun x => { x with
      health := health, evalAt := some p.now
      permits := x.permits.mapVals (fun _ q =>
        let ok := q.enabled && health && predTrue p since q.pred.toNat
        { q with permitted := ok, high := q.high && ok }) }) p)

/-- The evaluation at the next whole multiple of 250 µs (R265, R374, R375). -/
def evaluatePermits (p : Pkg) : Pkg :=
  let from_ := match p.sh.permits.evalAt with
    | some a => Nat.max p.now (a + 1)
    | none => p.now
  let p1 := advanceTo (nextMultiple (250 * usTicks) from_) p
  refreshCopies (judgePermits (measureForPermits (forAll [0, 1] (fun t => switchAll t .permits) p1)))

/-- The pulse edge of a permit at the next whole multiple of 500 µs (R375). -/
def pulsePermit (k : Nat) (p : Pkg) : Pkg :=
  let x := p.sh.permits.permits.getD k Permit.reset
  if !x.permitted then p
  else
    let from_ := match x.pulseAt with
      | some a => Nat.max p.now (a + 1)
      | none => p.now
    let p1 := advanceTo (nextMultiple (500 * usTicks) from_) p
    onPermits (fun y => { y with permits := y.permits.modify k Permit.reset (fun q =>
      { q with high := p1.now % msTicks == 0, pulseAt := some p1.now }) }) p1

/-! Darkroom -/

/-- The record of the darkroom request, VAR 4,095 of tile 0 (R376). -/
def darkRequest (p : Pkg) : Rec := readPoint p 0 (key 7 4095)

/-- A flash write, a download, an activation or a health window is in progress (R376). -/
def flashBusy (p : Pkg) : Bool :=
  anyTile p (fun _ tl => tl.supply.holdup || tl.tables.commits.any (fun x => !x.written)) || updateBusy p
    || p.sh.update.state == .downloading || p.sh.update.erasing.isSome || !p.sh.policyPend.isEmpty

/-- Something runs that keeps the package awake (R376). -/
def plantBusy (p : Pkg) : Bool :=
  permitActive p || anyTile p (fun _ tl => unitRuns tl || tl.engines.any (fun q => q.2.phase != .idle))
    || (p.sh.keys.accepted &&& ~~~p.sh.keys.masked) != 0

/-- The request is taken at this check, at which HP_CS_N has a level (R376, R379). -/
def darkTaken (csHigh : Bool) (p : Pkg) : Bool :=
  let r := darkRequest p
  let d := p.sh.dark
  csHigh && online p 0 && r.q == .good && 65536 ≤ r.value.toInt && (!d.woken || d.lastWake / usTicks < r.time.toNat)
    && !plantBusy p && !flashBusy p

/-- A tile other than the lead powers down (R377): a tile reset, its channels Off. -/
def powerDown (t : Nat) (p : Pkg) : Pkg :=
  makeMark t (onBoot t (fun b => { b with resetting := true, resetCause := 6, restartFor := [] }) (leaveService t (resetState p t) p))

/-- The lead tile stops and enters holding (R191, R325, R354, R377): what it had under way is answered; overrides stay. -/
def leadSleeps (p : Pkg) : Pkg :=
  let t := p.lead
  let tl := p.tile t
  let p1 := onAllChans t (fun c => enterHold p.now (safeEntry tl c)) (onBoot t (fun b => { b with state := .holding }) p)
  onTile t (fun x => { x with overrides := tl.overrides }) (restartBus (offlineMark t t p1))

/-- The link ends as the package goes dark (R377, R424). -/
def linkSleeps (p : Pkg) : Pkg :=
  if p.sh.tether.state == .disabled then p
  else if isFar p then (if linkOpen p.sh.tether then loseLink .down p else p)
  else closeLink 1 .down p

/-- The package goes dark (R377): every tile but the lead powers down, the lead stops. -/
def goDark (p : Pkg) : Pkg :=
  let mins := (darkRequest p).value.toNat / 65536
  let p1 := forAll ((List.range p.n).filter (· != p.lead)) powerDown (linkSleeps p)
  onShared (fun s => { s with handover := none, dark := { s.dark with dark := true, waking := false
                                                                      wakeSecs := s.rtc.secs + BitVec.ofNat 32 (60 * mins) } })
    (leadSleeps p1)

/-- Commands that are still outstanding as the package goes dark are answered TILE_OFFLINE (R48). -/
def answerAll (s : State) : State :=
  let p := s.pkg
  let answer (o : OutTag) (src : Source) : Completion :=
    { src := src, opcode := o.opcode, status := stTileOffline, tile := ownNo p p.lead, final := true }
  let s1 := (s.hp.tags.map (fun o => answer o (.host o.tag p.sh.hostEra))
    ++ p.sh.service.tags.map (fun o => answer o (.service o.tag p.sh.serviceEra))).foldl deliver s
  onPkg (onShared (fun x => { x with hostEra := x.hostEra + 1, serviceEra := x.serviceEra + 1 })) s1

/-- Darkroom entry of the whole machine (R377): the contact sheet is refreshed a last time. -/
def enterDark (s : State) : State :=
  let s1 := refreshSpaced (onPkg permitsLow s)
  answerAll (drain (onPkg goDark s1))

/-- Ticks until the clock reaches the minute of the request (R376, R378). -/
def wakeTicks (p : Pkg) : Nat := (p.sh.dark.wakeSecs - p.sh.rtc.secs).toNat * secTicks - p.sh.rtc.sub

/-- A wake source acts (R378). -/
def wakeCode : WakeSource → Nat
  | .rtc => 1 | .key => 2 | .tether => 3 | .hostCs => 4

def mayWake (w : WakeSource) (p : Pkg) : Bool :=
  match w with
  | .rtc => true
  | .key => keysWake p
  | .tether => hasTether p
  | .hostCs => !isFar p

/-- The package wakes (R183, R378 to R380, R499): its tiles return, the others than the lead from their resets. -/
def wakeUp (w : WakeSource) (p : Pkg) : Pkg :=
  let p1 := if w == .rtc then advance (wakeTicks p) p else p
  let p2 := onTiles (fun t tl =>
    if t == p1.lead then { tl with conv := { tl.conv with enabledAt := p1.now, settled := tl.conv.settled &&& 6#3 } }
    else { tl with boot := { tl.boot with bootAt := p1.now }, conv := { tl.conv with enabledAt := p1.now }
                   counters := { tl.counters with fixed := 0 } }) p1
  onShared (fun s => { s with dark := { s.dark with waking := true, woken := true, lastWake := p1.now, wakeSrc := wakeCode w } }) p2

/-- A further source acts while the package wakes (R380): within the same 1 µs the lowest code is recorded. The clock acts at the
minute of the request. -/
def wakeAgain (w : WakeSource) (p : Pkg) : Pkg :=
  let at_ := if w == .rtc then p.now + wakeTicks p else p.now
  onShared (fun s => { s with dark := { s.dark with
    wakeSrc := if at_ < s.dark.lastWake + usTicks then Nat.min s.dark.wakeSrc (wakeCode w) else s.dark.wakeSrc } }) p

/-- The lead tile is in service again (R183, R191, R325, R354, R379): its converters resume once the reference has settled. -/
def resumeLead (p : Pkg) : Pkg :=
  let t := p.lead
  let p1 := advanceTo ((p.tile t).conv.enabledAt + 2 * msTicks) p
  let p2 := onShared (fun s => { s with dark := { s.dark with dark := false, waking := false } })
    (onBoot t (fun b => { b with state := .online }) p1)
  let p3 := onTile t (fun tl => { tl with conv := { tl.conv with
    settled := tl.conv.settled ||| 1#3, skipped := tl.conv.skipped &&& 6#3 } }) p2
  let p4 := onTile t (fun tl => resumeSlots (resumeConverters p3.now tl)) p3
  let p5 := settleChans t (resumeFans t (resumeSteppers t (resumeTrackers t p4)))
  if t == 0 then panelBack p5 else p5

end Sys2Proof.Machine
end

