-- ==== Sys2Proof/Machine/EvSafety.lean ====
section
/-!
DEFINITION. The events of supplies, resets, permits, monitors and darkroom (R265, R355 to R380, R529).
-/

namespace Sys2Proof.Machine

/-- RATE_OF_RISE_SAMPLE (R372, R373). -/
def execRateOfRiseSample (tile : TileId) : State → Host.Outcome State Fault Refusal :=
  liftTile tile (fun t p => if awake p && online p t then sampleMonitors t p else p)

/-- PERMIT_EVALUATION (R265, R374, R375). -/
def execPermitEvaluation : State → Host.Outcome State Fault Refusal :=
  lift (fun p => if awake p && online p p.lead then evaluatePermits p else p)

/-- COPY_STALE_TIMEOUT (R265, R533). -/
def execCopyStaleTimeout (h : Handle) : State → Host.Outcome State Fault Refusal :=
  lift (fun p =>
    match p.sh.permits.copyAt.find? (bits h 23 0) with
    | none => p
    | some a => if awake p && online p p.lead then
        let p1 := advanceTo (a + copyTicks) p
        setCopy p.lead h (staleForm (copyOf p1 p.lead h)) p1
      else p)

/-- PERMIT_PULSE (R375). -/
def execPermitPulse (permit : BitVec 2) : State → Host.Outcome State Fault Refusal :=
  lift (fun p => if awake p then pulsePermit permit.toNat p else p)

/-- DIE_TEMPERATURE (R370, R371): what the sensors read, measured. -/
def execDieTemperature (tile : TileId) (t0 t1 t2 t3 : Word) : State → Host.Outcome State Fault Refusal :=
  liftTile tile (fun t p =>
    let p1 := onSupply t (fun s => { s with die := [t0, t1, t2, t3] }) p
    if awake p && online p t then measureDie t p1 else p1)

/-- POWER_FAIL_WARNING (R360). -/
def execPowerFailWarning (tile : TileId) (active : Bool) : State → Host.Outcome State Fault Refusal :=
  liftTile tile (fun t p =>
    let p1 := onSupply t (fun s => { s with powerFail := active }) p
    if active && !(p.tile t).supply.powerFail then raiseSupply t 70 p1 else p1)

/-- STOP_BATH (R361). -/
def execStopBath (tile : TileId) (active : Bool) : State → Host.Outcome State Fault Refusal :=
  liftTile tile (fun t p =>
    if !active then onSupply t (fun s => { s with stopBath := false }) p
    else if (p.tile t).supply.stopBath then p
    else stopBathFalls t p)

/-- BROWN_OUT (R363, R487): the panel is discharged and the package resets with cause 2. -/
def execBrownOut : State → Host.Outcome State Fault Refusal :=
  liftAll (fun s => onPkg (fun p => onPanel (fun x => { x.ground with discharged := true }) p) (packageReset 2 s))

/-- VCC11_LOW (R363). -/
def execVcc11Low : State → Host.Outcome State Fault Refusal := liftAll (packageReset 3)

/-- VANA_LOW (R363). -/
def execVanaLow : State → Host.Outcome State Fault Refusal := liftAll (packageReset 4)

/-- RESET_N (R363): held low for 1 µs. -/
def execResetN : State → Host.Outcome State Fault Refusal := liftAll (packageReset 1)

/-- RESET_RELEASE (R45, R52, R363 to R367). -/
def execResetRelease (straps : BitVec 4) (powerUp : Bool) : State → Host.Outcome State Fault Refusal :=
  liftAll (fun s =>
    if !s.pkg.inReset then s
    else
      let p := releaseReset straps powerUp s.pkg
      onHp (fun h => { h with sheet := memSet h.sheet 0x10 (BitVec.ofNat 8 p.lead), lastPoll := p.now }) { s with pkg := p })

/-- VHOLD_CHARGE (R362, R487). -/
def execVholdCharge (tile : TileId) (charged : Bool) : State → Host.Outcome State Fault Refusal :=
  liftTile tile (fun t p =>
    let was := (p.tile t).supply
    let p1 := onSupply t (fun s => { s with holdCharged := charged }) p
    if charged then (if t == 0 then onPanel Panel.recharge p1 else p1)
    else if was.holdCharged && !was.stopBath then raiseSupply t 71 p1
    else p1)

/-- VRTC_LOSS (R45, R56). -/
def execVrtcLoss : State → Host.Outcome State Fault Refusal :=
  lift (fun p =>
    onTiles (fun _ tl => { tl with boot := { tl.boot with incLost := true }, supply := { tl.supply with vrtcGone := true } })
      (onShared (fun s => { s with rtc := {} }) p))

/-- HOLDUP_PAGE_DONE (R361, R363): no further page is written, and a brown-out that waited for the page takes the tile. -/
def execHoldupPageDone (tile : TileId) : State → Host.Outcome State Fault Refusal :=
  liftTile tile (fun t p =>
    if (p.tile t).supply.holdup then holdupPageDone t p else p)

/-- CORE_REGULATOR_FAULT (R363). -/
def execCoreRegulatorFault (tile : TileId) : State → Host.Outcome State Fault Refusal :=
  liftTile tile (fun t p => if p.inReset || (p.sh.dark.dark && t != p.lead) then p else coreFault t p)

/-- TAP_INSTRUCTION (R528, R529): EXTEST, CLAMP and HIGHZ turn every channel of the tile Off; leaving them resets the package. -/
def execTapInstruction (tile : TileId) (instr : TapInstr) : State → Host.Outcome State Fault Refusal := fun s =>
  if tile.toNat < s.pkg.n then
    liftAll (fun s =>
      let t := tile.toNat
      let forced := tapForces (s.pkg.tile t).boot.tap
      let s1 := onPkg (loadTap t instr) s
      if tapForces instr then onPkg (fun p => permitsLow (chansOff t p)) s1
      else if forced then packageReset 1 s1
      else s1) s
  else .fault (.absentTile tile.toNat)

/-- DARKROOM_CHECK (R376, R377): once per second. -/
def execDarkroomCheck (s : State) (csHigh : Bool := true) : Host.Outcome State Fault Refusal :=
  liftAll (fun s =>
    if !awake s.pkg || !online s.pkg s.pkg.lead || !s.pkg.sh.driven then s
    else
      let s1 := onPkg (advanceToMultiple secTicks) s
      if darkTaken csHigh s1.pkg then enterDark s1 else s1) s

/-- DARKROOM_WAKE (R378 to R380). -/
def execDarkroomWake (source : WakeSource) : State → Host.Outcome State Fault Refusal :=
  lift (fun p =>
    if p.inReset || !p.sh.dark.dark || !mayWake source p then p
    else if p.sh.dark.waking then wakeAgain source p
    else wakeUp source p)

/-- DARKROOM_RESUME (R379): the host port answers with a consistent contact sheet. -/
def execDarkroomResume : State → Host.Outcome State Fault Refusal :=
  liftAll (fun s =>
    if s.pkg.inReset || !s.pkg.sh.dark.waking then s
    else
      let s1 := onPkg resumeLead s
      if hostAnswers s1 then refreshSheet s1 else s1)

end Sys2Proof.Machine
end

