-- ==== Sys2Proof/Machine/EvService.lean ====
section
/-!
DEFINITION. The service port (R447 to R452).
-/

namespace Sys2Proof.Machine

/-- The service port works: a cable is attached, and a lead in service drives it (R447). -/
def serviceWorks (p : Pkg) : Bool := awake p && p.sh.driven && online p p.lead && p.sh.service.attached

/-- SVC_DET_N (R448, R451): its fall unlocks the port, its rise abandons what is being received or sent. -/
def execSvcDetN (level : Bool) : State → Host.Outcome State Fault Refusal :=
  lift (onService (fun v =>
    if level then { v with attached := false, baud := none, tx := [], line := [], orphans := v.tags.map (·.tag) }
    else if v.attached then v else { v with attached := true, baud := none }))

/-- SERVICE_BAUD_LOCK (R448): a 0x55 at a rate from 115,200 to 3,000,000 bit/s. -/
def execServiceBaudLock (baud : Nat) : State → Host.Outcome State Fault Refusal :=
  lift (fun p =>
    if !serviceWorks p || p.sh.service.baud.isSome || baud < 115200 || 3000000 < baud then p
    else onService (fun v => { v with baud := some baud, rate := baud, lastAt := p.now }) p)

/-- SERVICE_UNLOCK_TIMEOUT (R448): 1 s without a character. -/
def execServiceUnlockTimeout : State → Host.Outcome State Fault Refusal :=
  lift (fun p =>
    if p.sh.service.baud.isNone then p
    else onService (fun v => { v with baud := none }) (advanceTo (p.sh.service.lastAt + secTicks) p))

/-- SERVICE_PACKET (R449): the bytes after the sync pair, framed from the header LENGTH. -/
def execServicePacket (packet : List Byte) : State → Host.Outcome State Fault Refusal :=
  liftAll (fun s =>
    if !serviceWorks s.pkg || s.pkg.sh.service.baud.isNone || packet.length < 8 then s
    else
      let s1 := onPkg (fun p => countPort 0x11 p.now (2 + packet.length) 0 (onService (fun v => { v with lastAt := p.now }) p)) s
      let len := pkLen packet
      if len % 4 != 0 || 1016 < len then onPkg (packetAnswer true packet stBadLength true) s1
      else if packet.length != 12 + len then s
      else takePacket true packet s1)

/-- SERVICE_GAP_TIMEOUT (R449): the packet is discarded and counted in SYS 53. -/
def execServiceGapTimeout : State → Host.Outcome State Fault Refusal :=
  lift (fun p =>
    if !serviceWorks p || p.sh.service.baud.isNone then p
    else countSvcDropped (onService (fun v => { v with lastAt := p.now }) p))

end Sys2Proof.Machine
end

