-- ==== Sys2Proof/Machine/EvTether.lean ====
section
/-!
DEFINITION. The events of the tether (R414 to R425): received frames, its timers, suspicion, loss and rejoin.
-/

namespace Sys2Proof.Machine

/-- HELLO (R414, R416). -/
def execHello (f : TFrame) : State → Host.Outcome State Fault Refusal :=
  lift (received ftHello (f.payload.length == 28) f (gotHello f.payload))

/-- IDLE (R416, R422). -/
def execIdle (f : TFrame) : State → Host.Outcome State Fault Refusal :=
  lift (received ftIdle f.payload.isEmpty f id)

/-- TIME (R421): a forward step reaches the instants of the host port too. -/
def execTime (f : TFrame) : State → Host.Outcome State Fault Refusal :=
  liftAll (fun s =>
    let after := received ftTime (f.payload.length == 24) f (fun p => (gotTime f.payload p).2) s.pkg
    { s with pkg := after, hp := s.hp.shift (after.now - s.pkg.now) })

/-- CLOSE (R423, R424): a loss; after reason 1 the far end falls silent. -/
def execClose (f : TFrame) : State → Host.Outcome State Fault Refusal :=
  lift (received ftClose (f.payload.length == 4) f (fun p =>
    let p1 := if linkOpen p.sh.tether then loseLink .lost p else p
    if isFar p && leAt f.payload 0 1 == 1 then onTether (fun te => { te with silent := some p.now }) p1 else p1))

/-- TETHER_REQUEST (R414): a frame that does not complete its request has no effect of its own. -/
def execTetherRequest (f : TFrame) (req : Option FabricReq) : State → Host.Outcome State Fault Refusal :=
  lift (received ftRequest true f (match req with
    | some r => gotRequest r
    | none => id))

/-- TETHER_REPLY (R414): a frame that does not complete its reply has no effect of its own. -/
def execTetherReply (f : TFrame) (id : Nat) (reply : Option FabReply) : State → Host.Outcome State Fault Refusal :=
  lift (received ftReply true f (match reply with
    | some rep => gotReply id rep
    | none => fun p => p))

/-- ANNOUNCE (R47, R425). -/
def execAnnounce (f : TFrame) : State → Host.Outcome State Fault Refusal :=
  lift (received ftAnnounce (f.payload.length == 8) f (gotAnnounce f.payload))

/-- PAIR (R417). -/
def execPair (f : TFrame) : State → Host.Outcome State Fault Refusal :=
  lift (received ftPair (f.payload.length == 32) f (gotPair f.payload))

/-- PAIR_TIMEOUT (R417): no answer for 1 s. -/
def execPairTimeout : State → Host.Outcome State Fault Refusal :=
  lift (fun p =>
    match p.sh.tether.pairing with
    | none => p
    | some x =>
      let p1 := onTether (fun te => { te with pairing := none }) (advanceTo (x.startAt + secTicks) p)
      match x.ctx with
      | some c => finish c 0x89 stRefusedState p1.lead p1
      | none => p1)

/-- Table event 31 has been raised on the lead since the other end fell silent (R424). -/
def callsNear (p : Pkg) (since : Nat) : Bool :=
  let e := (p.tile p.lead).events
  e.raised.getLsbD 125 && since ≤ e.lastAt.getD 125 0

/-- HELLO_TIMER (R416, R424): a HELLO every 100 ms until a session starts. -/
def execHelloTimer : State → Host.Outcome State Fault Refusal :=
  lift (fun p0 =>
    let p := match p0.sh.tether.silent with
      | some at_ => if callsNear p0 at_ then onTether (fun te => { te with silent := none }) p0 else p0
      | none => p0
    if !mayGreet p then p
    else sendHello (match p.sh.tether.session.helloAt with
      | some at_ => advanceTo (at_ + 100 * msTicks) p
      | none => p))

/-- IDLE_TIMER (R416): 2 ms without a sent frame. -/
def execIdleTimer : State → Host.Outcome State Fault Refusal :=
  lift (fun p =>
    let te := p.sh.tether
    if !tetherRuns p || !(linkOpen te || (mayGreet p && te.session.sentHello)) then p
    else tetherSend ftIdle [] (advanceTo (te.session.lastSentAt + 2 * msTicks) p))

/-- TIME_TIMER (R421): the near end's TIME frames, 1 ms apart for the first four of a session, then 10 ms. -/
def execTimeTimer : State → Host.Outcome State Fault Refusal :=
  lift (fun p =>
    let te := p.sh.tether
    if !tetherRuns p || isFar p || !linkOpen te then p
    else sendTime (advanceTo (te.session.lastTimeSent + (if te.session.timesSent < 4 then 1 else 10) * msTicks) p))

/-- TETHER_SUSPECT (R422): 20 ms without a valid frame. -/
def execTetherSuspect : State → Host.Outcome State Fault Refusal :=
  lift (fun p =>
    let te := p.sh.tether
    if !awake p || te.state != .up then p
    else
      let p1 := advanceTo (te.session.lastValidAt + 20 * msTicks) p
      raise p1.lead 73 (onTether (fun te => { te with state := .suspect }) p1))

/-- TETHER_LOST (R423): 100 ms without a valid frame. -/
def execTetherLost : State → Host.Outcome State Fault Refusal :=
  lift (fun p =>
    let te := p.sh.tether
    if !awake p || !linkOpen te then p
    else loseLink .lost (advanceTo (te.session.lastValidAt + 100 * msTicks) p))

/-- RESYNC_COMPLETE (R425): every resync read has come back. -/
def execResyncComplete : State → Host.Outcome State Fault Refusal :=
  lift (fun p =>
    let te := p.sh.tether
    if !awake p || te.state != .rejoining || !te.session.announced || !te.session.resync.isEmpty then p
    else linkUp p)

end Sys2Proof.Machine
end

