-- ==== Sys2Proof/Machine/Dispatch.lean ====
section
/-!
DEFINITION. Which meaning each row has.
-/

namespace Sys2Proof.Machine

def exec (i : Instr) (s : State) : Host.Outcome State Fault Refusal :=
  match i with
  | .nop c => Sys2Proof.Machine.execNop c s
  | .identify c => Sys2Proof.Machine.execIdentify c s
  | .tileState c action ei rsv => Sys2Proof.Machine.execTileState c action ei rsv s
  | .leadHandover c => Sys2Proof.Machine.execLeadHandover c s
  | .health c => Sys2Proof.Machine.execHealth c s
  | .timeSet c secs => Sys2Proof.Machine.execTimeSet c secs s
  | .governor c ceil floor slack flags rsv => Sys2Proof.Machine.execGovernor c ceil floor slack flags rsv s
  | .safelightLoad c first count rsv entries => Sys2Proof.Machine.execSafelightLoad c first count rsv entries s
  | .permitConfig c permit enable pred => Sys2Proof.Machine.execPermitConfig c permit enable pred s
  | .pointRead c h => Sys2Proof.Machine.execPointRead c h s
  | .pointWrite c h v ei rsv => Sys2Proof.Machine.execPointWrite c h v ei rsv s
  | .pointReadMulti c hs => Sys2Proof.Machine.execPointReadMulti c hs s
  | .pointWriteMulti c ei rsv pairs => Sys2Proof.Machine.execPointWriteMulti c ei rsv pairs s
  | .pointOverride c h v ei rsv => Sys2Proof.Machine.execPointOverride c h v ei rsv s
  | .pointRelease c h ei rsv => Sys2Proof.Machine.execPointRelease c h ei rsv s
  | .channelConfig c ch ei rsv rec => Sys2Proof.Machine.execChannelConfig c ch ei rsv rec s
  | .channelStatus c ch rsv => Sys2Proof.Machine.execChannelStatus c ch rsv s
  | .channelClear c ch ei mask => Sys2Proof.Machine.execChannelClear c ch ei mask s
  | .seqConfig c adc seq count rsv entries => Sys2Proof.Machine.execSeqConfig c adc seq count rsv entries s
  | .seqStart c adc seq mode trig => Sys2Proof.Machine.execSeqStart c adc seq mode trig s
  | .seqStatus c adc rsv => Sys2Proof.Machine.execSeqStatus c adc rsv s
  | .refSelect c adc ref rsv => Sys2Proof.Machine.execRefSelect c adc ref rsv s
  | .loopWrite c slot ei rsv desc => Sys2Proof.Machine.execLoopWrite c slot ei rsv desc s
  | .loopRead c slot rsv => Sys2Proof.Machine.execLoopRead c slot rsv s
  | .loopMode c slot mode ei man => Sys2Proof.Machine.execLoopMode c slot mode ei man s
  | .loopClearFlags c slot mask ei => Sys2Proof.Machine.execLoopClearFlags c slot mask ei s
  | .rateGroupConfig c group enable rsv n => Sys2Proof.Machine.execRateGroupConfig c group enable rsv n s
  | .tableLoad c kind rsv idx off chunk => Sys2Proof.Machine.execTableLoad c kind rsv idx off chunk s
  | .tableCommit c kind rsv idx len crc => Sys2Proof.Machine.execTableCommit c kind rsv idx len crc s
  | .tableRead c kind copy idx off len => Sys2Proof.Machine.execTableRead c kind copy idx off len s
  | .machineControl c m action ei => Sys2Proof.Machine.execMachineControl c m action ei s
  | .modelLoad c part rsv first count rsv2 recs => Sys2Proof.Machine.execModelLoad c part rsv first count rsv2 recs s
  | .modelRead c part rsv first count rsv2 => Sys2Proof.Machine.execModelRead c part rsv first count rsv2 s
  | .identControl c node action rsv lambda => Sys2Proof.Machine.execIdentControl c node action rsv lambda s
  | .planConfig c rec => Sys2Proof.Machine.execPlanConfig c rec s
  | .planStatus c zone rsv => Sys2Proof.Machine.execPlanStatus c zone rsv s
  | .planFix c plan => Sys2Proof.Machine.execPlanFix c plan s
  | .planVeto c plan => Sys2Proof.Machine.execPlanVeto c plan s
  | .capacityConfig c zone prio weight => Sys2Proof.Machine.execCapacityConfig c zone prio weight s
  | .profileLoad c program count rsv instrs => Sys2Proof.Machine.execProfileLoad c program count rsv instrs s
  | .profileFire c engine program ei rsv param => Sys2Proof.Machine.execProfileFire c engine program ei rsv param s
  | .profileCancel c engine ei rsv => Sys2Proof.Machine.execProfileCancel c engine ei rsv s
  | .profileStatus c engine rsv => Sys2Proof.Machine.execProfileStatus c engine rsv s
  | .angleConfig c tracker ei rsv rec => Sys2Proof.Machine.execAngleConfig c tracker ei rsv rec s
  | .angleSchedule c tracker count rsv entries => Sys2Proof.Machine.execAngleSchedule c tracker count rsv entries s
  | .stepperConfig c unit ei rsv rec => Sys2Proof.Machine.execStepperConfig c unit ei rsv rec s
  | .stepperMove c unit ei rsv target => Sys2Proof.Machine.execStepperMove c unit ei rsv target s
  | .stepperStop c unit ei rsv => Sys2Proof.Machine.execStepperStop c unit ei rsv s
  | .stepperHome c unit ei dir rsv => Sys2Proof.Machine.execStepperHome c unit ei dir rsv s
  | .fanConfig c unit ei rsv rec => Sys2Proof.Machine.execFanConfig c unit ei rsv rec s
  | .fanStatus c unit rsv => Sys2Proof.Machine.execFanStatus c unit rsv s
  | .fanBaseline c unit ei rsv => Sys2Proof.Machine.execFanBaseline c unit ei rsv s
  | .ringConfig c id desc => Sys2Proof.Machine.execRingConfig c id desc s
  | .ringRead c id cursor limit => Sys2Proof.Machine.execRingRead c id cursor limit s
  | .ringReset c id => Sys2Proof.Machine.execRingReset c id s
  | .eventMask c word rsv mask => Sys2Proof.Machine.execEventMask c word rsv mask s
  | .eventRead c => Sys2Proof.Machine.execEventRead c s
  | .busConfig c port rsv rec => Sys2Proof.Machine.execBusConfig c port rsv rec s
  | .busSend c port rsv len frame => Sys2Proof.Machine.execBusSend c port rsv len frame s
  | .busMapLoad c port list first entries => Sys2Proof.Machine.execBusMapLoad c port list first entries s
  | .busStatus c port rsv => Sys2Proof.Machine.execBusStatus c port rsv s
  | .tetherConfig c rec => Sys2Proof.Machine.execTetherConfig c rec s
  | .tetherPair c action rsv => Sys2Proof.Machine.execTetherPair c action rsv s
  | .tetherStatus c => Sys2Proof.Machine.execTetherStatus c s
  | .panelUpdate c wave rsv states => Sys2Proof.Machine.execPanelUpdate c wave rsv states s
  | .panelConfig c rec => Sys2Proof.Machine.execPanelConfig c rec s
  | .keyConfig c rec => Sys2Proof.Machine.execKeyConfig c rec s
  | .counterConfig c n mode src sel window => Sys2Proof.Machine.execCounterConfig c n mode src sel window s
  | .counterRead c n rsv => Sys2Proof.Machine.execCounterRead c n rsv s
  | .loupeConfig c k src rsv => Sys2Proof.Machine.execLoupeConfig c k src rsv s
  | .loupeRead c first count => Sys2Proof.Machine.execLoupeRead c first count s
  | .policyLoad c port rsv epoch rules => Sys2Proof.Machine.execPolicyLoad c port rsv epoch rules s
  | .policyRead c port rsv => Sys2Proof.Machine.execPolicyRead c port rsv s
  | .ownerLock c set rsv => Sys2Proof.Machine.execOwnerLock c set rsv s
  | .entropyRead c bytes rsv => Sys2Proof.Machine.execEntropyRead c bytes rsv s
  | .updateBegin c len hdr => Sys2Proof.Machine.execUpdateBegin c len hdr s
  | .updateData c off data => Sys2Proof.Machine.execUpdateData c off data s
  | .updateEnd c crc => Sys2Proof.Machine.execUpdateEnd c crc s
  | .activate c conf rsv window => Sys2Proof.Machine.execActivate c conf rsv window s
  | .fix c => Sys2Proof.Machine.execFix c s
  | .updateStatus c => Sys2Proof.Machine.execUpdateStatus c s
  | .selfTest c mask => Sys2Proof.Machine.execSelfTest c mask s
  | .fabricProbe c dest repeats rsv => Sys2Proof.Machine.execFabricProbe c dest repeats rsv s
  | .poll len => Sys2Proof.Machine.execPoll len s
  | .subProd v => Sys2Proof.Machine.execSubProd v s
  | .compCons v => Sys2Proof.Machine.execCompCons v s
  | .dummy v => Sys2Proof.Machine.execDummy v s
  | .hpRingReset v => Sys2Proof.Machine.execHpRingReset v s
  | .bulkRelease v => Sys2Proof.Machine.execBulkRelease v s
  | .hostPortWrite addr data => Sys2Proof.Machine.execHostPortWrite addr data s
  | .hpInvalidCommand cmd => Sys2Proof.Machine.execHpInvalidCommand cmd s
  | .hpBrokenByte isWrite addr data => Sys2Proof.Machine.execHpBrokenByte isWrite addr data s
  | .packetTake => Sys2Proof.Machine.execPacketTake s
  | .contactSheetRefresh => Sys2Proof.Machine.execContactSheetRefresh s
  | .hostAbsent => Sys2Proof.Machine.execHostAbsent s
  | .bulkTimeout b => Sys2Proof.Machine.execBulkTimeout b s
  | .handoverBusQuiet => Sys2Proof.Machine.execHandoverBusQuiet s
  | .handoverMirrorComplete => Sys2Proof.Machine.execHandoverMirrorComplete s
  | .handoverCsTimeout => Sys2Proof.Machine.execHandoverCsTimeout s
  | .leadTakeover => Sys2Proof.Machine.execLeadTakeover s
  | .leadBootTimeout => Sys2Proof.Machine.execLeadBootTimeout s
  | .fabricRequest r => Sys2Proof.Machine.execFabricRequest r s
  | .fabricReply tile id => Sys2Proof.Machine.execFabricReply tile id s
  | .admissionTimeout tile id => Sys2Proof.Machine.execAdmissionTimeout tile id s
  | .bridgeParityError rx tx failedRepeats => Sys2Proof.Machine.execBridgeParityError rx tx failedRepeats s
  | .offlineMark tile => Sys2Proof.Machine.execOfflineMark tile s
  | .incarnationAnnounce tile announcer => Sys2Proof.Machine.execIncarnationAnnounce tile announcer s
  | .tileFault tile code => Sys2Proof.Machine.execTileFault tile code s
  | .tileRestart tile => Sys2Proof.Machine.execTileRestart tile s
  | .bootComplete tile ok => Sys2Proof.Machine.execBootComplete tile ok s
  | .rateGroupBoundary tile group => Sys2Proof.Machine.execRateGroupBoundary tile group s
  | .remoteReadTimeout tile group => Sys2Proof.Machine.execRemoteReadTimeout tile group s
  | .slotEvaluation tile slot => Sys2Proof.Machine.execSlotEvaluation tile slot s
  | .machineEvaluation tile machine => Sys2Proof.Machine.execMachineEvaluation tile machine s
  | .governorWindow tile => Sys2Proof.Machine.execGovernorWindow tile s
  | .vcoreSettled tile => Sys2Proof.Machine.execVcoreSettled tile s
  | .tmrTick tile vioMv vholdMv vhvMv => Sys2Proof.Machine.execTmrTick tile vioMv vholdMv vhvMv s
  | .calendarMinute tile => Sys2Proof.Machine.execCalendarMinute tile s
  | .flashWriteComplete tile => Sys2Proof.Machine.execFlashWriteComplete tile s
  | .comparatorEdge tile pin pinUv => Sys2Proof.Machine.execComparatorEdge tile pin pinUv s
  | .inputFilterExpiry tile ch => Sys2Proof.Machine.execInputFilterExpiry tile ch s
  | .isolationOpen tile ch => Sys2Proof.Machine.execIsolationOpen tile ch s
  | .isolationClose tile ch => Sys2Proof.Machine.execIsolationClose tile ch s
  | .vhvThreshold tile low => Sys2Proof.Machine.execVhvThreshold tile low s
  | .blankingEnd tile ch => Sys2Proof.Machine.execBlankingEnd tile ch s
  | .limitTrip tile ch => Sys2Proof.Machine.execLimitTrip tile ch s
  | .budgetTrip tile group amps => Sys2Proof.Machine.execBudgetTrip tile group amps s
  | .thermalBudget meas => Sys2Proof.Machine.execThermalBudget meas s
  | .channelRetry tile ch => Sys2Proof.Machine.execChannelRetry tile ch s
  | .channelAttemptReset tile ch => Sys2Proof.Machine.execChannelAttemptReset tile ch s
  | .openLoad tile ch => Sys2Proof.Machine.execOpenLoad tile ch s
  | .gateFault tile ch => Sys2Proof.Machine.execGateFault tile ch s
  | .holdLimitExpiry tile ch => Sys2Proof.Machine.execHoldLimitExpiry tile ch s
  | .seqTrigger tile adc src => Sys2Proof.Machine.execSeqTrigger tile adc src s
  | .urgentTrigger tile adc src => Sys2Proof.Machine.execUrgentTrigger tile adc src s
  | .seqEntryResult tile adc input => Sys2Proof.Machine.execSeqEntryResult tile adc input s
  | .refSettled tile ref => Sys2Proof.Machine.execRefSettled tile ref s
  | .referenceLost tile ref => Sys2Proof.Machine.execReferenceLost tile ref s
  | .instructionTimeEnd tile engine => Sys2Proof.Machine.execInstructionTimeEnd tile engine s
  | .chopOffTime tile engine => Sys2Proof.Machine.execChopOffTime tile engine s
  | .detectSample tile engine code => Sys2Proof.Machine.execDetectSample tile engine code s
  | .detectWindowEnd tile engine => Sys2Proof.Machine.execDetectWindowEnd tile engine s
  | .shutterEnd tile engine => Sys2Proof.Machine.execShutterEnd tile engine s
  | .toothWindowClose tile tracker => Sys2Proof.Machine.execToothWindowClose tile tracker s
  | .angleFiringDue tile tracker => Sys2Proof.Machine.execAngleFiringDue tile tracker s
  | .stepDue tile unit => Sys2Proof.Machine.execStepDue tile unit s
  | .dwellEnd tile unit => Sys2Proof.Machine.execDwellEnd tile unit s
  | .homeStep tile unit => Sys2Proof.Machine.execHomeStep tile unit s
  | .holdTimeEnd tile unit => Sys2Proof.Machine.execHoldTimeEnd tile unit s
  | .tachSpeedUpdate tile unit => Sys2Proof.Machine.execTachSpeedUpdate tile unit s
  | .tachLostTimeout tile unit => Sys2Proof.Machine.execTachLostTimeout tile unit s
  | .startWindowEnd tile unit => Sys2Proof.Machine.execStartWindowEnd tile unit s
  | .backoffEnd tile unit => Sys2Proof.Machine.execBackoffEnd tile unit s
  | .tachLossSecond tile unit => Sys2Proof.Machine.execTachLossSecond tile unit s
  | .fanAttemptReset tile unit => Sys2Proof.Machine.execFanAttemptReset tile unit s
  | .baselineLevelEnd tile unit => Sys2Proof.Machine.execBaselineLevelEnd tile unit s
  | .ageingSample tile unit => Sys2Proof.Machine.execAgeingSample tile unit s
  | .liveStep tile => Sys2Proof.Machine.execLiveStep tile s
  | .planningBoundary => Sys2Proof.Machine.execPlanningBoundary s
  | .bracketComplete => Sys2Proof.Machine.execBracketComplete s
  | .adviceMessage tile msg => Sys2Proof.Machine.execAdviceMessage tile msg s
  | .adviceExpiry tile => Sys2Proof.Machine.execAdviceExpiry tile s
  | .rateOfRiseSample tile => Sys2Proof.Machine.execRateOfRiseSample tile s
  | .permitEvaluation => Sys2Proof.Machine.execPermitEvaluation s
  | .copyStaleTimeout h => Sys2Proof.Machine.execCopyStaleTimeout h s
  | .permitPulse permit => Sys2Proof.Machine.execPermitPulse permit s
  | .ringPeriodTrigger tile ring => Sys2Proof.Machine.execRingPeriodTrigger tile ring s
  | .ringSourceTimeout tile ring => Sys2Proof.Machine.execRingSourceTimeout tile ring s
  | .counterWindow tile n received sent => Sys2Proof.Machine.execCounterWindow tile n received sent s
  | .counterWrap tile n => Sys2Proof.Machine.execCounterWrap tile n s
  | .dieTemperature tile t0 t1 t2 t3 => Sys2Proof.Machine.execDieTemperature tile t0 t1 t2 t3 s
  | .powerFailWarning tile active => Sys2Proof.Machine.execPowerFailWarning tile active s
  | .stopBath tile active => Sys2Proof.Machine.execStopBath tile active s
  | .brownOut => Sys2Proof.Machine.execBrownOut s
  | .vcc11Low => Sys2Proof.Machine.execVcc11Low s
  | .vanaLow => Sys2Proof.Machine.execVanaLow s
  | .vholdCharge tile charged => Sys2Proof.Machine.execVholdCharge tile charged s
  | .vrtcLoss => Sys2Proof.Machine.execVrtcLoss s
  | .holdupPageDone tile => Sys2Proof.Machine.execHoldupPageDone tile s
  | .resetN => Sys2Proof.Machine.execResetN s
  | .resetRelease straps powerUp => Sys2Proof.Machine.execResetRelease straps powerUp s
  | .coreRegulatorFault tile => Sys2Proof.Machine.execCoreRegulatorFault tile s
  | .tapInstruction tile instr => Sys2Proof.Machine.execTapInstruction tile instr s
  | .darkroomCheck csHigh => Sys2Proof.Machine.execDarkroomCheck s csHigh
  | .darkroomWake source => Sys2Proof.Machine.execDarkroomWake source s
  | .darkroomResume => Sys2Proof.Machine.execDarkroomResume s
  | .entropyCondition tile samples => Sys2Proof.Machine.execEntropyCondition tile samples s
  | .entropyHealthFailure tile => Sys2Proof.Machine.execEntropyHealthFailure tile s
  | .entropyWaitExpiry tile => Sys2Proof.Machine.execEntropyWaitExpiry tile s
  | .policySwitch => Sys2Proof.Machine.execPolicySwitch s
  | .hello f => Sys2Proof.Machine.execHello f s
  | .idle f => Sys2Proof.Machine.execIdle f s
  | .time f => Sys2Proof.Machine.execTime f s
  | .close f => Sys2Proof.Machine.execClose f s
  | .tetherRequest f req => Sys2Proof.Machine.execTetherRequest f req s
  | .tetherReply f id reply => Sys2Proof.Machine.execTetherReply f id reply s
  | .announce f => Sys2Proof.Machine.execAnnounce f s
  | .pair f => Sys2Proof.Machine.execPair f s
  | .pairTimeout => Sys2Proof.Machine.execPairTimeout s
  | .helloTimer => Sys2Proof.Machine.execHelloTimer s
  | .idleTimer => Sys2Proof.Machine.execIdleTimer s
  | .timeTimer => Sys2Proof.Machine.execTimeTimer s
  | .tetherSuspect => Sys2Proof.Machine.execTetherSuspect s
  | .tetherLost => Sys2Proof.Machine.execTetherLost s
  | .resyncComplete => Sys2Proof.Machine.execResyncComplete s
  | .busStart port => Sys2Proof.Machine.execBusStart port s
  | .modbusRequest port frame => Sys2Proof.Machine.execModbusRequest port frame s
  | .serverWaitExpiry port => Sys2Proof.Machine.execServerWaitExpiry port s
  | .pollItemDue port item => Sys2Proof.Machine.execPollItemDue port item s
  | .modbusSilence port => Sys2Proof.Machine.execModbusSilence port s
  | .modbusResponse port frame => Sys2Proof.Machine.execModbusResponse port frame s
  | .responseTimeout port => Sys2Proof.Machine.execResponseTimeout port s
  | .mstpDataFrame port ftype dst src rest => Sys2Proof.Machine.execMstpDataFrame port ftype dst src rest s
  | .mstpToken port frame => Sys2Proof.Machine.execMstpToken port frame s
  | .mstpControlFrame port ftype dst src rest => Sys2Proof.Machine.execMstpControlFrame port ftype dst src rest s
  | .replyPostponed port => Sys2Proof.Machine.execReplyPostponed port s
  | .t1sFrame frame fcs => Sys2Proof.Machine.execT1sFrame frame fcs s
  | .t1sCollision => Sys2Proof.Machine.execT1sCollision s
  | .beaconTimeout => Sys2Proof.Machine.execBeaconTimeout s
  | .jabber => Sys2Proof.Machine.execJabber s
  | .busFrameSent port => Sys2Proof.Machine.execBusFrameSent port s
  | .svcDetN level => Sys2Proof.Machine.execSvcDetN level s
  | .serviceBaudLock baud => Sys2Proof.Machine.execServiceBaudLock baud s
  | .serviceUnlockTimeout => Sys2Proof.Machine.execServiceUnlockTimeout s
  | .servicePacket packet => Sys2Proof.Machine.execServicePacket packet s
  | .serviceGapTimeout => Sys2Proof.Machine.execServiceGapTimeout s
  | .negativeErase => Sys2Proof.Machine.execNegativeErase s
  | .activationNextTile => Sys2Proof.Machine.execActivationNextTile s
  | .handoverRetry => Sys2Proof.Machine.execHandoverRetry s
  | .healthWindowEnd => Sys2Proof.Machine.execHealthWindowEnd s
  | .panelPhase => Sys2Proof.Machine.execPanelPhase s
  | .crackCheck milliohms => Sys2Proof.Machine.execCrackCheck milliohms s
  | .panelRailsPresent => Sys2Proof.Machine.execPanelRailsPresent s
  | .panelRailsCollapse => Sys2Proof.Machine.execPanelRailsCollapse s
  | .keyScan pressed => Sys2Proof.Machine.execKeyScan pressed s
  | .keyInterrupt => Sys2Proof.Machine.execKeyInterrupt s
  | .stuckKey key => Sys2Proof.Machine.execStuckKey key s
  | .encoderEdge enc inputB level => Sys2Proof.Machine.execEncoderEdge enc inputB level s
  | .encoderSettle enc inputB => Sys2Proof.Machine.execEncoderSettle enc inputB s
  | .selfTestComplete tile failMask => Sys2Proof.Machine.execSelfTestComplete tile failMask s
  | .tokenRegeneration port => Sys2Proof.Machine.execTokenRegeneration port s
  | .rxErr port => Sys2Proof.Machine.execRxErr port s
  | .beacon => Sys2Proof.Machine.execBeacon s
  | .dischargeSwitchRelease => Sys2Proof.Machine.execDischargeSwitchRelease s

end Sys2Proof.Machine
end

