-- ==== Sys2Proof/Machine/Step.lean ====
section
/-!
DEFINITION. One step of the machine: the command or event at the front of the queue; on an empty queue what waited
for a bulk buffer, else the next admitted command or request, else a tick of 31.25 ns.
-/

namespace Sys2Proof.Machine

/-- One step. -/
def step (s : State) : Host.Outcome State Fault Refusal :=
  match s.pending with
  | i :: rest => exec i { s with pending := rest }
  | [] =>
    match nextBulk s with
    | some (.command i, s1) => exec i s1
    | some (.delivery c data, s1) => lift (deliverBulk c data) s1
    | none =>
    match nextStart s with
    | some (t, f) =>
      let s1 := { s with pkg := markStarted t f.order s.pkg }
      match f.work with
      | .command i => exec i s1
      | .request r => lift (performRequest t r) s1
    | none => tick s

/-- The state with the command that a word spells put at the front of its queue (no word spells one). -/
def State.withFetchWord (s : State) (nbits w : Nat) : State :=
  match Sys2Proof.decodeTableWord nbits w with
  | some i => { s with pending := i :: s.pending }
  | none => s

end Sys2Proof.Machine
end

