-- ==== Sys2Proof/Safety.lean ====
section
/-!
DEFINITION. What counts as a sound state of the host port, and as a run that goes on.
-/

namespace Sys2Proof.Machine

/-- The rings of the host port are sound (R90, R93, R94, R97): their windows are in canonical form and inside 64 KiB, indices are
multiples of 4 (those that the mirror tile still lacks too, R92), no more than 65,536 bytes are in use, and every held packet is
whole words of 12 to 1,028 bytes. -/
def HpRings.sound (r : HpRings) : Bool :=
  Memory.wf r.subMem && Memory.wf r.compMem
    && r.subMem.all (fun c => c.1 < 65536) && r.compMem.all (fun c => c.1 < 65536)
    && r.subProd.toNat % 4 == 0 && r.subCons.toNat % 4 == 0 && r.compProd.toNat % 4 == 0 && r.compCons.toNat % 4 == 0
    && r.subUsed ≤ 65536 && r.compUsed ≤ 65536
    && r.held.all (fun pkt => pkt.length % 4 == 0 && 12 ≤ pkt.length && pkt.length ≤ 1028)
    && r.unmirrored.all (fun q => q.1.toNat % 4 == 0)

/-- The host port is sound: its rings are, its contact sheet is in canonical form, and GENERATION is even between refreshes
(R86). -/
def HostPort.sound (h : HostPort) : Bool := h.rings.sound && Memory.wf h.sheet && h.generation.toNat % 2 == 0

/-- The invariant of the machine: a sound host port, and no completion on its way between steps. -/
def State.sound (s : State) : Bool := s.hp.sound && s.pkg.outbox.isEmpty

/-- The package as a step finds it: what the step before put on the lines is gone, and the lines have gone on up to now. -/
def State.start (s : State) : Pkg := clearLine s.pkg

/-- The machine as a step finds it. -/
def State.begun (s : State) : State := { s with pkg := s.start }

/-- The next state after a meaning has made `p` of the package: its completions have reached their senders. -/
def State.after (s : State) (p : Pkg) : State := drain { s with pkg := p }

/-- A command reaches tile `t` of this package, which answers commands, and passes the checks that every command shares (R46, R48,
R109 to R111, R472). -/
def performs (i : Instr) (p : Pkg) (t : Nat) : Bool :=
  match commandParts i with
  | none => false
  | some (c, op, pl) =>
    awake p && (match localOf p c.tile.toNat with
      | none => false
      | some named => targetError p c op pl named == none && servingTile p op named == t)

/-- The command came from a machine action (R252), so its acceptance goes nowhere. -/
def byMachine (c : Ctx) : Bool :=
  match c.src with
  | .machine _ _ => true
  | _ => false

/-- The outcome is a next state. -/
def completes (o : Host.Outcome State Fault Refusal) : Prop := ∃ t, o = .next t

/-- A tile without what the way of a completion touches (R35, R40, R48, R252): entries, queue, outstanding requests and the counts
of discarded replies and service port packets of its fabric, and the bytes of the windows under way of its bandwidth counters (R504);
its machines are compared by `sameTile`. -/
def Tile.settled (tl : Tile) : Tile :=
  { tl with
    fabric := { tl.fabric with flights := [], queue := [], out := [], discarded := 0, svcDropped := 0 }, machines := []
    counters := { tl.counters with ctrs := tl.counters.ctrs.mapVals (fun _ c => { c with winNo := 0, bytesIn := 0, bytesOut := 0 }) } }

/-- Two tiles differ at most in the way of completions: a machine at most in its note of a refused action (R252). -/
def sameTile (a b : Tile) : Prop :=
  a.settled = b.settled ∧ ∀ m, { a.machine m with refused := false } = { b.machine m with refused := false }

/-- The shared units without what the way of a completion touches (R414, R420, R449): what the service port has yet to send and end,
what stands on its line and on that of the tether, and the requests that cross the tether. -/
def Shared.settled (x : Shared) : Shared :=
  { x with
    service := { x.service with tags := [], orphans := [], tx := [], lineFree := 0, line := [] }
    tether := { x.tether with
      session := { x.tether.session with sent := 0, lastSentAt := 0 }, transactions := [], serving := [], nextId := 0
      queue := [], lineFree := 0, bulkUse := [], tx := [] } }

/-- A package without its tiles and what the way of a completion touches; the number of the next free value is the model's own. -/
def Pkg.settled (p : Pkg) : Pkg := { p with tiles := [], sh := p.sh.settled, outbox := [], freeCtr := 0 }

/-- The host port without the completion ring and the outstanding tags. -/
def HostPort.settled (h : HostPort) : HostPort :=
  { h with rings := { h.rings with compMem := [], compProd := 0, held := [] }, tags := [] }

/-- Two packages differ at most in the way of completions. -/
def samePkg (p q : Pkg) : Prop := q.settled = p.settled ∧ ∀ t, sameTile (p.tile t) (q.tile t)

/-- Two states differ at most in the way of completions: every register, memory byte, tile and unit is as it was but for the
completion ring, the outstanding tags and the entries that completions end. -/
def onlyCompletes (a b : State) : Prop := b.hp.settled = a.hp.settled ∧ samePkg a.pkg b.pkg ∧ b.pending = a.pending

/-- Two states differ at most in the way of completions, in what `mask` takes out of tile `t`, and in the events that its machines have
seen. -/
def onlyTile (t : Nat) (mask : Tile → Tile) (a b : State) : Prop :=
  b.hp.settled = a.hp.settled ∧ b.pkg.settled = a.pkg.settled ∧ b.pending = a.pending
    ∧ (∀ u, u ≠ t → sameTile (a.pkg.tile u) (b.pkg.tile u)) ∧ mask (b.pkg.tile t).settled = mask (a.pkg.tile t).settled
    ∧ ∀ m, { (b.pkg.tile t).machine m with refused := false, since := 0 } = { (a.pkg.tile t).machine m with refused := false, since := 0 }

/-- Two states differ at most in the way of completions, and in what `mask` takes out of the shared units. -/
def onlyShared (mask : Shared → Shared) (a b : State) : Prop :=
  b.hp.settled = a.hp.settled ∧ { b.pkg.settled with sh := mask b.pkg.sh.settled } = { a.pkg.settled with sh := mask a.pkg.sh.settled }
    ∧ b.pending = a.pending ∧ ∀ u, sameTile (a.pkg.tile u) (b.pkg.tile u)

/-- A tile without what its own work notes on the way: the values of its points, rings, events and monitors, the numbers of its
requests, and its counts of refused and overridden writes. -/
def Tile.noNotes (x : Tile) : Tile :=
  { x with points := [], rings := {}, events := {}, monitors := []
           fabric := { x.fabric with nextId := 0, overridden := 0, policyRefused := 0 } }

/-- A tile without its notes and what drives and measures: channels, converters, engines, trackers, steppers, fans, running timers and
claims. -/
def Tile.noDrives (x : Tile) : Tile :=
  { x.noNotes with chans := [], conv := {}, engines := [], trackers := [], steppers := [], fans := [], counting := [], claims := [] }

/-- A tile without its notes and the work of its loop engine: slots, rate groups, governor and claims. -/
def Tile.noLoops (x : Tile) : Tile := { x.noNotes with slots := [], groups := [], gov := {}, claims := [], loopFree := 0 }

/-- A tile without its notes and what a flash write touches: the checks before it, the flash, commits that wait for it, claims. -/
def Tile.noWrites (x : Tile) : Tile :=
  { x.noNotes with tables := { x.tables with commits := [] }, claims := [], supply := {}, flash := {} }

/-- The same without the rest of its fabric: requests that failed, and copies of points of other tiles. -/
def Tile.noRemote (x : Tile) : Tile := { x.noWrites with fabric := {} }

/-- `f` on tile `t`, and every other tile as it is. -/
def atTile (t : Nat) (f : Tile → Tile) (u : Nat) (x : Tile) : Tile := if u = t then f x else x

/-- A machine without its notes of a refused action and of the events it has seen. -/
def MachineSt.noted (x : MachineSt) : MachineSt := { x with refused := false, since := 0 }

/-- Two states differ at most in the way of completions, and in what `pkg` takes out of the package, `tile` out of tile `u` and
`machine` out of machine `m` of tile `u`. -/
def sameParts (pkg : Pkg → Pkg) (tile : Nat → Tile → Tile) (machine : Nat → Nat → MachineSt → MachineSt) (a b : State) : Prop :=
  b.hp.settled = a.hp.settled ∧ b.pending = a.pending ∧ pkg b.pkg.settled = pkg a.pkg.settled
    ∧ (∀ u, tile u (b.pkg.tile u).settled = tile u (a.pkg.tile u).settled)
    ∧ ∀ u m, machine u m ((b.pkg.tile u).machine m) = machine u m ((a.pkg.tile u).machine m)

/-- Two states of one instant differ at most in what `shared` takes out of the shared units and `tile` out of the tiles. -/
def onlyParts (shared : Shared → Shared) (tile : Nat → Tile → Tile) (a b : State) : Prop :=
  sameParts (fun p => { p with sh := shared p.sh }) tile (fun _ _ => MachineSt.noted) a b

/-- The same where package time may have passed: its clock and the counters of the tiles have run. -/
def onlyPartsLater (shared : Shared → Shared) (tile : Nat → Tile → Tile) (a b : State) : Prop :=
  sameParts (fun p => { p with now := 0, sh := { shared p.sh with rtc := {} } }) (fun u x => { tile u x with counters := {} })
    (fun _ _ => MachineSt.noted) a b

/-- The address of byte `k` of a burst from `a` (R82). -/
def burstAt : Nat → Nat → Nat
  | a, 0 => a
  | a, k + 1 => burstAt (hpNext a) k

/-- The tile that an event names as its place (R6). -/
def rowTile : Instr → Option TileId
  | .fabricReply tile _ | .admissionTimeout tile _ | .bridgeParityError tile _ _ | .offlineMark tile
  | .incarnationAnnounce tile _ | .tileFault tile _ | .tileRestart tile | .bootComplete tile _
  | .rateGroupBoundary tile _ | .remoteReadTimeout tile _ | .slotEvaluation tile _ | .machineEvaluation tile _
  | .governorWindow tile | .vcoreSettled tile | .tmrTick tile _ _ _ | .calendarMinute tile | .flashWriteComplete tile
  | .comparatorEdge tile _ _ | .inputFilterExpiry tile _ | .isolationOpen tile _ | .isolationClose tile _
  | .vhvThreshold tile _ | .blankingEnd tile _ | .limitTrip tile _ | .budgetTrip tile _ _ | .channelRetry tile _
  | .channelAttemptReset tile _ | .openLoad tile _ | .gateFault tile _ | .holdLimitExpiry tile _
  | .seqTrigger tile _ _ | .urgentTrigger tile _ _ | .seqEntryResult tile _ _ | .refSettled tile _
  | .referenceLost tile _ | .instructionTimeEnd tile _ | .chopOffTime tile _ | .detectSample tile _ _
  | .detectWindowEnd tile _ | .shutterEnd tile _ | .toothWindowClose tile _ | .angleFiringDue tile _
  | .stepDue tile _ | .dwellEnd tile _ | .homeStep tile _ | .holdTimeEnd tile _ | .tachSpeedUpdate tile _
  | .tachLostTimeout tile _ | .startWindowEnd tile _ | .backoffEnd tile _ | .tachLossSecond tile _
  | .fanAttemptReset tile _ | .baselineLevelEnd tile _ | .ageingSample tile _ | .liveStep tile
  | .adviceMessage tile _ | .adviceExpiry tile | .rateOfRiseSample tile | .ringPeriodTrigger tile _
  | .ringSourceTimeout tile _ | .counterWindow tile _ _ _ | .counterWrap tile _ | .dieTemperature tile _ _ _ _
  | .powerFailWarning tile _ | .stopBath tile _ | .vholdCharge tile _ | .holdupPageDone tile
  | .coreRegulatorFault tile | .tapInstruction tile _ | .entropyCondition tile _ | .entropyHealthFailure tile
  | .entropyWaitExpiry tile | .selfTestComplete tile _ => some tile
  | _ => none

/-- The row names a tile that the variant has, or none. -/
def tilePresent (i : Instr) (s : State) : Bool :=
  match rowTile i with
  | some t => t.toNat < s.pkg.n
  | none => true

end Sys2Proof.Machine
end

