-- ==== Sys2Proof/WellFormed.lean ====
section
/-!
DEFINITION. Well-formed rows: a command whose payload the tables admit (R97, R111), and an event whose operands name things
that can meet (R14, R83, R414, R432, R442, R449).
-/

namespace Sys2Proof

open Machine

/-- A payload that a packet may carry with this opcode (R97, R111). -/
def payloadOk (op : Byte) (pl : List Byte) : Bool := lengthOk op pl && pl.length % 4 == 0 && pl.length ≤ 1016

/-- A tether frame whose payload and tag have the sizes of R414. -/
def TFrame.wf (f : TFrame) : Bool := f.payload.length % 4 == 0 && f.payload.length ≤ 128 && f.tag.length == 8

/-- The operands of a row fit together. -/
def Instr.wf (i : Instr) : Bool :=
  match commandParts i with
  | some (c, op, pl) => payloadOk op pl && c.cls != 0
  | none =>
    match i with
    | .poll len => 1 ≤ len && len ≤ 256
    | .hostPortWrite _ data => !data.isEmpty
    | .hpInvalidCommand cmd => !(cmd == 0x8A || cmd == 0x9A || cmd == 0xAA || cmd == 0x0A || cmd == 0x1A || cmd == 0x2A)
    | .bridgeParityError rx tx failed => rx != tx && failed ≤ 3
    | .incarnationAnnounce tile announcer => tile != announcer
    | .hello f | .idle f | .time f | .close f | .announce f | .pair f => f.wf
    | .tetherRequest f _ | .tetherReply f _ _ => f.wf
    | .modbusRequest _ frame | .modbusResponse _ frame => 4 ≤ frame.length && frame.length ≤ 256
    | .mstpDataFrame _ _ _ _ f | .mstpControlFrame _ _ _ _ f => f.data.length ≤ 501
    | .mstpToken _ f => f.ftype == 0 && f.data.isEmpty
    | .t1sFrame frame _ => 60 ≤ frame.length && frame.length ≤ 1514
    | .servicePacket packet => 8 ≤ packet.length && packet.length ≤ 1028
    | _ => true

end Sys2Proof
end

