-- ==== Sys2Proof/Certificates/Slice0/Obligations.lean ====
section
/-!
DEFINITION. The statements for the provers. In each, `p` is the package as the step finds it (`State.start`), `performs i p t` says
that the command `i` reaches tile `t` of this package and passes the checks every command shares, and `s.after q` is the next state
after a meaning made `q` of the package.
-/

open Sys2Proof Sys2Proof.Machine

/-- NOP, IDENTIFY, TILE_STATE, LEAD_HANDOVER, HEALTH, TIME_SET and GOVERNOR run (R20, R42, R56, R72, R116 to R118). It rests on the
readings and choices of the model in log entry 5. -/
def Obligations.SystemCommandsRun : Prop :=
  ∀ (s : State) (p : Pkg) (c : Ctx) (t : Nat), p = s.start →
    (performs (.nop c) p t = true → exec (.nop c) s = .next (s.after (finish c 0x00 stOk t p)))
    ∧ (performs (.identify c) p t = true → exec (.identify c) s = .next (s.after (reply c 0x01 t (identityBytes p t) p)))
    ∧ (∀ ei rsv, performs (.tileState c 0 ei rsv) p t = true →
        exec (.tileState c 0 ei rsv) s = .next (s.after (reply c 0x02 t
          (le 1 (p.tile t).boot.state.code ++ le 1 (p.tile t).boot.incarnation.toNat ++ zeros 2) p)))
    ∧ (∀ ei rsv, performs (.tileState c 1 ei rsv) p t = true → t ≠ p.lead →
        exec (.tileState c 1 ei rsv) s = .next (s.after (takeOffline c t p)))
    ∧ (∀ ei rsv, performs (.tileState c 2 ei rsv) p t = true → t ≠ p.lead →
        exec (.tileState c 2 ei rsv) s = .next (s.after (restartTile c t p)))
    ∧ (performs (.leadHandover c) p t = true → online p (1 - p.lead % 2) = true → p.sh.handover = none →
        exec (.leadHandover c) s = .next (s.after (onShared (fun x => { x with handover := some { ctx := some c, startAt := p.now } }) p)))
    ∧ (performs (.health c) p t = true → exec (.health c) s = .next (s.after (reply c 0x04 t (healthBytes s.hp p t) p)))
    ∧ (∀ secs, performs (.timeSet c secs) p t = true →
        exec (.timeSet c secs) s = .next (s.after (finish c 0x05 stOk t
          (forAll ((List.range p.n).filter (online p)) runCalendars
            (onShared (fun x => { x with rtc := { secs := secs, valid := true, sub := 0 } }) p)))))
    ∧ (∀ ceil floor slack flags rsv, performs (.governor c ceil floor slack flags rsv) p t = true → flags.getLsbD 0 = true →
        exec (.governor c ceil floor slack flags rsv) s = .next (s.after (reply c 0x06 t (governorBytes (p.tile t).gov) p)))
    ∧ (∀ ceil floor slack flags rsv q, performs (.governor c ceil floor slack flags rsv) p t = true → flags.getLsbD 0 = false →
        govOk ceil floor slack = true →
        q = setGovernor t ceil floor slack p →
        exec (.governor c ceil floor slack flags rsv) s = .next (s.after (reply c 0x06 t (governorBytes (q.tile t).gov) q)))

/-- SAFELIGHT_LOAD, PERMIT_CONFIG, SELF_TEST and FABRIC_PROBE run (R132, R160, R264, R359). It rests on the readings and choices of
the model in log entries 31, 51, 106. -/
def Obligations.SetupCommandsRun : Prop :=
  ∀ (s : State) (p : Pkg) (c : Ctx) (t : Nat), p = s.start →
    (∀ (first count : Byte) rsv entries q, performs (.safelightLoad c first count rsv entries) p t = true → count ≠ 0 →
        first.toNat + count.toNat ≤ 32 → entries.all safeEntryOk = true → flashCheck [t] p = (none, q) →
        exec (.safelightLoad c first count rsv entries) s
          = .next (s.after (finish c 0x07 stOk t (safelightWrite t first.toNat entries q))))
    ∧ (∀ (permit enable : Byte) (pred : BitVec 16) q, performs (.permitConfig c permit enable pred) p t = true → permit.toNat ≤ 3 →
        pred.toNat ≤ 15 → enable.toNat ≤ 1 → predDefined p pred.toNat = true → flashCheck (onlinePair p) p = (none, q) →
        exec (.permitConfig c permit enable pred) s = .next (s.after (finish c 0x08 stOk t
          (onShared (fun x => { x with permits := { x.permits with
            permits := x.permits.permits.modify permit.toNat Permit.reset (fun y =>
              { y with enabled := enable == 1, pred := pred, permitted := y.permitted && enable == 1, high := y.high && enable == 1 }) } })
          (writeSettings (fun x => { x with permits := x.permits.set permit.toNat { enabled := enable == 1, pred := pred } }) q)))))
    ∧ (∀ mask, performs (.selfTest c mask) p t = true → bits mask 31 5 = 0 →
        ((mask.getLsbD 2 || mask.getLsbD 3) && permitActive p) = false →
        exec (.selfTest c mask) s = .next (s.after (accept c 0xF0 t (onTests t (fun l => l ++ [(c, mask)]) p))))
    ∧ (∀ (dest repeats : Byte) rsv, performs (.fabricProbe c dest repeats rsv) p t = true → dest.toNat ≤ 15 → repeats ≠ 0 →
        ((localOf p dest.toNat).isNone && !farPresent p dest.toNat) = false →
        exec (.fabricProbe c dest repeats rsv) s = .next (s.after
          (issue t dest.toNat c.cls.toNat (.probe t) .probe (p.now + 1000 * msTicks)
            (onTile t (fun tl => { tl with fabric := { tl.fabric with
              probes := tl.fabric.probes ++ [{ ctx := c, req := tl.fabric.nextId, dest := dest.toNat, left := repeats.toNat }] } }) p))))

/-- The six point commands run (R25, R27, R30 to R33, R119). It rests on the readings and choices of the model in log entry 35. -/
def Obligations.PointCommandsRun : Prop :=
  ∀ (s : State) (p : Pkg) (c : Ctx) (t : Nat), p = s.start →
    (∀ h q, performs (.pointRead c h) p t = true → pointError p t h = none → q = measuredFor t [h] p →
        exec (.pointRead c h) s = .next (s.after (reply c 0x10 t (pointBytes (readPoint q t (handleKey h))) q)))
    ∧ (∀ h v ei rsv, performs (.pointWrite c h v ei rsv) p t = true → writeError p t c h = none →
        exec (.pointWrite c h v ei rsv) s = .next (s.after (finish c 0x11 stOk t (ownerWrite t (handleKey h) v .good p))))
    ∧ (∀ hs q, performs (.pointReadMulti c hs) p t = true → hs.findSome? (pointError p t) = none → q = measuredFor t hs p →
        exec (.pointReadMulti c hs) s = .next (s.after
          (reply c 0x12 t (hs.flatMap (fun h => pointBytes (readPoint q t (handleKey h)))) q)))
    ∧ (∀ ei rsv pairs, performs (.pointWriteMulti c ei rsv pairs) p t = true → pairs.findSome? (fun x => writeError p t c x.1) = none →
        exec (.pointWriteMulti c ei rsv pairs) s = .next (s.after
          (finish c 0x13 stOk t (forAll pairs (fun x => ownerWrite t (handleKey x.1) x.2 .good) p))))
    ∧ (∀ h v ei rsv q, performs (.pointOverride c h v ei rsv) p t = true → pointError p t h = none →
        notWritable p t (handleKey h) = false →
        q = (if keyClass (handleKey h) == 1 || keyClass (handleKey h) == 2 then overrideEngine t (keyIdx (handleKey h) / 8) p else p) →
        exec (.pointOverride c h v ei rsv) s = .next (s.after (finish c 0x14 stOk t (overrideWrite t (handleKey h) v
          (onTile t (fun tl => if overridden tl (handleKey h) then tl
            else { tl with overrides := tl.overrides ++ [ownKey (handleKey h)] }) q)))))
    ∧ (∀ h ei rsv, performs (.pointRelease c h ei rsv) p t = true → pointError p t h = none →
        overridden (p.tile t) (handleKey h) = true →
        exec (.pointRelease c h ei rsv) s = .next (s.after (finish c 0x15 stOk t
          (onTile t (fun tl => { tl with overrides := tl.overrides.filter (· != ownKey (handleKey h)) }) p))))

/-- The three channel commands run (R121, R143, R150, R158, R163). It rests on the readings and choices of the model in log entry
36. -/
def Obligations.ChannelCommandsRun : Prop :=
  ∀ (s : State) (p : Pkg) (c : Ctx) (t : Nat) (ch : Byte), p = s.start → ch.toNat ≤ 31 →
    (∀ ei rsv cfg, performs (.channelConfig c ch ei rsv cfg) p t = true → chanCfgOk cfg = true →
        ownerRuns (p.tile t) ch.toNat = false →
        exec (.channelConfig c ch ei rsv cfg) s = .next (s.after (finish c 0x20 stOk t
          (if ((p.tile t).chan ch.toNat).prot.tripped then untripFan t ch.toNat (applyConfig t ch.toNat cfg p)
            else applyConfig t ch.toNat cfg p))))
    ∧ (∀ rsv, performs (.channelStatus c ch rsv) p t = true →
        exec (.channelStatus c ch rsv) s = .next (s.after
          (reply c 0x21 t (channelStatusBytes p.now ((p.tile t).chan ch.toNat)) p)))
    ∧ (∀ ei (mask : BitVec 16) x q, performs (.channelClear c ch ei mask) p t = true → bits mask 15 10 = 0 →
        x = (p.tile t).chan ch.toNat →
        q = onChan t ch.toNat (fun y => { y with prot := { y.prot with faults := y.prot.faults &&& ~~~(mask.setWidth 10) } }) p →
        exec (.channelClear c ch ei mask) s = .next (s.after (finish c 0x22 stOk t
          (if mask.getLsbD fLatched && x.prot.faults.getLsbD fLatched && x.prot.tripped then driveBack t ch.toNat q else q))))

/-- The four converter commands run (R120, R167, R172, R182, R188). It rests on the readings and choices of the model in log entry
110. -/
def Obligations.ConverterCommandsRun : Prop :=
  ∀ (s : State) (p0 p : Pkg) (c : Ctx) (t : Nat) (adc : Byte), p0 = s.start → p = catchUp t p0.now p0 → adc.toNat ≤ 1 →
    (∀ (count rsv : Byte) entries, performs (.seqConfig c adc 0 count rsv entries) p0 t = true → count ≠ 0 → count.toNat ≤ 16 →
        entries.all (entryOk (adc == 1) false) = true → ((p.tile t).adc (adc == 1)).reg.busy = false →
        exec (.seqConfig c adc 0 count rsv entries) s = .next (s.after (finish c 0x28 stOk t
          (forAll (resultKeys (adc == 1) false) (goOffline t)
            (onTile t (fun tl => onReg (adc == 1) (fun x => { x with entries := entries, idx := 0 })
              (tl.onAdc (adc == 1) (fun x => { x with ended := x.ended.filter (fun d => d.inj != false) }))) p)))))
    ∧ (∀ (count rsv : Byte) entries, performs (.seqConfig c adc 1 count rsv entries) p0 t = true → count ≠ 0 → count.toNat ≤ 4 →
        entries.all (entryOk (adc == 1) true) = true → ((p.tile t).adc (adc == 1)).inj.busy = false →
        exec (.seqConfig c adc 1 count rsv entries) s = .next (s.after (finish c 0x28 stOk t
          (forAll (resultKeys (adc == 1) true) (goOffline t)
            (onTile t (fun tl => onInj (adc == 1) (fun x => { x with entries := entries, idx := 0 })
              (tl.onAdc (adc == 1) (fun x => { x with ended := x.ended.filter (fun d => d.inj != true) }))) p)))))
    ∧ (∀ (mode trig : Byte), performs (.seqStart c adc 0 mode trig) p0 t = true → mode.toNat ≤ 3 →
        (mode = 3 → triggerListed trig.toNat = true) → (mode ≠ 3 → trig = 0) →
        exec (.seqStart c adc 0 mode trig) s = .next (s.after (finish c 0x29 stOk t
          (onTile t (grantB p0.now) (onTile t (startReg p0.now (adc == 1) mode trig) p)))))
    ∧ (∀ (mode trig : Byte), performs (.seqStart c adc 1 mode trig) p0 t = true → mode.toNat ≤ 3 → mode ≠ 2 →
        (mode = 3 → triggerListed trig.toNat = true) → (mode ≠ 3 → trig = 0) →
        exec (.seqStart c adc 1 mode trig) s = .next (s.after (finish c 0x29 stOk t
          (onTile t (grantB p0.now) (startInj t (adc == 1) mode trig p)))))
    ∧ (∀ rsv a, performs (.seqStatus c adc rsv) p0 t = true → a = (p.tile t).adc (adc == 1) →
        exec (.seqStatus c adc rsv) s = .next (s.after (reply c 0x2A t
          (le 1 a.reg.state.code ++ le 1 a.inj.state.code ++ le 2 a.drops.toNat ++ le 1 a.ref.toNat
            ++ le 1 (p0.tile t).conv.settled.toNat ++ zeros 2) p0)))
    ∧ (∀ (ref : Byte) rsv, performs (.refSelect c adc ref rsv) p0 t = true → ref.toNat ≤ 2 →
        exec (.refSelect c adc ref rsv) s = .next (s.after (finish c 0x2B stOk t
          (onTile t (fun tl => tl.onAdc (adc == 1) (selectRef p0.now (ref.setWidth 2))) p0))))

/-- The five loop commands run (R57, R62, R67, R122, R198, R199, R216, R223). It rests on the readings and choices of the model in
log entries 30, 90, 138, 150. -/
def Obligations.LoopCommandsRun : Prop :=
  ∀ (s : State) (p : Pkg) (c : Ctx) (t : Nat), p = s.start →
    (∀ (slot : BitVec 16) ei rsv desc, performs (.loopWrite c slot ei rsv desc) p t = true → slot.toNat ≤ 511 →
        descError p t slot.toNat desc = none →
        (addsSlot (p.tile t) slot.toNat desc && !loadOk (p.tile t) none (some (slot.toNat, desc))) = false →
        exec (.loopWrite c slot ei rsv desc) s = .next (s.after
          (queueSlot t slot.toNat { desc := desc, write := some c, mode := none } (some (c, 0x30)) (supersedeSlot t slot.toNat p))))
    ∧ (∀ (slot : BitVec 16) rsv, performs (.loopRead c slot rsv) p t = true → slot.toNat ≤ 511 →
        exec (.loopRead c slot rsv) s = .next (s.after (reply c 0x31 t (recBytes ((p.tile t).slot slot.toNat).desc) p)))
    ∧ (∀ (slot : BitVec 16) (mode : Byte) ei man d, performs (.loopMode c slot mode ei man) p t = true → slot.toNat ≤ 511 →
        mode.toNat ≤ 3 → byMachine c = false → d = withMode ((p.tile t).slot slot.toNat).desc mode.toNat man →
        (∀ w, ((p.tile t).slot slot.toNat).pend = some w → w.write = none) →
        (mode.toNat = 2 → dIn ((p.tile t).slot slot.toNat).desc 3 ≠ noHandle ∧ dLaw ((p.tile t).slot slot.toNat).desc ≠ 7) →
        (addsSlot (p.tile t) slot.toNat d && !loadOk (p.tile t) none (some (slot.toNat, d))) = false →
        exec (.loopMode c slot mode ei man) s = .next (s.after
          (queueSlot t slot.toNat { desc := d, write := none, mode := some c } (some (c, 0x32)) (supersedeSlot t slot.toNat p))))
    ∧ (∀ (slot : BitVec 16) (mode : Byte) ei man w d q, performs (.loopMode c slot mode ei man) p t = true → slot.toNat ≤ 511 →
        mode.toNat ≤ 3 → byMachine c = false → ((p.tile t).slot slot.toNat).pend = some w → w.write.isSome = true →
        d = withMode w.asWritten mode.toNat man → (mode.toNat = 2 → dIn w.asWritten 3 ≠ noHandle ∧ dLaw w.asWritten ≠ 7) →
        descError p t slot.toNat d = none →
        (addsSlot (p.tile t) slot.toNat d && !loadOk (p.tile t) none (some (slot.toNat, d))) = false →
        q = w.mode.elim p (fun c0 => modeDone t c0 stSuperseded p) →
        exec (.loopMode c slot mode ei man) s = .next (s.after
          (queueSlot t slot.toNat { w with desc := d, mode := some c } (some (c, 0x32)) q)))
    ∧ (∀ (slot : BitVec 16) (mask : Byte) ei, performs (.loopClearFlags c slot mask ei) p t = true → slot.toNat ≤ 511 →
        mask.getLsbD 7 = false →
        exec (.loopClearFlags c slot mask ei) s = .next (s.after (finish c 0x33 stOk t
          (onTile t (Tile.onSlot slot.toNat (fun x => { x with flags := x.flags &&& ~~~(mask.setWidth 7) })) p))))
    ∧ (∀ (group enable : Byte) rsv (n : Word), performs (.rateGroupConfig c group enable rsv n) p t = true → group.toNat ≤ 7 →
        enable.toNat ≤ 1 → 1 ≤ n.toNat → n.toNat ≤ 2 ^ 25 → ((p.tile t).group group.toNat).pend = none →
        ((p.tile t).group group.toNat).enabled = (enable.toNat == 1) → ((p.tile t).group group.toNat).n = n →
        exec (.rateGroupConfig c group enable rsv n) s = .next (s.after (finish c 0x34 stOk t p)))
    ∧ (∀ (group enable : Byte) rsv (n : Word) (g : Group) q q1, performs (.rateGroupConfig c group enable rsv n) p t = true →
        group.toNat ≤ 7 → enable.toNat ≤ 1 → 1 ≤ n.toNat → n.toNat ≤ 2 ^ 25 → g = (p.tile t).group group.toNat →
        (g.pend ≠ none ∨ g.enabled ≠ (enable.toNat == 1) ∨ g.n.toNat ≠ n.toNat) →
        (enable.toNat = 1 → orderOk ((p.tile t).onGroup group.toNat (fun x => { x with pend := none })) group.toNat n.toNat = true
          ∧ loadOk ((p.tile t).onGroup group.toNat (fun x => { x with pend := none })) (some (group.toNat, true, n.toNat)) none = true) →
        q = g.pend.elim p (fun w => finish w.ctx 0x34 stSuperseded t (onGrp t group.toNat (fun x => { x with pend := none }) p)) →
        q1 = onGrp t group.toNat (fun x => { x with pend := some { enable := enable.toNat == 1, n := n, ctx := c } })
          (if enable.toNat == 1 && (!g.enabled || n.toNat < g.n.toNat) then preChange t q else q) →
        exec (.rateGroupConfig c group enable rsv n) s = .next (s.after
          (if g.enabled || enable.toNat == 1 then accept c 0x34 t q1 else applyGroup t group.toNat q1)))

/-- The four table commands run (R122, R234, R235, R259). It rests on the readings and choices of the model in log entries 109, 110.
-/
def Obligations.TableCommandsRun : Prop :=
  ∀ (s : State) (p : Pkg) (c : Ctx) (t : Nat), p = s.start →
    (∀ (kind : Byte) rsv (idx : BitVec 16) (off : Word) chunk old new, performs (.tableLoad c kind rsv idx off chunk) p t = true →
        tableNameError kind.toNat idx.toNat = none → (kind.toNat = 3 → formatTile idx.toNat t = true) →
        (if off.toNat = 0 then some [] else (p.tile t).shadow? kind.toNat idx.toNat) = some old →
        off.toNat + chunk.length ≤ kindMax kind.toNat → new = patch old off.toNat chunk →
        shadowUsed (p.tile t) kind.toNat idx.toNat + new.length ≤ 65536 →
        exec (.tableLoad c kind rsv idx off chunk) s = .next (s.after (finish c 0x40 stOk t
          (onTile t (fun x => { x with tables := { x.tables with
            shadow := x.tables.shadow.set (kind.toNat * 1024 + idx.toNat) new } }) p))))
    ∧ (∀ (kind : Byte) rsv (idx : BitVec 16) q q1 q2 x, performs (.tableCommit c kind rsv idx 0 0) p t = true →
        tableNameError kind.toNat idx.toNat = none →
        flashCheck ((tableTiles t kind.toNat idx.toNat).filter (online p)) p = (none, q) →
        ¬(kind.toNat = 3 ∧ (idx.toNat = 48 ∨ idx.toNat = 32 ∧ permitsLoseTheir q [] = true)) →
        q1 = supersedeCommits t kind.toNat idx.toNat q →
        x = { kind := kind.toNat, idx := idx.toNat, bytes := [], ctx := c
              started := (nextWrite (q1.tile t)).isNone
                && !(q1.tile t).tables.commits.any (fun y => y.kind == kind.toNat && y.idx == idx.toNat) } →
        q2 = reserveClaims t kind.toNat idx.toNat
          (onCommits t (fun l => l ++ [x]) (if addsMachine (q1.tile t) x then preChange t q1 else q1)) →
        exec (.tableCommit c kind rsv idx 0 0) s
          = .next (s.after (startWrite t (q1.tile t).tables.commits.length (accept c 0x41 t q2))))
    ∧ (∀ (kind : Byte) rsv (idx : BitVec 16) (len crc : Word) b q q1 q2 x, performs (.tableCommit c kind rsv idx len crc) p t = true →
        tableNameError kind.toNat idx.toNat = none → len.toNat ≠ 0 → (p.tile t).shadow? kind.toNat idx.toNat = some b →
        b.length = len.toNat → (crc32c b).toNat = crc.toNat → tableValid p t kind.toNat idx.toNat b = true →
        claimConflict p t kind.toNat idx.toNat b = false →
        (∀ u, u ∈ tableTiles t kind.toNat idx.toNat → areaUsed p u kind.toNat idx.toNat + b.length ≤ kindArea kind.toNat) →
        flashCheck ((tableTiles t kind.toNat idx.toNat).filter (online p)) p = (none, q) →
        q1 = supersedeCommits t kind.toNat idx.toNat q →
        x = { kind := kind.toNat, idx := idx.toNat, bytes := b, ctx := c
              started := (nextWrite (q1.tile t)).isNone
                && !(q1.tile t).tables.commits.any (fun y => y.kind == kind.toNat && y.idx == idx.toNat) } →
        q2 = reserveClaims t kind.toNat idx.toNat
          (onCommits t (fun l => l ++ [x]) (if addsMachine (q1.tile t) x then preChange t q1 else q1)) →
        exec (.tableCommit c kind rsv idx len crc) s
          = .next (s.after (startWrite t (q1.tile t).tables.commits.length (accept c 0x41 t q2))))
    ∧ (∀ (kind copy : Byte) (idx : BitVec 16) (off len : Word) b, performs (.tableRead c kind copy idx off len) p t = true →
        kind.toNat ≤ 3 → copy.toNat ≤ 1 → indexOk kind.toNat idx.toNat = true → 4 ≤ len.toNat → len.toNat ≤ 1008 →
        len.toNat % 4 = 0 → (copy.toNat = 1 → (p.tile t).shadow? kind.toNat idx.toNat = some b) →
        (copy.toNat = 0 → b ≠ [] ∧ b = (p.tile t).table kind.toNat idx.toNat) → off.toNat + len.toNat ≤ b.length →
        exec (.tableRead c kind copy idx off len) s = .next (s.after (reply c 0x42 t (slice b off.toNat len.toNat) p)))
    ∧ (∀ (m : BitVec 16) (action : Byte) ei x, performs (.machineControl c m action ei) p t = true → m.toNat ≤ 255 →
        action.toNat ≤ 2 → x = (p.tile t).machine m.toNat → x.image ≠ [] →
        exec (.machineControl c m action ei) s = .next (s.after
          (if ((p.tile t).group (machineGroup x.image)).enabled then onMach t m.toNat (fun y => { y with ctl := y.ctl ++ [(c, action)] }) p
            else machineControl t m.toNat c action.toNat p)))

/-- The eight predictor commands run (R123, R124, R269, R277, R282, R292 to R295). It rests on the readings and choices of the model
in log entry 32. -/
def Obligations.PredictorCommandsRun : Prop :=
  ∀ (s : State) (p : Pkg) (c : Ctx) (t : Nat), p = s.start →
    (∀ (part : Byte) rsv (first count : BitVec 16) rsv2 recs, performs (.modelLoad c part rsv first count rsv2 recs) p t = true →
        part.toNat ≤ 2 → recs.length = partRec part.toNat * count.toNat → first.toNat + count.toNat ≤ partMax part.toNat →
        recordsOk p t part.toNat first.toNat recs = true →
        exec (.modelLoad c part rsv first count rsv2 recs) s = .next (s.after (accept c 0x50 t
          (onTile t (fun tl => { tl with pred := { tl.pred with
            loads := tl.pred.loads + 1
            pend := tl.pred.pend ++ [{ ctx := c, part := part.toNat, first := first.toNat, recs := recs
                                       num := tl.pred.loads }] } }) p))))
    ∧ (∀ (part : Byte) rsv (first count : BitVec 16) rsv2, performs (.modelRead c part rsv first count rsv2) p t = true →
        part.toNat ≤ 2 → partRec part.toNat * count.toNat ≤ 1016 → first.toNat + count.toNat ≤ partMax part.toNat →
        exec (.modelRead c part rsv first count rsv2) s = .next (s.after (reply c 0x51 t
          ((List.range count.toNat).flatMap (fun i => recordBytes (p.tile t) part.toNat (first.toNat + i))) p)))
    ∧ (∀ (node : BitVec 16) (action : Byte) rsv lambda n, performs (.identControl c node action rsv lambda) p t = true →
        node.toNat ≤ 127 → action.toNat ≤ 2 → (action = 1 → lambdaOk lambda = true) → n = (p.tile t).node node.toNat →
        nodeInUse n = true → nIdent n.rc = true → nMeas n.rc ≠ noHandle →
        exec (.identControl c node action rsv lambda) s = .next (s.after (finish c 0x52 stOk t
          (onTile t (fun tl => { tl with pred := { tl.pred with
            nodes := tl.pred.nodes.modify node.toNat Node.reset
              (fun x => { x with ident := { x.ident with pend := x.ident.pend ++ [(tl.pred.loads, action, lambda)] } }) } }) p))))
    ∧ (∀ cfg, performs (.planConfig c cfg) p t = true → planRecOk p cfg = true →
        exec (.planConfig c cfg) s = .next (s.after (finish c 0x53 stOk t (forAll (List.range p.n) claimAdvice
          (onTiles (fun _ => releaseClaims .advice) (onPlanner (fun x => { x with record := some cfg })
            (retractPlan (abandonEval (accept c 0x53 t p)))))))))
    ∧ (∀ (zone : BitVec 16) rsv, performs (.planStatus c zone rsv) p t = true →
        (zone ≠ 0xFFFF → zone.toNat ≤ 255 ∧ zoneHosted (p.tile t) zone.toNat = true) →
        exec (.planStatus c zone rsv) s = .next (s.after (reply c 0x54 t (planStatus s.hp.absent p t zone.toNat) p)))
    ∧ (∀ plan x, performs (.planFix c plan) p t = true → t = planCoord p → p.sh.planner.latent = some x → x.id = plan →
        exec (.planFix c plan) s = .next (s.after (if p.sh.planner.fixers.isEmpty then onPlanner (fun y => { y with fixers := [c] }) p
          else finish c 0x55 stOk t p)))
    ∧ (∀ plan x, performs (.planVeto c plan) p t = true → t = planCoord p → p.sh.planner.latent = some x → x.id = plan →
        p.sh.planner.fixers = [] →
        exec (.planVeto c plan) s = .next (s.after (finish c 0x56 stOk t (retractPlan p))))
    ∧ (∀ (zone : BitVec 16) (prio weight : Byte), performs (.capacityConfig c zone prio weight) p t = true → zone.toNat ≤ 255 →
        zoneHosted (p.tile t) zone.toNat = true → prio.toNat ≤ 3 → weight ≠ 0 →
        exec (.capacityConfig c zone prio weight) s = .next (s.after (finish c 0x57 stOk t
          (onTile t (fun tl => { tl with pred := { tl.pred with
            zones := tl.pred.zones.modify zone.toNat Zone.reset (fun x => { x with prio := prio, weight := weight }) } }) p))))

/-- The profile and angle commands run (R125, R299, R300, R309, R312, R315, R321). It rests on the readings and choices of the model
in log entry 110. -/
def Obligations.ProfileCommandsRun : Prop :=
  ∀ (s : State) (p : Pkg) (c : Ctx) (t : Nat), p = s.start →
    (∀ (program count : Byte) rsv instrs, performs (.profileLoad c program count rsv instrs) p t = true → program.toNat ≤ 15 →
        count ≠ 0 → count.toNat ≤ 64 → programOk instrs = true →
        (List.range 8).any (fun e => ((p.tile t).engine e).phase == .running && ((p.tile t).engine e).program == program) = false →
        exec (.profileLoad c program count rsv instrs) s = .next (s.after (finish c 0x60 stOk t
          (onTile t (fun tl => { tl with programs := tl.programs.set program.toNat instrs }) p))))
    ∧ (∀ (engine program : Byte) ei rsv param q, performs (.profileFire c engine program ei rsv param) p t = true →
        fireHandleOk engine.toNat program.toNat = true → canFire (p.tile t) engine.toNat program.toNat param = true →
        q = accept c 0x61 t p →
        exec (.profileFire c engine program ei rsv param) s = .next (s.after
          (if ((p.tile t).engine engine.toNat).phase = .idle then startFire t engine.toNat program.toNat param (.command c) q
            else if ((p.tile t).engine engine.toNat).held.isSome then
              onEng t engine.toNat (fun x => { x with held := some { program := program, param := param, src := .command c } })
                (dropHeld t engine.toNat stSuperseded q)
            else engineItems t engine.toNat (onEng t engine.toNat
              (fun x => { x with held := some { program := program, param := param, src := .command c } })
              (dropHeld t engine.toNat stSuperseded q)))))
    ∧ (∀ (engine : Byte) ei rsv, performs (.profileCancel c engine ei rsv) p t = true → engine.toNat ≤ 7 →
        exec (.profileCancel c engine ei rsv) s = .next (s.after (finish c 0x62 stOk t (cancelProfile t engine.toNat p))))
    ∧ (∀ (engine : Byte) rsv, performs (.profileStatus c engine rsv) p t = true → engine.toNat ≤ 7 →
        exec (.profileStatus c engine rsv) s = .next (s.after (reply c 0x63 t (engineStatus ((p.tile t).engine engine.toNat)) p)))
    ∧ (∀ (k : Byte) ei rsv cfg x, performs (.angleConfig c k ei rsv cfg) p t = true → k.toNat ≤ 1 →
        trackerCfgOk (p.tile t) cfg = true → x = (p.tile t).tracker k.toNat →
        (tcEnable x.cfg = true → cfg = x.cfg &&& ~~~(1#128 <<< 9)) →
        exec (.angleConfig c k ei rsv cfg) s = .next (s.after (finish c 0x64 stOk t (trackerItems t k.toNat (onTrk t k.toNat
          (fun y => if tcEnable cfg then startTracker { y with cfg := cfg, configured := true }
            else stopTracker { y with cfg := cfg, configured := true }) p)))))
    ∧ (∀ (k count : Byte) rsv entries, performs (.angleSchedule c k count rsv entries) p t = true → k.toNat ≤ 1 →
        entries.any (fun w => seEngine w > 7 || seProgram w > 15) = false → count.toNat ≤ 8 →
        entries.any (fun w => seAngle w > 3599) = false →
        exec (.angleSchedule c k count rsv entries) s = .next (s.after (finish c 0x65 stOk t (onTrk t k.toNat (fun x =>
          if x.state == .sync then { x with pendSchedule := some entries } else { x with schedule := entries, pendSchedule := none }) p))))

/-- The stepper and fan commands run (R125, R327, R332 to R335, R340, R348, R351). It rests on the readings and choices of the model
in log entry 94. -/
def Obligations.MotionCommandsRun : Prop :=
  ∀ (s : State) (p : Pkg) (c : Ctx) (t : Nat) (unit : Byte), p = s.start → unit.toNat ≤ 3 →
    (∀ ei rsv cfg, performs (.stepperConfig c unit ei rsv cfg) p t = true → stepperRangeOk cfg = true →
        (scEnable cfg = true → stepperCheckOk (p.tile t) unit.toNat cfg = true) → ((p.tile t).stepper unit.toNat).runs = false →
        exec (.stepperConfig c unit ei rsv cfg) s = .next (s.after (finish c 0x68 stOk t (configStepper t unit.toNat cfg p))))
    ∧ (∀ ei rsv target x q, performs (.stepperMove c unit ei rsv target) p t = true → x = (p.tile t).stepper unit.toNat →
        x.state ≠ .unconfigured → scMin x.cfg ≤ target.toInt → target.toInt ≤ scMax x.cfg →
        q = onStep t unit.toNat (fun y => { y with target := target.toInt, homeStop := y.state == .homing })
          (takeOver t unit.toNat (.move (.command c)) (accept c 0x69 t p)) →
        exec (.stepperMove c unit ei rsv target) s = .next (s.after (stepperItems t unit.toNat
          (if x.state = .standstill then (if target.toInt = x.pos then arrived t unit.toNat q else startMove t unit.toNat q) else q))))
    ∧ (∀ ei rsv x q, performs (.stepperStop c unit ei rsv) p t = true → x = (p.tile t).stepper unit.toNat →
        x.state ≠ .unconfigured → q = takeOver t unit.toNat (.stop (.command c)) (accept c 0x6A t p) →
        exec (.stepperStop c unit ei rsv) s = .next (s.after (stepperItems t unit.toNat
          (if x.state = .moving then onStep t unit.toNat (fun y => { y with target := y.pos + y.dir * ((y.a : Int) + 1) }) q
            else if x.state = .homing then onStep t unit.toNat (fun y => { y with target := y.pos + y.homeDir, homeStop := true }) q
            else if x.state = .dwell then
              arrived t unit.toNat (onStep t unit.toNat (fun y => { standstill p.now y with target := y.pos }) q)
            else arrived t unit.toNat (onStep t unit.toNat (fun y => { y with target := y.pos }) q)))))
    ∧ (∀ ei (dir : Byte) rsv x, performs (.stepperHome c unit ei dir rsv) p t = true → x = (p.tile t).stepper unit.toNat →
        dir.toNat ≤ 1 → x.state ≠ .unconfigured → scHomeMode x.cfg ≠ 0 →
        exec (.stepperHome c unit ei dir rsv) s = .next (s.after (stepperHome t unit.toNat (if dir == 1 then 1 else -1) c p)))
    ∧ (∀ ei rsv cfg, performs (.fanConfig c unit ei rsv cfg) p t = true → fanRangeOk cfg = true →
        fanSupplyError p cfg = none →
        (fcEnable cfg = true → fanCheckOk (p.tile t) unit.toNat cfg = true) → ((p.tile t).fan unit.toNat).runs = false →
        exec (.fanConfig c unit ei rsv cfg) s = .next (s.after (finish c 0x6C stOk t (configFan t unit.toNat cfg p))))
    ∧ (∀ rsv speed q, performs (.fanStatus c unit rsv) p t = true → q16Word ((p.tile t).fan unit.toNat).speed p = (speed, q) →
        exec (.fanStatus c unit rsv) s = .next (s.after (reply c 0x6D t (fanStatusBytes (p.tile t) unit.toNat speed) q)))
    ∧ (∀ ei rsv x, performs (.fanBaseline c unit ei rsv) p t = true → x = (p.tile t).fan unit.toNat → x.state = .running →
        x.good = true → x.suspended = false →
        exec (.fanBaseline c unit ei rsv) s = .next (s.after (startLevel t unit.toNat 0 (onFanU t unit.toNat
          (fun y => { y with state := .baseline, capture := some { ctx := c } }) (accept c 0x6E t p)))))

/-- The five ring and event commands run (R385, R386, R394 to R399, R405, R407). A RING_READ with data takes a free bulk buffer, or
goes whole into the reply to the near package. It rests on the readings and choices of the model in log entries 14, 17, 48, 208. -/
def Obligations.RingCommandsRun : Prop :=
  ∀ (s : State) (p : Pkg) (c : Ctx) (t : Nat), p = s.start →
    (∀ id desc i, performs (.ringConfig c id desc) p t = true → ringIdError p t id = none → i = bits id 14 0 →
        ringDescOk p t i desc = true → psramShort (p.tile t) = false → bits desc 7 0 = 0 → (p.tile t).ring? i = none →
        exec (.ringConfig c id desc) s = .next (s.after (finish c 0x70 stOk t p)))
    ∧ (∀ id desc i r, performs (.ringConfig c id desc) p t = true → ringIdError p t id = none → i = bits id 14 0 →
        ringDescOk p t i desc = true → psramShort (p.tile t) = false → bits desc 7 0 = 0 → (p.tile t).ring? i = some r →
        exec (.ringConfig c id desc) s = .next (s.after (finish c 0x70 stOk t
          (onTile t (fun x => dropWaits i { x with rings := { x.rings with
            rings := x.rings.rings.erase i, seqs := x.rings.seqs.set i r.nextSeq } }) p))))
    ∧ (∀ id desc i r q, performs (.ringConfig c id desc) p t = true → ringIdError p t id = none → i = bits id 14 0 →
        ringDescOk p t i desc = true → psramShort (p.tile t) = false → bits desc 7 0 ≠ 0 → (p.tile t).ring? i = some r →
        bits r.desc 23 16 = bits desc 23 16 → q = onTile t (dropWaits i) p →
        exec (.ringConfig c id desc) s = .next (s.after (finish c 0x70 stOk t (setRing t i
          (if bit r.desc 8 = bit desc 8 then { r with desc := desc, anchor := true, lastRec := none, trigAt := none }
            else { r.discard with desc := desc, trigAt := none }) q))))
    ∧ (∀ id desc i r b, performs (.ringConfig c id desc) p t = true → ringIdError p t id = none → i = bits id 14 0 →
        ringDescOk p t i desc = true → psramShort (p.tile t) = false → bits desc 7 0 ≠ 0 → (p.tile t).ring? i = some r →
        bits r.desc 23 16 ≠ bits desc 23 16 → allocBlock t (p.tile t) i (bits desc 23 16) = some b →
        exec (.ringConfig c id desc) s = .next (s.after (finish c 0x70 stOk t
          (setRing t i { r.discard with desc := desc, block := b, trigAt := none } (onTile t (dropWaits i) p)))))
    ∧ (∀ id desc i b n, performs (.ringConfig c id desc) p t = true → ringIdError p t id = none → i = bits id 14 0 →
        ringDescOk p t i desc = true → psramShort (p.tile t) = false → bits desc 7 0 ≠ 0 → (p.tile t).ring? i = none →
        allocBlock t (p.tile t) i (bits desc 23 16) = some b → n = (p.tile t).rings.seqs.getD i 1 →
        exec (.ringConfig c id desc) s = .next (s.after (finish c 0x70 stOk t
          (setRing t i { desc := desc, block := b, nextSeq := n, resetSeq := if n == 1 then 0 else n } p))))
    ∧ (∀ id cursor limit i r r1 upTo data n next q, performs (.ringRead c id cursor limit) p t = true → ringIdError p t id = none →
        i = bits id 14 0 → (p.tile t).ring? i = some r → 1 ≤ limit.toNat → limit.toNat ≤ 8192 →
        r1 = (if cursor == 0xFFFFFFFF then r else freeOlder r cursor.toNat) →
        upTo = (latchedSeq (p.tile t) (.command (.ringRead c id cursor limit))).getD r.nextSeq →
        ringDelivery r1 upTo cursor.toNat limit.toNat = (data, n, next) → q = setRing t i r1 p →
        (data = [] → exec (.ringRead c id cursor limit) s = .next (s.after (reply c 0x71 t (bulkRecord 0 0 0 next) q)))
        ∧ (∀ far, data ≠ [] → c.src = .far far → exec (.ringRead c id cursor limit) s
            = .next (s.after (reply c 0x71 t (bulkRecord 0 data.length n next ++ data) q)))
        ∧ (∀ b, data ≠ [] → (∀ far, c.src ≠ .far far) → freeBulk q = some b → exec (.ringRead c id cursor limit) s
            = .next (s.after (reply c 0x71 t (bulkRecord b data.length n next) (fillBulk b data q)))))
    ∧ (∀ id cursor limit i e, performs (.ringRead c id cursor limit) p t = true → ringIdError p t id = none →
        i = bits id 14 0 → (p.tile t).ring? i = none → latchedSeq (p.tile t) (.command (.ringRead c id cursor limit)) = some e →
        exec (.ringRead c id cursor limit) s = .next (s.after (reply c 0x71 t (bulkRecord 0 0 0 0xFFFFFFFF) p)))
    ∧ (∀ id i r, performs (.ringReset c id) p t = true → ringIdError p t id = none → i = bits id 14 0 → (p.tile t).ring? i = some r →
        exec (.ringReset c id) s = .next (s.after (finish c 0x72 stOk t (setRing t i r.discard p))))
    ∧ (∀ (word : Byte) rsv mask, performs (.eventMask c word rsv mask) p t = true → word.toNat ≤ 3 →
        exec (.eventMask c word rsv mask) s = .next (s.after (finish c 0x73 stOk t
          (onTile t (fun tl => { tl with events := { tl.events with
            masked := setBits tl.events.masked (32 * word.toNat + 31) (32 * word.toNat) mask.toNat } }) p))))
    ∧ (performs (.eventRead c) p t = true →
        exec (.eventRead c) s = .next (s.after (reply c 0x74 t
          (le 16 (p.tile t).events.pending.toNat ++ le 16 (p.tile t).events.masked.toNat)
          (onTile t (fun tl => { tl with events := { tl.events with pending := 0 } }) p))))

/-- The four bus commands run on each kind of port (R126, R127, R426, R427, R430, R431, R435, R442, R444). It rests on the readings
and choices of the model in log entries 51, 55, 56, 59, 183, 214. -/
def Obligations.BusCommandsRun : Prop :=
  ∀ (s : State) (p : Pkg) (c : Ctx) (t : Nat), p = s.start →
    (∀ (port : Byte) rsv cfg b, performs (.busConfig c port rsv cfg) p t = true → rsPortOf port.toNat = some b → rsCfgOk cfg = true →
        exec (.busConfig c port rsv cfg) s = .next (s.after (finish c 0x80 stOk t (configRs b cfg p))))
    ∧ (∀ rsv cfg, performs (.busConfig c 2 rsv cfg) p t = true → t1sCfgOk cfg = true →
        exec (.busConfig c 2 rsv cfg) s = .next (s.after (finish c 0x80 stOk t
          (if bits cfg 55 48 = 1 then writeFilter cfg p else configT1s cfg p))))
    ∧ (∀ (port : Byte) rsv (len : BitVec 16) frame b f, performs (.busSend c port rsv len frame) p t = true →
        rsPortOf port.toNat = some b → 1 ≤ len.toNat → len.toNat ≤ 1012 → (rsOf p b).mode = 1 → f = frame.take len.toNat →
        2 ≤ f.length → f.length ≤ 503 → (f.headD 0 = ftExpecting ∨ f.headD 0 = ftNotExpecting) →
        (∀ src limit, (rsOf p b).reply = some (src, limit) →
          ¬(f.headD 0 = ftNotExpecting ∧ f.getD 1 0 = src ∧ p.now ≤ limit ∧ (rsOf p b).sending = none ∧ (rsOf p b).running = true)) →
        (rsOf p b).queue.length < 16 →
        exec (.busSend c port rsv len frame) s = .next (s.after
          (onRs b (fun r => { r with queue := r.queue ++ [(c, f)] }) (accept c 0x81 t p))))
    ∧ (∀ (port : Byte) rsv (len : BitVec 16) frame b f src limit, performs (.busSend c port rsv len frame) p t = true →
        rsPortOf port.toNat = some b → 1 ≤ len.toNat → len.toNat ≤ 1012 → (rsOf p b).mode = 1 → f = frame.take len.toNat →
        2 ≤ f.length → f.length ≤ 503 → (rsOf p b).reply = some (src, limit) → f.headD 0 = ftNotExpecting → f.getD 1 0 = src →
        p.now ≤ limit → (rsOf p b).sending = none → (rsOf p b).running = true →
        exec (.busSend c port rsv len frame) s = .next (s.after
          (onRs b (fun r => hostFrame (c, f) { r with reply := none }) (accept c 0x81 t p))))
    ∧ (∀ rsv (len : BitVec 16) frame f, performs (.busSend c 2 rsv len frame) p t = true → len.toNat ≤ 1012 →
        tcOn p.sh.t1s.cfg = true → f = frame.take len.toNat → 14 ≤ f.length → f.length ≤ 1012 → p.sh.t1s.queue.length < 16 →
        exec (.busSend c 2 rsv len frame) s = .next (s.after
          (onT1s (queueT1s p.now (c, f)) (accept c 0x81 t p))))
    ∧ (∀ (port list : Byte) (first : BitVec 16) entries old new idx q q1, performs (.busMapLoad c port list first entries) p t = true →
        port.toNat ≤ 1 → list.toNat ≤ 1 → idx = 2 * list.toNat + port.toNat → old = (p.tile p.lead).table 3 idx →
        new = editTable old (if list.toNat == 0 then 0x20 else 0x21) (if list.toNat == 0 then 8 else 32) first.toNat entries →
        first.toNat ≤ leAt old 2 2 → busTableFull list.toNat new = false → tableValid p p.lead 3 idx new = true →
        claimConflict p p.lead 3 idx new = false → flashCheck (onlinePair p) p = (none, q) →
        q1 = forAll [0, 1] (fun u => onTile u (setActive 3 idx new)) q →
        exec (.busMapLoad c port list first entries) s = .next (s.after (finish c 0x82 stOk t
          (enforceClaims q.lead 3 idx new (if list.toNat = 1 then noteSources (if port.toNat = 0 then .bus0 else .bus1) q1 else q1)))))
    ∧ (∀ (port : Byte) rsv b, performs (.busStatus c port rsv) p t = true → rsPortOf port.toNat = some b →
        exec (.busStatus c port rsv) s = .next (s.after (reply c 0x83 t (rsRecord (rsOf p b)) p)))
    ∧ (∀ rsv, performs (.busStatus c 2 rsv) p t = true →
        exec (.busStatus c 2 rsv) s = .next (s.after (reply c 0x83 t (t1sRecord p.sh.t1s) p)))

/-- The three tether commands run (R417 to R419). It rests on the readings and choices of the model in log entries 49, 50, 51, 212,
219. -/
def Obligations.TetherCommandsRun : Prop :=
  ∀ (s : State) (p : Pkg) (c : Ctx) (t : Nat), p = s.start →
    (∀ cfg q, performs (.tetherConfig c cfg) p t = true → tetherCfgOk cfg = true → isFar p = false → hasTether p = true →
        flashCheck (onlinePair p) p = (none, q) →
        exec (.tetherConfig c cfg) s = .next (s.after (finish c 0x88 stOk t (applyTetherCfg cfg
          (writeSettings (fun x => { x with tether := cfg, share := BitVec.ofNat 8 (bits cfg 15 8) }) q)))))
    ∧ (∀ rsv, performs (.tetherPair c 0 rsv) p t = true → hasTether p = true → isFar p = false → sourceReady p = true →
        p.sh.tether.pairKey = none → p.sh.tether.pairing = none →
        exec (.tetherPair c 0 rsv) s = .next (s.after (sendPair (some c) (accept c 0x89 t p))))
    ∧ (∀ rsv q, performs (.tetherPair c 1 rsv) p t = true → hasTether p = true → (isFar p = true → fromService c = true) →
        sourceReady p = true → flashCheck (onlinePair p) p = (none, q) →
        exec (.tetherPair c 1 rsv) s = .next (s.after (finish c 0x89 stOk t (unpair (accept c 0x89 t q)))))
    ∧ (performs (.tetherStatus c) p t = true →
        exec (.tetherStatus c) s = .next (s.after (reply c 0x8A t (tetherRecord p.sh.tether) p)))

/-- The three panel commands and the four counter commands run (R482, R484, R491, R500, R507, R510, R511). It rests on the readings
and choices of the model in log entries 48, 62, 185, 188. -/
def Obligations.PanelCounterCommandsRun : Prop :=
  ∀ (s : State) (p : Pkg) (c : Ctx) (t : Nat), p = s.start →
    (∀ (wave : Byte) rsv states, performs (.panelUpdate c wave rsv states) p t = true → wave.toNat ≤ 15 → waveTable p wave.toNat ≠ [] →
        p.sh.panel.enabled = true → p.sh.panel.rails = true → p.sh.panel.cracked = false →
        exec (.panelUpdate c wave rsv states) s = .next (s.after
          (onPanel (fun x => { x with
              waiting := some (c, states.extractLsb' 0 40, wave, !x.crackEn), readyAt := p.now
              crackA := if x.crackEn then .excited else x.crackA })
            (dropWaiting stSuperseded (accept c 0x90 0 p)))))
    ∧ (∀ cfg, performs (.panelConfig c cfg) p t = true → panelCfgOk cfg = true →
        exec (.panelConfig c cfg) s = .next (s.after (finish c 0x91 stOk t (configPanel cfg p))))
    ∧ (∀ cfg, performs (.keyConfig c cfg) p t = true → keyCfgOk cfg = true →
        exec (.keyConfig c cfg) s = .next (s.after (finish c 0x92 stOk t
          (onKeys (fun k => { k.fresh with cfg := cfg, changes := k.changes }) p))))
    ∧ (∀ (n mode src sel : Byte) window, performs (.counterConfig c n mode src sel window) p t = true → n.toNat ≤ 7 →
        ctrCfgOk p.n t mode.toNat src.toNat sel.toNat window.toNat = true →
        exec (.counterConfig c n mode src sel window) s = .next (s.after (finish c 0xA0 stOk t
          (onTile t (fun tl => { tl with counters := { tl.counters with
            carries := tl.counters.carries.filter (fun y => y.1 != n.toNat)
            ctrs := tl.counters.ctrs.set n.toNat { mode := mode, src := src, sel := sel, window := window, setAt := p.now } } }) p))))
    ∧ (∀ (n : Byte) rsv, performs (.counterRead c n rsv) p t = true → n.toNat ≤ 8 →
        exec (.counterRead c n rsv) s = .next (s.after (reply c 0xA1 t
          ((if n.toNat = 8 then le 8 (p.tile t).counters.fixed.toNat ++ zeros 4
            else le 8 ((p.tile t).ctr n.toNat).value.toNat ++ le 4 (ctrFlags p t ((p.tile t).ctr n.toNat)))
            ++ le 4 (stamp32 p.now).toNat) p)))
    ∧ (∀ (k src : Byte) rsv, performs (.loupeConfig c k src rsv) p t = true → k.toNat ≤ 20 → (src = 0 ∨ src = 1 ∨ src = 0xFF) →
        exec (.loupeConfig c k src rsv) s = .next (s.after (finish c 0xA2 stOk t
          (onTile t (fun tl => { tl with counters := { tl.counters with
            loupeK := k, loupeSrc := src, tokens := 0, nextNo := 0, taken := 0, held := [] } }) p))))
    ∧ (∀ (first count : BitVec 16) l data next, performs (.loupeRead c first count) p t = true → count ≠ 0 → count.toNat ≤ 256 →
        l = loupeSpan (p.tile t).counters first.toNat count.toNat → data = l.flatMap sampleBytes →
        next = (l.getLast?.elim first.toNat (fun x => (x.no + 1).toNat)) →
        (data = [] → exec (.loupeRead c first count) s = .next (s.after (reply c 0xA3 t (bulkRecord 0 0 0 next) p)))
        ∧ (∀ far, data ≠ [] → c.src = .far far → exec (.loupeRead c first count) s
            = .next (s.after (reply c 0xA3 t (bulkRecord 0 data.length l.length next ++ data) p)))
        ∧ (∀ b, data ≠ [] → (∀ far, c.src ≠ .far far) → freeBulk p = some b → exec (.loupeRead c first count) s
            = .next (s.after (reply c 0xA3 t (bulkRecord b data.length l.length next) (fillBulk b data p)))))

/-- The policy, lock and entropy commands run (R470, R474, R475, R479). An ENTROPY_READ behind others that wait joins them. It rests
on the readings and choices of the model in log entries 43, 111. -/
def Obligations.PolicyCommandsRun : Prop :=
  ∀ (s : State) (p : Pkg) (c : Ctx) (t : Nat), p = s.start →
    (∀ (port : Byte) rsv epoch rules q, performs (.policyLoad c port rsv epoch rules) p t = true → port.toNat ≤ 5 →
        rulesOk port.toNat rules = true → epochAhead epoch ((p.tile t).policy port.toNat).epoch = true → ownerLocked p = false →
        flashCheck (onlineTiles p) p = (none, q) →
        exec (.policyLoad c port rsv epoch rules) s = .next (s.after (onShared (fun x => { x with policyPend := x.policyPend ++
          [{ port := port.toNat, policy := policyOf epoch rules, at_ := nextMultiple msTicks (q.now + 1), ctx := c }] }) q)))
    ∧ (∀ (port : Byte) rsv, performs (.policyRead c port rsv) p t = true → port.toNat ≤ 5 →
        exec (.policyRead c port rsv) s = .next (s.after (reply c 0xB1 t
          (le 2 ((p.tile t).policy port.toNat).epoch.toNat ++ zeros 2 ++ policyBytes ((p.tile t).policy port.toNat)) p)))
    ∧ (∀ (set : Byte) rsv, performs (.ownerLock c set rsv) p t = true → set.toNat ≤ 1 → ownerLocked p = (set == 1) →
        exec (.ownerLock c set rsv) s = .next (s.after (finish c 0xB2 stOk t p)))
    ∧ (∀ (set : Byte) rsv q, performs (.ownerLock c set rsv) p t = true → set.toNat ≤ 1 → ownerLocked p ≠ (set == 1) →
        flashCheck (onlineTiles p) p = (none, q) →
        exec (.ownerLock c set rsv) s = .next (s.after (finish c 0xB2 stOk t
          (onTiles (fun _ tl => { tl with flash := { tl.flash with ownerLock := set == 1 } }) q))))
    ∧ (∀ (bytes rsv : BitVec 16), performs (.entropyRead c bytes rsv) p t = true → 4 ≤ bytes.toNat → bytes.toNat ≤ 256 →
        bytes.toNat % 4 = 0 → (p.tile t).entropy.ready = true →
        exec (.entropyRead c bytes rsv) s = .next (s.after (serveEntropy t
          ((p.tile t).entropy.waits ++ [{ ctx := c, bytes := bytes.toNat, until_ := p.now + 100 * msTicks }]) p)))

/-- The update commands run (R457 to R459, R461, R463, R468). It rests on the readings and choices of the model in log entries 41,
42, 175, 176. -/
def Obligations.UpdateCommandsRun : Prop :=
  ∀ (s : State) (p : Pkg) (c : Ctx) (t : Nat), p = s.start →
    (∀ (len : Word) hdr q, performs (.updateBegin c len hdr) p t = true → updateReason p = 0 → updateBusy p = false →
        headerForm hdr = true → ihLength hdr = len.toNat → mapForm hdr = true →
        flashCheck ((List.range p.n).filter (online p)) p = (none, q) → q.sh.update.erasing = none →
        exec (.updateBegin c len hdr) s = .next (s.after (onUpdate (fun u => { u with
          state := .idle, erasing := some (c, hdr), image := [], received := 0, length := 0, tilesNew := 0 })
          (setNegatives .empty (dropWrites t q)))))
    ∧ (∀ (off : Word) data q, performs (.updateData c off data) p t = true → updateReason p = 0 → p.sh.update.state = .downloading →
        off.toNat = p.sh.update.received → off.toNat + data.length ≤ p.sh.update.length.toNat →
        flashCheck ((List.range p.n).filter (online p)) p = (none, q) →
        exec (.updateData c off data) s = .next (s.after (onUpdate (fun u => { u with
          image := u.image ++ data, received := u.received + data.length
          writing := u.writing ++ [(c, u.received,
            (List.range p.n).filter (fun k => online p k && (p.tile k).images.negState == .downloading))] }) q)))
    ∧ (∀ crc, performs (.updateEnd c crc) p t = true → updateReason p = 0 → p.sh.update.state = .downloading →
        p.sh.update.length.toNat ≤ p.sh.update.received → p.sh.update.ending = none → p.sh.update.writing ≠ [] →
        exec (.updateEnd c crc) s = .next (s.after (onUpdate (fun u => { u with ending := some (c, crc) }) p)))
    ∧ (∀ crc q, performs (.updateEnd c crc) p t = true → updateReason p = 0 → p.sh.update.state = .downloading →
        p.sh.update.length.toNat ≤ p.sh.update.received → p.sh.update.ending = none → p.sh.update.writing = [] →
        deniedNow p p.lead 0xC2 c = false →
        flashCheck ((List.range p.n).filter (online p)) p = (none, q) → crc32c q.sh.update.image = crc →
        exec (.updateEnd c crc) s = .next (s.after (finish c 0xC2 stOk p.lead (raiseAll 87 (onUpdate (fun u => { u with state := .staged })
          (onTiles (fun _ tl => if tl.images.negState == .downloading then
            { tl with images := { tl.images with neg := imageOf q.sh.update.image, negState := .staged } } else tl) q))))))
    ∧ (∀ (conf : Byte) rsv (window : BitVec 16), performs (.activate c conf rsv window) p t = true → updateReason p = 0 →
        conf.toNat ≤ 1 → 60 ≤ window.toNat → window.toNat ≤ 3600 → updateBusy p = false →
        anyTile p (fun u tl => !online p u || tl.images.negState != .staged) = false →
        exec (.activate c conf rsv window) s = .next (s.after (nextTile (accept c 0xC3 t (onUpdate (fun u => { u with
          state := .activating, ctx := some c, order := activationOrder p, confirmHost := conf.toNat == 1
          windowSecs := window.toNat, rejectTile := 0xFF, fixed := false, tries := 0, retryAt := none, busy := none }) p)))))
    ∧ (performs (.fix c) p t = true → p.sh.update.state = .window →
        exec (.fix c) s = .next (s.after (finish c 0xC4 stOk t (onUpdate (fun u => { u with fixed := true }) p))))
    ∧ (performs (.updateStatus c) p t = true →
        exec (.updateStatus c) s = .next (s.after (reply c 0xC5 t (updateRecord p) p)))

/-- The transactions of the host run where the port answers, and their data bytes count for a bandwidth counter of the host port
(R77, R79, R82, R83, R89, R91 to R96, R105, R504). It rests on the readings and choices of the model in log entries 12, 15, 210. -/
def Obligations.HostTransactionsRun : Prop :=
  ∀ (s b w : State), b = s.begun → w = hostCrosses 4 0 b →
    (∀ len x, hostAnswers b = true → len ≠ 0 → x = hostCrosses 0 len b →
        exec (.poll len) s = .next (drain (notePoll (onHp (fun h => { h with readData := hpRead x len 0 }) x))))
    ∧ (∀ len, hostAnswers b = false →
        exec (.poll len) s = .next (drain (onHp (fun h => { h with readData := List.replicate len 0xFF }) b)))
    ∧ (∀ v, hostAnswers b = true → subProdOk b.hp.rings v = true →
        exec (.subProd v) s = .next (drain (onHpRings (fun r => { r with
          subProd := v
          unmirrored := (r.subProd, b.pkg.now) :: r.unmirrored.filter (fun q => b.pkg.now < q.2 + mirrorTicks) }) w)))
    ∧ (∀ v, hostAnswers b = true → compConsOk b.hp.rings v = true →
        exec (.compCons v) s = .next (drain (notePoll
          (postHeld (onHpRings (fun r => { r with compCons := v }) w)))))
    ∧ (∀ v, hostAnswers b = true → 4 ≤ v.toNat → v.toNat ≤ 15 →
        exec (.dummy v) s = .next (drain (onHp (fun h => { h with dummy := v.extractLsb' 0 4 }) w)))
    ∧ (hostAnswers b = true → exec (.hpRingReset 0) s = .next (drain w))
    ∧ (hostAnswers b = true → exec (.hpRingReset 1) s = .next (drain (postHeld (onHp (fun h => countLost
          (countFrames b.hp.rings.subMem 16384 b.hp.rings.subCons.toNat b.hp.rings.subUsed)
          { h with rings := { b.hp.rings with
              subProd := 0, subCons := 0, compProd := 0, compCons := 0, halted := false, unmirrored := [] } }) w))))
    ∧ (∀ v, hostAnswers b = true → v.toNat ≤ 0xFFFF →
        exec (.bulkRelease v) s = .next (drain (onPkg (releaseBulk ((List.range 16).filter (fun k => v.getLsbD k))) w)))
    ∧ (∀ (addr : BitVec 24) data f, hostAnswers b = true → data.length = 4 → writeRegister addr.toNat (w32 (leNat data)) = some f →
        exec (.hostPortWrite addr data) s = .next (drain (f w)))
    ∧ (∀ (addr : BitVec 24) data, hostAnswers b = true → (data.length = 4 → writeRegister addr.toNat (w32 (leNat data)) = none) →
        (hpWriteBytes b.hp.rings.subMem addr.toNat data).2 = false →
        exec (.hostPortWrite addr data) s = .next (drain
          (onHpRings (fun r => { r with subMem := (hpWriteBytes b.hp.rings.subMem addr.toNat data).1 }) (hostCrosses data.length 0 b))))
    ∧ (∀ cmd, hostAnswers b = true → validCommand cmd = false →
        exec (.hpInvalidCommand cmd) s = .next (drain (countErrors 1 b)))
    ∧ (∀ (addr : BitVec 24) data, hostAnswers b = true →
        exec (.hpBrokenByte true addr data) s
          = .next (drain (countErrors 1 (hostWrite addr.toNat data (hostCrosses data.length 0 b))))
        ∧ exec (.hpBrokenByte false addr data) s
          = .next (drain (countErrors 1 (hostRead addr.toNat data.length (hostCrosses 0 data.length b)))))

/-- The taking of packets, the contact sheet, and the host's absences run (R86, R91, R96, R99, R105). It rests on the readings and
choices of the model in log entries 101, 102. -/
def Obligations.HostEventsRun : Prop :=
  ∀ (s b : State), b = s.begun →
    (∀ hdr pkt c i, mayTake b = true → hdr = ringGet b.hp.rings.subMem b.hp.rings.subCons.toNat 8 →
        frames (pkLen hdr) b.hp.rings.subUsed = true →
        pkt = ringGet b.hp.rings.subMem b.hp.rings.subCons.toNat (12 + pkLen hdr) →
        packetError (onHpRings (fun r => { r with subCons := r.subCons + BitVec.ofNat 32 (12 + pkLen hdr) }) b) false pkt = none →
        c = { src := portSender b.pkg false (pkTag pkt), tile := BitVec.ofNat 4 (pkTile pkt), cls := BitVec.ofNat 2 (pkClass pkt)
              epoch := policyEpoch b.pkg b.pkg.lead (portSender b.pkg false (pkTag pkt)), ordered := leAt pkt 1 1 == 1 } →
        commandOf c (pkOp pkt) (pkPayload pkt) = some i →
        exec .packetTake s = .next (drain (onPkg (routeCommand c (pkOp pkt) (pkPayload pkt) i)
          (addTag false (pkTag pkt) (pkOp pkt) (pkTile pkt) c.ordered
            (onHpRings (fun r => { r with subCons := r.subCons + BitVec.ofNat 32 (12 + pkLen hdr) }) b)))))
    ∧ (∀ hdr, mayTake b = true → hdr = ringGet b.hp.rings.subMem b.hp.rings.subCons.toNat 8 →
        frames (pkLen hdr) b.hp.rings.subUsed = false →
        exec .packetTake s = .next (drain (onPkg (packetAnswer false hdr stBadLength true)
          (onHpRings (fun r => { r with halted := true }) b))))
    ∧ (hostAnswers b = true →
        exec .contactSheetRefresh s = .next (drain (refreshSheet (onPkg (advanceTo (refreshAt b.hp)) b))))
    ∧ (hostAnswers b = true → online b.pkg b.pkg.lead = true → b.hp.absent = false →
        exec .hostAbsent s = .next (drain (onHp (fun h => { h with absent := true })
          (onPkg (fun p => raise p.lead 126 (advanceTo (b.hp.lastPoll + 30 * secTicks) p)) b))))
    ∧ (∀ (k : BitVec 4) x, b.pkg.sh.bulk.find? k.toNat = some x →
        b.hp.rings.held.any (fun y => bulkNamed y == some k.toNat) = false →
        exec (.bulkTimeout k) s = .next (drain
          (onHp (fun h => { h with counts := { h.counts with bulkExpired := incSat h.counts.bulkExpired } })
            (onPkg (fun p => releaseBulk [k.toNat] (advanceTo x.until_ p)) b))))

/-- The steps of a lead handover and of a takeover run (R20, R21, R367). It rests on the readings and choices of the model in log
entries 7, 100. -/
def Obligations.LeadEventsRun : Prop :=
  ∀ (s b : State), b = s.begun →
    (∀ h, b.pkg.sh.handover = some h → h.quietAt = none → busSending b.pkg = false → b.pkg.now < h.startAt + 2 * msTicks →
        exec .handoverBusQuiet s = .next (s.after (onHandover (fun x => some { x with quietAt := some b.pkg.now }) b.pkg)))
    ∧ (∀ h q, b.pkg.sh.handover = some h → h.quietAt = none →
        (busSending b.pkg = true ∨ h.startAt + 2 * msTicks ≤ b.pkg.now) →
        q = abandonFrames (advanceTo (h.startAt + 2 * msTicks) b.pkg) →
        exec .handoverBusQuiet s = .next (s.after (onHandover (fun x => some { x with quietAt := some q.now }) q)))
    ∧ (∀ h, b.pkg.sh.handover = some h → h.quietAt ≠ none → online b.pkg (1 - b.pkg.lead % 2) = true →
        exec .handoverMirrorComplete s = .next (s.after (completeHandover h b.pkg)))
    ∧ (∀ h a, b.pkg.sh.handover = some h → h.quietAt = some a →
        exec .handoverCsTimeout s = .next (s.after (abandonHandover h (advanceTo (a + msTicks) b.pkg))))
    ∧ (mayTakeOver b.pkg = true → b.pkg.sh.leadLostAt ≤ b.pkg.now →
        exec .leadTakeover s = .next (drain (takeLead (1 - b.pkg.lead % 2) b)))
    ∧ (∀ q, awake b.pkg = true → b.pkg.sh.driven = false → online b.pkg b.pkg.lead = false →
        q = onPkg (advanceTo b.pkg.sh.leadLostAt) b → mayTakeOver q.pkg = true →
        exec .leadBootTimeout s = .next (drain (takeLead (1 - q.pkg.lead % 2) q)))

/-- The events of the fabric and of tiles in and out of service run (R17, R35, R37, R38, R42, R45 to R51). It rests on the readings
and choices of the model in log entries 7, 37, 39, 72, 73, 192, 211. -/
def Obligations.FabricEventsRun : Prop :=
  ∀ (s : State) (p : Pkg) (tile : TileId) (t : Nat), p = s.start → t = tile.toNat → t < s.pkg.n →
    (∀ r o u, awake p = true → (p.tile r.origin).fabric.out.find? (fun o => o.req == r && o.reply.isNone) = some o →
        hasArrived p r = false → localOf p r.tile.toNat = some u → (route p r.origin (meetingTile p r u)).isNone = false →
        testHolds p r.origin (meetingTile p r u) = false →
        exec (.fabricRequest r) s = .next (s.after (requestAt u o (advanceTo o.sentAt p))))
    ∧ (∀ id o rep, awake p = true → (p.tile t).fabric.out.find? (fun o => o.req.id == id && o.reply.isSome) = some o →
        o.reply = some rep → testHolds p ((localOf p rep.tile.toNat).getD p.lead) t = false →
        exec (.fabricReply tile id) s = .next (s.after (replyBack o rep (forAll (List.range p.n) (fun u => freeFlights u (isRequest o.req))
          (onTile t (fun tl => { tl with fabric := { tl.fabric with out := tl.fabric.out.filter (fun x => x.req != o.req) } }) p)))))
    ∧ (∀ id w, (p.tile t).fabric.queue.find? (fun w => w.order == id) = some w →
        exec (.admissionTimeout tile id) s = .next (s.after (notAdmitted t w.work
          (onTile t (fun tl => { tl with fabric := { tl.fabric with queue := tl.fabric.queue.filter (fun x => x.order != id) } })
            (advanceTo w.limit p)))))
    ∧ (∀ (tx : TileId) n, awake p = true → (bridges p.n t).contains tx.toNat = true → bridgeUp p t tx.toNat = true →
        exec (.bridgeParityError tile tx n) s = .next (s.after
          (if n < 3 then onTile t (fun tl => { tl with fabric := { tl.fabric with repeats := incSat tl.fabric.repeats } }) p
            else bridgeFails t tx.toNat p)))
    ∧ (((p.tile t).boot.marking || (p.tile t).boot.resetting) = true →
        exec (.offlineMark tile) s = .next (s.after (dropWriter t (forceMark t p))))
    ∧ (∀ (u : TileId) inc q, u.toNat < p.n → online p t = true → online p u.toNat = true → t ≠ u.toNat →
        inc = (p.tile u.toNat).boot.incarnation → (p.tile t).fabric.learned.getD (ownNo p u.toNat) 0 ≠ inc →
        q = onTile t (fun tl => { tl with fabric := { tl.fabric with
          learned := tl.fabric.learned.set (ownNo p u.toNat) inc
          copies := tl.fabric.copies.mapVals (fun k r => if k / 1048576 == ownNo p u.toNat then staleForm r else r) } }) p →
        exec (.incarnationAnnounce tile u) s = .next (s.after (raiseWith t 72 (ownNo p u.toNat + 256 * inc.toNat)
          (if holdsModel (p.tile u.toNat) && (p.tile t).fabric.learned.getD (ownNo p u.toNat) 0 != 0 then retractPlan q else q))))
    ∧ (∀ code, (p.tile t).boot.state = .online →
        exec (.tileFault tile code) s = .next (s.after
          (leaveService t .holding (raise t 127 (faultReplies t (onBoot t (fun b => { b with faultCode := code }) p))))))
    ∧ (∀ code, (p.tile t).boot.state = .restarting → awake p = true →
        exec (.tileFault tile code) s = .next (s.after
          (bootFails t (makeMark t (onBoot t (fun b => { b with faultCode := code }) p)))))
    ∧ (awake p = true → (p.tile t).boot.state = .holding →
        exec (.tileRestart tile) s = .next (s.after (beginRestart t (makeMark t p))))
    ∧ (∀ ok, awake p = true → (p.tile t).boot.state = .restarting →
        exec (.bootComplete tile ok) s = .next (drain (leadOnline t { s with pkg := bootCompletes t ok p })))

/-- The events of the loop and table engines, the governor, the calendar and the flash run (R60, R61, R70, R71, R205, R206, R251,
R254, R262, R357, R358). It rests on the readings and choices of the model in log entries 6, 7, 83, 89, 107, 112, 150, 152, 211. -/
def Obligations.LoopEventsRun : Prop :=
  ∀ (s : State) (p : Pkg) (tile : TileId) (t : Nat), p = s.start → t = tile.toNat → t < s.pkg.n →
    (∀ (group : BitVec 3) at_ q, boundaryDue p t group.toNat = some at_ → online p t = true → q = boundarySteps t (advanceTo at_ p) →
        ((q.tile t).group group.toNat).enabled = true → ((q.tile t).group group.toNat).latchDoneAt ≠ some q.now →
        exec (.rateGroupBoundary tile group) s = .next (s.after (latchGroup t group.toNat q)))
    ∧ (∀ (group : BitVec 3), ((p.tile t).group group.toNat).awaited ≠ [] → online p t = true →
        exec (.remoteReadTimeout tile group) s = .next (s.after
          (timeoutReads t group.toNat (advanceTo ((p.tile t).group group.toNat).readLimit p))))
    ∧ (∀ (slot : BitVec 9), slotReady p t slot.toNat = true → ((p.tile t).slot slot.toNat).late = false →
        exec (.slotEvaluation tile slot) s = .next (s.after (workDone t (dGroup ((p.tile t).slot slot.toNat).desc)
          (loopToken t slot.toNat false (loopEnds t (onTile t (Tile.onSlot slot.toNat (fun x =>
            { x with result := some (evalSlot (p.tile t) slot.toNat (tableHandle p)) })) p))))))
    ∧ (∀ (slot : BitVec 9), ((p.tile t).slot slot.toNat).late = true →
        exec (.slotEvaluation tile slot) s = .next (s.after (loopToken t slot.toNat true
          (loopEnds t (onTile t (Tile.onSlot slot.toNat (fun x => { x with late := false })) p)))))
    ∧ (∀ (machine : Byte), ((p.tile t).machine machine.toNat).late = true →
        exec (.machineEvaluation tile machine) s = .next (s.after
          (onTile t (fun tl => { tl with tableFree := p.now }) (onMach t machine.toNat (fun x => { x with late := false }) p))))
    ∧ (∀ (machine : Byte), machineReady p t machine.toNat = true → ((p.tile t).machine machine.toNat).late = false →
        exec (.machineEvaluation tile machine) s = .next (s.after
          (workDone t (machineGroup ((p.tile t).machine machine.toNat).image)
            (onTile t (fun tl => { tl with tableFree := p.now })
              (onMach t machine.toNat (fun x => { x with result := some (evalMachine p t machine.toNat), since := 0 }) p)))))
    ∧ (∀ q, asleep p = false →
        q = advanceTo (nextMultiple (10 * msTicks) (Nat.max p.now ((p.tile t).gov.windowAt + 1))) p →
        exec (.governorWindow tile) s = .next (s.after (onGov t (govWindow (if workWaits (q.tile t) then 900 else 0) q.now) q)))
    ∧ ((p.tile t).gov.settling = true →
        exec (.vcoreSettled tile) s = .next (s.after (settledChanges t (onGov t (fun g => { g with settling := false })
          (advanceTo (p.tile t).gov.settleAt p)))))
    ∧ (∀ (vio vhold vhv : Word) last q, asleep p = false → last = (p.tile t).points.getD (key 0 36) {} →
        q = putNow t (key 0 38) vhv .good (putNow t (key 0 37) vhold .good (putNow t (key 0 36) vio .good
          (advanceTo (nextMultiple msTicks (if last.q == .good && p.now % msTicks == 0 && last.time == stamp p.now then p.now + 1
            else p.now)) p))) →
        exec (.tmrTick tile vio vhold vhv) s = .next (s.after
          (if online p t then forAll (((q.tile t).counting.filter (fun x => x.2 < q.now)).map (·.1)) (stepTimer t) q
            else if bootBegun q t then readSafelight t q else q)))
    ∧ (online p t = true → (p.sh.rtc.secs.toNat % 60 ≠ 0 ∨ p.sh.rtc.sub ≠ 0) →
        exec (.calendarMinute tile) s = .next (s.after
          (runCalendars t (advance ((60 - p.sh.rtc.secs.toNat % 60) * secTicks - p.sh.rtc.sub) p))))
    ∧ (online p t = true → p.sh.rtc.secs.toNat % 60 = 0 → p.sh.rtc.sub = 0 →
        exec (.calendarMinute tile) s = .next (s.after (runCalendars t (advance 0 p))))
    ∧ (((p.tile t).supply.stopBath = false ∨ (p.tile t).supply.holdup = true) →
        exec (.flashWriteComplete tile) s = .next (s.after
          ((nextWrite (p.tile t)).elim (chunkWritten t p) (fun x => commitWritten t x p))))

/-- The events of the channels run (R43, R138, R140, R144, R145, R147, R149 to R153). It rests on the readings and choices of the
model in log entries 7, 103, 104, 166, 198 to 200, 224. -/
def Obligations.ChannelEventsRun : Prop :=
  ∀ (s : State) (p : Pkg) (tile : TileId) (t : Nat) (ch : BitVec 5) (c : Nat) (x : Chan), p = s.start → t = tile.toNat → t < s.pkg.n →
    c = ch.toNat → x = (p.tile t).chan c → p.inReset = false →
    (∀ uv : Int, exec (.comparatorEdge tile ch uv) s = .next (s.after (forAll (watchers (p.tile t) c) (fun k q =>
        if cmpOutput ((q.tile t).chan k) uv = ((q.tile t).chan k).drive.cmp then q
          else comparatorChange t k (cmpOutput ((q.tile t).chan k) uv) q) p)))
    ∧ (x.mode = 0x10 → senses x = true → exec (.inputFilterExpiry tile ch) s
        = .next (s.after (takeLevel t c (advanceTo (Nat.max (x.drive.cmpAt + x.filter * usTicks) x.drive.breakUntil) p))))
    ∧ exec (.isolationOpen tile ch) s = .next (s.after (faultOwners t c (setFault t c fOver
        (onChan t c (fun y => { y with prot := { y.prot with
          isolated := true, isolatedAt := if y.prot.isolated then y.prot.isolatedAt else p.now, outsideAt := p.now
          atLimit := false, uA := 0 } }) p))))
    ∧ (∀ q, x.prot.isolated = true → q = advanceTo (x.prot.outsideAt + 10 * msTicks) p →
        exec (.isolationClose tile ch) s = .next (s.after
          (onChan t c (fun y => reconnect q.now y { y with prot := { y.prot with isolated := false, closedAt := q.now } }) q)))
    ∧ (exec (.vhvThreshold tile true) s = .next (s.after
        (forAll ((List.range 32).filter (fun k => vhvMode (effMode ((p.tile t).chan k)))) (fun k q => faultOwners t k (setFault t k fVhv q))
          (onAllChans t (fun _ => vhvChan p.now true) (onTile t (fun tl => { tl with supply := { tl.supply with vhvLow := true } }) p)))))
    ∧ ((p.tile t).supply.vhvLow = true → exec (.vhvThreshold tile false) s = .next (s.after
        (onAllChans t (fun _ => vhvChan p.now false) (onTile t (fun tl => { tl with supply := { tl.supply with vhvLow := false } }) p))))
    ∧ exec (.blankingEnd tile ch) s = .next (s.after (syncChan t c (advanceTo x.prot.blankUntil p)))
    ∧ (stageOn x = true → exec (.limitTrip tile ch) s
        = .next (s.after (tripOff t c fLimit (advanceTo (x.prot.blankUntil + 50 * usTicks) p))))
    ∧ (∀ (group : BitVec 2) (amps : List Int) q,
        q = advanceTo (((p.tile t).budgetAt.find? group.toNat).elim 0 (fun a => a + 100 * usTicks)) p →
        exec (.budgetTrip tile group amps) s = .next (s.after
          (forAll (budgetVictims q.now (q.tile t) group.toNat amps) (fun k => tripOff t k fBudget)
            (onTile t (fun tl => { tl with budgetAt := tl.budgetAt.set group.toNat q.now }) q))))
    ∧ (∀ q, x.prot.tripped = true → x.prot.faults.getLsbD fLatched = false → effMode x ≠ 0 → retryTicks x ≠ 0 →
        q = advanceTo (x.prot.tripAt + retryTicks x) p → thermalDefers q t c = false →
        exec (.channelRetry tile ch) s = .next (s.after (driveBack t c q)))
    ∧ (x.prot.attempts ≠ 0 → stageOn x = true → exec (.channelAttemptReset tile ch) s = .next (s.after
        (onChan t c (fun y => { y with prot := { y.prot with attempts := 0 } }) (advanceTo (x.prot.onAt + 10 * secTicks) p))))
    ∧ (∀ uA, stageOn x = true → padOf p.now (p.tile t) c = .current uA → 1000 < padCommand x →
        exec (.openLoad tile ch) s = .next (s.after (setFault t c fOpenLoad p)))
    ∧ (effMode x = 0x18 → x.prot.isolated = false → x.prot.vhvOff = false →
        exec (.gateFault tile ch) s = .next (s.after (faultOwners t c (setFault t c fGate p))))
    ∧ (x.out = .hold → exec (.holdLimitExpiry tile ch) s
        = .next (s.after (onChan t c (enterSafelight (safeEntry (p.tile t) c)) (advanceTo x.holdUntil p))))
    ∧ (∀ meas next q, next = nextMultiple msTicks (if p.sh.thermal.at_ == some p.now then p.now + 1 else p.now) →
        q = recordSums (measureAll meas (advanceTo next p)) →
        exec (.thermalBudget meas) s = .next (s.after
          (if online q q.lead then enforceBudget (List.range q.n) budgetNw q
            else forAll (List.range q.n) (fun u => enforceBudget [u] (budgetNw / q.n)) q)))

/-- The events of the converters, the profile engines and the angle trackers run (R165, R174, R181, R183, R303, R305 to R308, R320,
R322). It rests on the readings and choices of the model in log entries 7, 27, 97, 98, 115, 116. -/
def Obligations.EngineEventsRun : Prop :=
  ∀ (s : State) (p : Pkg) (tile : TileId) (t : Nat), p = s.start → t = tile.toNat → t < s.pkg.n →
    (∀ adc src p1, p1 = catchUp t p.now p → online p t = true → ((p1.tile t).adc adc).reg.state = .armed →
        ((p1.tile t).adc adc).reg.trig = src →
        exec (.seqTrigger tile adc src) s = .next (s.after (onTile t (startPass (triggeredAt p1.now) adc) p1)))
    ∧ (∀ adc src, online p t = true → ((p.tile t).adc adc).inj.mode = 3 → ((p.tile t).adc adc).inj.state ≠ .stopped →
        ((p.tile t).adc adc).inj.trig = src →
        exec (.urgentTrigger tile adc src) s = .next (s.after (urgent t adc p)))
    ∧ (∀ adc input d rest, online p t = true → ((p.tile t).adc adc).ended = d :: rest →
        exec (.seqEntryResult tile adc input) s = .next (s.after (writeResult t adc d input (advanceTo (resultAt d.last)
          (onTile t (fun tl => tl.onAdc adc (fun x => { x with ended := rest })) p)))))
    ∧ (∀ adc input a d p1, a = (p.tile t).adc adc → online p t = true → a.ended = [] → a.busy = true →
        d = a.ending (p.tile t).conv →
        p1 = (if refSettled (p.tile t).conv a.active then writeResult t adc d input (advanceTo (resultAt d.last) p)
          else skipEntry t d.ref.toNat (advanceTo d.last p)) →
        exec (.seqEntryResult tile adc input) s = .next (s.after (finishEntry t adc d.last p1)))
    ∧ (∀ (ref : BitVec 2) q, ref ≠ 3 → p.inReset = false →
        q = (if ref == 0 then advanceTo ((p.tile t).conv.enabledAt + 2 * msTicks) p else p) →
        exec (.refSettled tile ref) s = .next (s.after (onTile t (fun tl => { tl with conv := { tl.conv with
          settled := tl.conv.settled ||| (1#3 <<< ref.toNat), skipped := tl.conv.skipped &&& ~~~(1#3 <<< ref.toNat) } })
          (catchUp t q.now q))))
    ∧ (∀ (ref : BitVec 2), ref ≠ 0 → ref ≠ 3 →
        exec (.referenceLost tile ref) s = .next (s.after (onTile t (fun tl => { tl with conv := { tl.conv with
          settled := tl.conv.settled &&& ~~~(1#3 <<< ref.toNat)
          lostRefio := if ref == 1 then p.now else tl.conv.lostRefio
          lostVana := if ref == 2 then p.now else tl.conv.lostVana } }) (catchUp t p.now p))))
    ∧ (∀ (e : BitVec 3), ((p.tile t).engine e.toNat).phase = .running →
        exec (.instructionTimeEnd tile e) s = .next (s.after
          (nextInstr t e.toNat (advanceTo ((p.tile t).engine e.toNat).run.endAt p))))
    ∧ (∀ (e : BitVec 3) x d due q, x = (p.tile t).engine e.toNat → x.phase = .running → x.run.chop = true → x.gateA = false →
        d = Nat.max (x.run.tOff + x.run.toff) (x.run.tOn + 20 * usTicks) →
        due = (if p.now < d then d else if chopCmp p t e.toNat then Nat.max d (x.run.tOff + 8 * x.run.toff) else p.now) →
        due < x.run.endAt → q = advanceTo due p → chopCmp q t e.toNat = false →
        exec (.chopOffTime tile e) s = .next (s.after (onEng t e.toNat (fun y => { y with
          gateA := true, gateB := y.binding.any fpTwo, run := { y.run with tOn := q.now } }) q)))
    ∧ (∀ (e : BitVec 3) code w, ((p.tile t).engine e.toNat).phase = .running → ((p.tile t).engine e.toNat).run.window = some w →
        w.opened = true → (sampleDue p.now w).2 ≤ w.endAt →
        exec (.detectSample tile e code) s = .next (s.after (detect t e.toNat code.toNat p)))
    ∧ (∀ (e : BitVec 3) w, ((p.tile t).engine e.toNat).run.window = some w →
        exec (.detectWindowEnd tile e) s = .next (s.after (closeWindow t e.toNat false (advanceTo w.endAt p))))
    ∧ (∀ (e : BitVec 3), ((p.tile t).engine e.toNat).phase = .shutter →
        exec (.shutterEnd tile e) s = .next (s.after
          (endShutter t e.toNat (advanceTo ((p.tile t).engine e.toNat).shutterEnd p))))
    ∧ (∀ (k : BitVec 1) x, x = (p.tile t).tracker k.toNat → online p t = true → (x.state = .sync ∨ x.state = .tracking) →
        exec (.toothWindowClose tile k) s = .next (s.after (emptyWindow t k.toNat (advanceTo (windowCloses x + 1) p))))
    ∧ (∀ (k : BitVec 1) at_ q, firstFiring ((p.tile t).tracker k.toNat).firings = some at_ → q = advanceTo at_ p →
        exec (.angleFiringDue tile k) s = .next (s.after
          (fireDue t k.toNat (fun f => f.at_ ≤ q.now) q)))

/-- The events of the steppers and fans run (R331, R335, R336, R343 to R345, R348, R349). It rests on the readings and choices of
the model in log entries 7, 94, 95, 96. -/
def Obligations.MotionEventsRun : Prop :=
  ∀ (s : State) (p : Pkg) (tile : TileId) (t : Nat) (unit : BitVec 2) (u : Nat) (x : Stepper) (f : Fan), p = s.start →
    t = tile.toNat → t < s.pkg.n → u = unit.toNat → x = (p.tile t).stepper u → f = (p.tile t).fan u →
    (x.state = .moving → exec (.stepDue tile unit) s = .next (s.after (stepperItems t u (takeStep t u (advanceTo x.nextAt p)))))
    ∧ (x.state = .dwell → exec (.dwellEnd tile unit) s = .next (s.after (stepperItems t u (govern t u (advanceTo x.nextAt p)))))
    ∧ (x.state = .homing → exec (.homeStep tile unit) s = .next (s.after (stepperItems t u (homeDue t u (advanceTo x.nextAt p)))))
    ∧ (∀ at_, x.holdAt = some at_ → x.state = .standstill → exec (.holdTimeEnd tile unit) s = .next (s.after
        (stepperItems t u (deenergise t u (onStep t u (fun y => { y with holdAt := none }) (advanceTo at_ p))))))
    ∧ (fanLive p t u = true → (∀ a r, f.samples = a :: r → a.1 ≠ p.now) → exec (.tachSpeedUpdate tile unit) s
        = .next (s.after (fanUpdate t u (advanceTo (nextMultiple (250 * msTicks) p.now) p))))
    ∧ (fanLive p t u = true → (∃ a r, f.samples = a :: r ∧ a.1 = p.now) → exec (.tachSpeedUpdate tile unit) s
        = .next (s.after (fanUpdate t u (advanceTo (nextMultiple (250 * msTicks) (p.now + 1)) p))))
    ∧ (∀ k due, fcTach f.cfg = some k → tachLostDue f = some due → fanLive p t u = true →
        exec (.tachLostTimeout tile unit) s = .next (s.after (tachLost t u (advanceTo due p))))
    ∧ (fanLive p t u = true → f.state = .starting → f.suspended = false → exec (.startWindowEnd tile unit) s = .next (s.after
        (if (fcTach f.cfg).isNone || f.good then fanStarted t u (advanceTo f.until_ p) else fanFailed t u (advanceTo f.until_ p))))
    ∧ (fanLive p t u = true → f.state = .backoff → f.suspended = false →
        exec (.backoffEnd tile unit) s = .next (s.after (fanObey t u (fanOff t u (advanceTo f.until_ p)))))
    ∧ (fanLive p t u = true → (f.state = .openLoop ∨ (f.state = .running ∧ f.lostAt ≠ none)) → f.suspended = false →
        exec (.tachLossSecond tile unit) s = .next (s.after (judgeLoss t u (advanceTo f.until_ p))))
    ∧ (∀ g, f.goodSince = some g → fanLive p t u = true → f.state = .running → f.suspended = false → f.attempts ≠ 0 →
        exec (.fanAttemptReset tile unit) s = .next (s.after
          (onFanU t u (fun y => { y with attempts := 0 }) (advanceTo (g + 60 * secTicks) p))))
    ∧ (∀ c, f.capture = some c → fanLive p t u = true →
        exec (.baselineLevelEnd tile unit) s = .next (s.after (endLevel t u (advanceTo c.levelEnd p))))
    ∧ (∀ q, fanLive p t u = true → q = advanceTo (nextMultiple (10 * secTicks) (Nat.max p.now (f.agedAt + 1))) p →
        exec (.ageingSample tile unit) s = .next (s.after (ageFan t u (onFanU t u (fun y => { y with agedAt := q.now }) q))))

/-- The events of the predictor, the planner, the rings, the counters and the entropy source run (R132, R273, R286, R289, R290,
R390, R474, R476 to R479, R504, R505). It rests on the readings and choices of the model in log entries 7, 28, 29, 33, 34, 148, 189,
194, 209, 210. -/
def Obligations.PredictorEventsRun : Prop :=
  ∀ (s : State) (p : Pkg) (tile : TileId) (t : Nat), p = s.start → t = tile.toNat → t < s.pkg.n →
    (∀ c mask rest fail, (p.tile t).counters.tests = (c, mask) :: rest →
        exec (.selfTestComplete tile fail) s = .next (s.after (reply c 0xF0 t (le 4 (mask &&& ~~~fail).toNat ++ le 4 (mask &&& fail).toNat)
          (onTests t (fun _ => rest) p))))
    ∧ (online p t = true → exec (.liveStep tile) s = .next (s.after (liveStep t (advanceTo (nextMultiple (planStep p * secTicks)
        (if (p.tile t).pred.liveAt == some p.now then p.now + 1 else p.now)) p))))
    ∧ (awake p = true → prEnable (planRec p) = true → online p (planCoord p) = true →
        exec .planningBoundary s = .next (s.after (planningBoundary s.hp.absent (advanceTo
          (nextMultiple (60 * prCycle (planRec p) * secTicks) (if p.sh.planner.boundaryAt == some p.now then p.now + 1 else p.now)) p))))
    ∧ (∀ e b q, awake p = true → p.sh.planner.eval = some e → e.brackets[e.done.length]? = some b →
        e.nodes.all (fun n => online p n.1) = true → online p (planCoord p) = true →
        q = onPlanner (fun x => { x with eval := some { e with done := e.done ++ [simulate p e b] } }) p →
        exec .bracketComplete s = .next (s.after
          (if e.done.length + 1 = e.brackets.length then finishEval { e with done := e.done ++ [simulate p e b] } q else q)))
    ∧ (∀ msg, adviceOut p t msg = none → online p t = true →
        exec (.adviceMessage tile msg) s = .next (s.after (receiveAdvice t msg p)))
    ∧ (∀ msg r, adviceOut p t msg = some r → awake p = true → exec (.adviceMessage tile msg) s = .next (s.after (requestArrives r p)))
    ∧ (∀ at_ q, adviceLapse (p.tile t).pred.advice = some at_ → online p t = true → q = advanceTo at_ p →
        exec (.adviceExpiry tile) s = .next (s.after
          (if (q.tile t).pred.advice.latent.any (fun x => x.2 == at_) then restoreAdvice t q
            else onAdvice t (fun a => { a with fixedUntil := none })
              (writeAdvice t ((adviceKeys (q.tile t).pred.advice.var).map (fun k => (readPoint q t k).value)) .stale q))))
    ∧ (∀ (ring : BitVec 15) r, (p.tile t).ring? ring.toNat = some r → r.trigger = 2 → online p t = true → r.param ≠ 0 →
        exec (.ringPeriodTrigger tile ring) s = .next (s.after (firePeriod t ring.toNat r
          (advanceTo (nextMultiple r.periodTicks (if r.trigAt == some p.now then p.now + 1 else p.now)) p))))
    ∧ (∀ (ring : BitVec 15) r w q, (p.tile t).ring? ring.toNat = some r →
        (p.tile t).rings.waits.find? (fun w => w.ring == ring.toNat && w.got.isNone) = some w → online p t = true →
        q = advanceTo w.limit p →
        exec (.ringSourceTimeout tile ring) s = .next (s.after (sourceArrived t ring.toNat w.at_ (staleForm (copyOf q t r.source)) q)))
    ∧ (∀ (n : BitVec 3) rx tx c q, c = (p.tile t).ctr n.toNat → c.mode = 2 → awake p = true → q = advanceTo (windowEnd p.now c) p →
        exec (.counterWindow tile n rx tx) s = .next (s.after (onTile t (fun tl => { tl with counters := { tl.counters with
          ctrs := tl.counters.ctrs.modify n.toNat Ctr.reset (latchWindow (portAway p t c.src.toNat) q.now rx tx) } }) q)))
    ∧ (∀ (n : BitVec 3), (p.tile t).counters.carries.any (fun y => y.1 == n.toNat) = true →
        exec (.counterWrap tile n) s = .next (s.after (takeWrap t n.toNat p)))
    ∧ (∀ samples last run p1, awake p = true → (p.tile t).entropy.failed = false → (p.tile t).boot.state ≠ .offline →
        healthTests (p.tile t).entropy samples = (last, run, false) → (p.tile t).entropy.started = false →
        p1 = onEntropy t (fun e => { e with last := last, run := run }) p →
        exec (.entropyCondition tile samples) s = .next (s.after (onEntropy t (fun e => { e with started := true }) p1)))
    ∧ (∀ samples last run p1 q q1, awake p = true → (p.tile t).entropy.failed = false → (p.tile t).boot.state ≠ .offline →
        healthTests (p.tile t).entropy samples = (last, run, false) → (p.tile t).entropy.started = true →
        p1 = onEntropy t (fun e => { e with last := last, run := run }) p →
        q = onEntropy t (fun e => { e with pool := (e.pool ++ sha256 (le 128 samples.toNat)).take 512 }) p1 →
        q1 = (if !(p.tile t).entropy.ready && 512 ≤ poolBits (q.tile t).entropy then
          raise t 90 (onEntropy t (fun e => { e with ready := true }) q) else q) →
        exec (.entropyCondition tile samples) s = .next (s.after (serveEntropy t (q1.tile t).entropy.waits q1)))
    ∧ (∀ recent q, awake p = true → (p.tile t).entropy.failed = false →
        recent = ((p.tile t).entropy.failures.filter (fun x => p.now < x + 10 * secTicks)) ++ [p.now] →
        q = raise t 91 (forAll (p.tile t).entropy.waits (fun w => finish w.ctx 0xB3 stNotReady t)
          (onEntropy t (fun _ => { failed := 3 ≤ recent.length, failures := recent }) p)) →
        exec (.entropyHealthFailure tile) s = .next (s.after (if 3 ≤ recent.length then raise t 127 q else q))
        ∧ ∀ samples, (p.tile t).boot.state ≠ .offline → (healthTests (p.tile t).entropy samples).2.2 = true →
          exec (.entropyCondition tile samples) s = .next (s.after (if 3 ≤ recent.length then raise t 127 q else q)))
    ∧ (∀ w rest, (p.tile t).entropy.waits = w :: rest →
        exec (.entropyWaitExpiry tile) s = .next (s.after (serveEntropy t rest
          (finish w.ctx 0xB3 stNotReady t (onEntropy t (fun e => { e with waits := rest }) (advanceTo w.until_ p))))))
    ∧ (∀ w rest q, p.sh.policyPend = w :: rest → q = advanceTo w.at_ p →
        exec .policySwitch s = .next (s.after (switchPolicies (q.sh.policyPend.filter (fun x => x.at_ ≤ q.now))
          (onShared (fun x => { x with policyPend := x.policyPend.filter (fun y => !decide (y.at_ ≤ q.now)) }) q))))

/-- The events of monitors, permits, die sensors and supplies run (R264, R265, R360 to R362, R370 to R375). It rests on the readings
and choices of the model in log entries 7, 65, 75, 76, 171. -/
def Obligations.SupplyEventsRun : Prop :=
  ∀ (s : State) (p : Pkg) (tile : TileId) (t : Nat), p = s.start → t = tile.toNat → t < s.pkg.n →
    (awake p = true → online p t = true → exec (.rateOfRiseSample tile) s = .next (s.after (sampleMonitors t p)))
    ∧ (awake p = true → online p p.lead = true → exec .permitEvaluation s = .next (s.after (evaluatePermits p)))
    ∧ (∀ h a q, p.sh.permits.copyAt.find? (bits h 23 0) = some a → awake p = true → online p p.lead = true →
        q = advanceTo (a + copyTicks) p →
        exec (.copyStaleTimeout h) s = .next (s.after (setCopy p.lead h (staleForm (copyOf q p.lead h)) q)))
    ∧ (∀ (k : BitVec 2) x q, awake p = true → x = p.sh.permits.permits.getD k.toNat Permit.reset → x.permitted = true →
        q = advanceTo (nextMultiple (500 * usTicks) (x.pulseAt.elim p.now (fun a => Nat.max p.now (a + 1)))) p →
        exec (.permitPulse k) s = .next (s.after (onPermits
          (fun y => { y with permits := y.permits.modify k.toNat Permit.reset
                               (fun z => { z with high := q.now % msTicks == 0, pulseAt := some q.now }) }) q)))
    ∧ (∀ t0 t1 t2 t3 q, q = onSupply t (fun x => { x with die := [t0, t1, t2, t3] }) p →
        exec (.dieTemperature tile t0 t1 t2 t3) s = .next (s.after (if awake p && online p t then measureDie t q else q)))
    ∧ ((p.tile t).supply.powerFail = false → exec (.powerFailWarning tile true) s
        = .next (s.after (raiseSupply t 70 (onSupply t (fun x => { x with powerFail := true }) p))))
    ∧ (exec (.powerFailWarning tile false) s = .next (s.after (onSupply t (fun x => { x with powerFail := false }) p)))
    ∧ ((p.tile t).supply.stopBath = false → exec (.stopBath tile true) s = .next (s.after (stopBathFalls t p)))
    ∧ (exec (.stopBath tile false) s = .next (s.after (onSupply t (fun x => { x with stopBath := false }) p)))
    ∧ (t ≠ 0 → exec (.vholdCharge tile true) s = .next (s.after (onSupply t (fun x => { x with holdCharged := true }) p)))
    ∧ (t = 0 → exec (.vholdCharge tile true) s = .next (s.after
        (onPanel Panel.recharge (onSupply 0 (fun x => { x with holdCharged := true }) p))))
    ∧ ((p.tile t).supply.holdCharged = true → (p.tile t).supply.stopBath = false → exec (.vholdCharge tile false) s
        = .next (s.after (raiseSupply t 71 (onSupply t (fun x => { x with holdCharged := false }) p))))
    ∧ ((p.tile t).supply.holdup = true → exec (.holdupPageDone tile) s
        = .next (s.after (lowWrites t none (lowCommits t none (holdupEnds t p)))))

/-- Resets, the release, the regulator fault, the TAP, the loss of VRTC and darkroom run (R45, R52, R56, R363 to R368, R376 to R380,
R487, R529). It rests on the readings and choices of the model in log entries 77 to 86, 211, 216, 219 to 221. -/
def Obligations.ResetEventsRun : Prop :=
  ∀ (s b : State) (tile : TileId) (t : Nat), b = s.begun → t = tile.toNat → t < s.pkg.n →
    (b.pkg.inReset = false →
      exec .resetN s = .next (drain { b with pkg := enterReset 1 b.pkg, hp := HostPort.reset })
      ∧ exec .vcc11Low s = .next (drain { b with pkg := enterReset 3 b.pkg, hp := HostPort.reset })
      ∧ exec .vanaLow s = .next (drain { b with pkg := enterReset 4 b.pkg, hp := HostPort.reset })
      ∧ exec .brownOut s = .next (drain (onPkg (onPanel (fun x => { x.ground with discharged := true }))
          { b with pkg := enterReset 2 b.pkg, hp := HostPort.reset })))
    ∧ (∀ straps powerUp q, b.pkg.inReset = true → q = releaseReset straps powerUp b.pkg →
        exec (.resetRelease straps powerUp) s = .next (drain (onHp (fun h => { h with
          sheet := memSet h.sheet 0x10 (BitVec.ofNat 8 q.lead), lastPoll := q.now }) { b with pkg := q })))
    ∧ (b.pkg.inReset = false → (b.pkg.sh.dark.dark = true → t = b.pkg.lead) →
        exec (.coreRegulatorFault tile) s = .next (s.after (coreFault t b.pkg)))
    ∧ (∀ instr q, q = onPkg (loadTap t instr) b →
        (tapForces instr = true → exec (.tapInstruction tile instr) s = .next (drain (onPkg (fun p => permitsLow (chansOff t p)) q)))
        ∧ (tapForces instr = false → tapForces (b.pkg.tile t).boot.tap = true →
            exec (.tapInstruction tile instr) s = .next (drain (packageReset 1 q)))
        ∧ (tapForces instr = false → tapForces (b.pkg.tile t).boot.tap = false →
            exec (.tapInstruction tile instr) s = .next (drain q)))
    ∧ exec .vrtcLoss s = .next (s.after (onTiles (fun _ tl => { tl with
          boot := { tl.boot with incLost := true }, supply := { tl.supply with vrtcGone := true } })
        (onShared (fun x => { x with rtc := {} }) b.pkg)))
    ∧ (∀ q, awake b.pkg = true → online b.pkg b.pkg.lead = true → b.pkg.sh.driven = true → q = onPkg (advanceToMultiple secTicks) b →
        darkTaken true q.pkg = true → exec (.darkroomCheck true) s = .next (drain (enterDark q)))
    ∧ (∀ source, b.pkg.inReset = false → b.pkg.sh.dark.dark = true → b.pkg.sh.dark.waking = false → mayWake source b.pkg = true →
        exec (.darkroomWake source) s = .next (s.after (wakeUp source b.pkg)))
    ∧ (∀ source, b.pkg.inReset = false → b.pkg.sh.dark.dark = true → b.pkg.sh.dark.waking = true → mayWake source b.pkg = true →
        exec (.darkroomWake source) s = .next (s.after (wakeAgain source b.pkg)))
    ∧ (∀ q, b.pkg.inReset = false → b.pkg.sh.dark.waking = true → q = onPkg resumeLead b →
        exec .darkroomResume s = .next (drain (if hostAnswers q then refreshSheet q else q)))

/-- Received tether frames and the tether's timers run (R414 to R417, R421 to R425). It rests on the readings and choices of the
model in log entries 7, 21, 44 to 48, 212. -/
def Obligations.TetherEventsRun : Prop :=
  ∀ (s : State) (p : Pkg), p = s.start →
    (∀ f v p0, tetherRuns p = true →
      p0 = onTether (fun te => { te with silent := none }) (countPort 0x12 p.now (18 + f.payload.length) 0 p) →
      (∀ q, q = acceptFrame ftHello v p0 →
          frameVerdict p ftHello (f.payload.length == 28) f = .valid v → linkOpen q.sh.tether = false → exec (.hello f) s = .next (s.after (gotHello f.payload q)))
      ∧ (∀ q, q = acceptFrame ftIdle v p0 →
          frameVerdict p ftIdle f.payload.isEmpty f = .valid v → exec (.idle f) s = .next (s.after q))
      ∧ (∀ q q1, q = acceptFrame ftTime v p0 →
          frameVerdict p ftTime (f.payload.length == 24) f = .valid v → linkOpen q.sh.tether = true → q1 = (gotTime f.payload q).2 →
          exec (.time f) s = .next (drain { s.begun with pkg := q1, hp := s.hp.shift (q1.now - p.now) }))
      ∧ (∀ q q1, q = acceptFrame ftClose v p0 →
          frameVerdict p ftClose (f.payload.length == 4) f = .valid v →
          q1 = (if linkOpen q.sh.tether then loseLink .lost q else q) →
          exec (.close f) s = .next (s.after
            (if isFar q && leAt f.payload 0 1 == 1 then onTether (fun te => { te with silent := some q.now }) q1 else q1)))
      ∧ (∀ q r, q = acceptFrame ftRequest v p0 →
          frameVerdict p ftRequest true f = .valid v → linkOpen q.sh.tether = true → q.sh.tether.serving.contains r.id = false → r.op ≠ .unpair →
          exec (.tetherRequest f (some r)) s = .next (s.after
            (onTile q.lead (fun tl => { tl with fabric := { tl.fabric with
                nextId := tl.fabric.nextId + 1
                out := tl.fabric.out ++ [{ req := { r with id := tl.fabric.nextId, origin := q.lead, purpose := .far r.id (asksDie r) }
                                           sentAt := q.now, limit := q.now + admissionTicks r.cls.toNat }] } })
              (onTether (fun te => { te with serving := te.serving ++ [r.id] }) q))))
      ∧ (∀ q id rep, q = acceptFrame ftReply v p0 →
          frameVerdict p ftReply true f = .valid v →
          (q.sh.tether.transactions.any (fun x => x.id == id) || q.sh.tether.requests.any (fun x => x.1 == id)) = true →
          exec (.tetherReply f id (some rep)) s = .next (s.after (gotReply id rep q)))
      ∧ (frameVerdict p ftRequest true f = .valid v →
          exec (.tetherRequest f none) s = .next (s.after (acceptFrame ftRequest v p0)))
      ∧ (∀ id, frameVerdict p ftReply true f = .valid v →
          exec (.tetherReply f id none) s = .next (s.after (acceptFrame ftReply v p0)))
      ∧ (∀ q, q = acceptFrame ftAnnounce v p0 →
          frameVerdict p ftAnnounce (f.payload.length == 8) f = .valid v → linkOpen q.sh.tether = true →
          exec (.announce f) s = .next (s.after (gotAnnounce f.payload q)))
      ∧ (∀ q, q = acceptFrame ftPair v p0 →
          frameVerdict p ftPair (f.payload.length == 32) f = .valid v → q.sh.tether.pairKey = none →
          (isFar q = false → q.sh.tether.pairing.isSome = true) →
          (isFar q = true → sourceReady q = true ∧ (flashCheck [q.lead] q).1 = none) →
          exec (.pair f) s = .next (s.after (gotPair f.payload q))))
    ∧ (∀ x q, p.sh.tether.pairing = some x →
        q = onTether (fun te => { te with pairing := none }) (advanceTo (x.startAt + secTicks) p) →
        exec .pairTimeout s = .next (s.after (x.ctx.elim q (fun c => finish c 0x89 stRefusedState q.lead q))))
    ∧ (∀ at_, p.sh.tether.silent = none → mayGreet p = true → p.sh.tether.session.helloAt = some at_ →
        exec .helloTimer s = .next (s.after (sendHello (advanceTo (at_ + 100 * msTicks) p))))
    ∧ (p.sh.tether.silent = none → mayGreet p = true → p.sh.tether.session.helloAt = none →
        exec .helloTimer s = .next (s.after (sendHello p)))
    ∧ (tetherRuns p = true → (linkOpen p.sh.tether || (mayGreet p && p.sh.tether.session.sentHello)) = true →
        exec .idleTimer s = .next (s.after (tetherSend ftIdle [] (advanceTo (p.sh.tether.session.lastSentAt + 2 * msTicks) p))))
    ∧ (tetherRuns p = true → isFar p = false → linkOpen p.sh.tether = true →
        exec .timeTimer s = .next (s.after (sendTime (advanceTo (p.sh.tether.session.lastTimeSent
          + (if p.sh.tether.session.timesSent < 4 then 1 else 10) * msTicks) p))))
    ∧ (∀ q, awake p = true → p.sh.tether.state = .up → q = advanceTo (p.sh.tether.session.lastValidAt + 20 * msTicks) p →
        exec .tetherSuspect s = .next (s.after (raise q.lead 73 (onTether (fun te => { te with state := .suspect }) q))))
    ∧ (awake p = true → linkOpen p.sh.tether = true →
        exec .tetherLost s = .next (s.after (loseLink .lost (advanceTo (p.sh.tether.session.lastValidAt + 100 * msTicks) p))))
    ∧ (awake p = true → p.sh.tether.state = .rejoining → p.sh.tether.session.announced = true → p.sh.tether.session.resync = [] →
        exec .resyncComplete s = .next (s.after (linkUp p)))

/-- The events of the RS-485 ports run (R427 to R432, R436, R437, R439, R440, R443, R444). It rests on the readings and choices of
the model in log entries 7, 52, 54, 57, 58, 183, 184, 215, 217. -/
def Obligations.BusEventsRun : Prop :=
  ∀ (s : State) (p : Pkg) (port : RsPort) (r : RsState), p = s.start → r = rsOf p port → busAwake p = true →
    (r.mode ≠ 0 → r.running = false → exec (.busStart (.rs port)) s
        = .next (s.after (clientRun port (noteSources port (onRs port (fun y => freshNode { y with running := true, silent := true }) p)))))
    ∧ (tcOn p.sh.t1s.cfg = true → p.sh.t1s.running = false → exec (.busStart .t1s) s
        = .next (s.after (onT1s (runT1s p.now) p)))
    ∧ (∀ frame q, r.running = true → r.mode = 2 → crcRight frame = true →
        wasCut p (rsTicks r.cfg frame.length) = false → q = countPort (busSource (.rs port)) p.now frame.length 0 p →
        (leAt frame 0 1 = 0 ∨ leAt frame 0 1 = rcAddress r.cfg) → r.serving = none → r.sending = none →
        exec (.modbusRequest port frame) s = .next (s.after
          (serveRequest port (frame.take (frame.length - 2)) (countRxOk (.rs port) q))))
    ∧ (∀ x, r.serving = some x → exec (.serverWaitExpiry port) s
        = .next (s.after (serverException port x.frame 6 (advanceTo x.until_ p))))
    ∧ (∀ (item : BitVec 9) list e, r.running = true → r.mode = 3 → list = portTable p 1 port → e = plItem list item.toNat →
        list ≠ [] → item.toNat < plCount list → piServer e ≠ 0 →
        ((piWrites e && piOnChange e && (r.seen.find? item.toNat).any (fun x => x != sourceNow p e)) = true →
          exec (.pollItemDue port item) s = .next (s.after (itemDue port item.toNat e p)))
        ∧ ((piWrites e && piOnChange e && (r.seen.find? item.toNat).any (fun x => x != sourceNow p e)) = false →
          exec (.pollItemDue port item) s = .next (s.after (itemDue port item.toNat e (advanceTo (nextMultiple (piPeriod e * msTicks)
            ((r.dueAt.find? item.toNat).elim p.now (fun a => Nat.max p.now (a + 1)))) p)))))
    ∧ (r.running = true → r.mode = 3 → r.sending = none → r.polling = none → exec (.modbusSilence port) s
        = .next (s.after (clientRun port (onRs port (fun y => { y with silent := true }) p))))
    ∧ (∀ x, r.running = true → r.mode = 3 → r.sending = none → r.polling = some x → x.asking = none → x.deadline = none →
        exec (.modbusSilence port) s = .next (s.after (sendAttempt port x p)))
    ∧ (∀ frame x q, rsListens p port 3 = true → wasCut p (rsTicks r.cfg frame.length) = false →
        q = countPort (busSource (.rs port)) p.now frame.length 0 p → crcRight frame = true → r.polling = some x → x.deadline.isSome = true →
        exec (.modbusResponse port frame) s = .next (s.after
          (takeResponse port x (frame.take (frame.length - 2)) (countRxOk (.rs port) q))))
    ∧ (∀ x d, r.polling = some x → x.deadline = some d → exec (.responseTimeout port) s
        = .next (s.after (attemptFails port x (advanceTo d p))))
    ∧ (∀ (f : MstpFrame) q r0 p0, q = busDue p → rsListens q port 1 = true → r0 = rsOf q port →
        wasCut q (rsTicks r0.cfg (frameChars f)) = false → frameSound f = true →
        p0 = onRs port (nodeHears f) (mstpHeard port f.src (countPort (busSource (.rs port)) q.now (frameChars f) 0 q)) →
        (∀ mine wants answers p1, (f.ftype = ftExpecting ∨ f.ftype = ftNotExpecting) → mine = (f.dst.toNat == rcAddress r0.cfg) →
          (mine = true ∨ f.dst = 255) → wants = (f.ftype == ftExpecting && mine) →
          answers = (f.ftype == ftNotExpecting && mine && r0.mstp.phase == .waiting f.src) →
          p1 = putFrame (2 + rsNo port) (b2n wants + 2 * b2n (f.dst == 255) + 4 * b2n answers) ([f.ftype, f.dst, f.src] ++ f.data) p0 →
          exec (.mstpDataFrame port f.ftype f.dst f.src f.toMstpRest) s = .next (s.after
            (if wants then onRs port (fun x => { x with reply := some (f.src, p1.now + rcWait r0.cfg * msTicks) }) p1 else p1)))
        ∧ (f.ftype = ftToken → f.dst.toNat = rcAddress r0.cfg → nodeFree r0 = true →
          exec (.mstpToken port f) s = .next (s.after (onRs port takeToken p0)))
        ∧ (f.ftype = ftPoll → f.dst.toNat = rcAddress r0.cfg → nodeFree r0 = true →
          exec (.mstpControlFrame port f.ftype f.dst f.src f.toMstpRest) s = .next (s.after (onRs port (ownFrame ftPollReply f.src []) p0)))
        ∧ (f.ftype = ftTestRequest → f.dst.toNat = rcAddress r0.cfg → nodeFree r0 = true →
          exec (.mstpControlFrame port f.ftype f.dst f.src f.toMstpRest) s = .next (s.after (onRs port (ownFrame ftTestResponse f.src f.data) p0))))
    ∧ (∀ src limit, r.reply = some (src, limit) → rsListens p port 1 = true → exec (.replyPostponed port) s
        = .next (s.after (countB (.rs port)
          (onRs port (fun x => ownFrame ftPostponed src [] { x with reply := none }) (advanceTo limit p)))))
    ∧ (rsListens p port 1 = true → r.mstp.phase = .idle → exec (.tokenRegeneration port) s
        = .next (s.after (onRs port generateToken (busFault (.rs port) 1 (countA (.rs port) p)))))
    ∧ (r.mode ≠ 0 → r.running = true → r.sending = none → exec (.rxErr port) s
        = .next (s.after (if r.mode = 1 then onRs port nodeInvalid (countRxErr (.rs port) p) else countRxErr (.rs port) p)))
    ∧ (∀ x f q, r.sending = some (x, f) →
        q = countTx (.rs port) (onRs port (fun y => { y with sending := none })
          (countPort (busSource (.rs port)) p.now 0 f.length p)) →
        (∀ c, x = some c → r.mode = 1 → exec (.busFrameSent (.rs port)) s
          = .next (s.after (onRs port (nodeSent q.now true (f.getD 2 0) (f.getD 3 0)) (finish c 0x81 stOk q.lead q))))
        ∧ (x = none → r.mode = 1 → exec (.busFrameSent (.rs port)) s
          = .next (s.after (onRs port (nodeSent q.now false (f.getD 2 0) (f.getD 3 0)) q)))
        ∧ (∀ y, x = none → r.mode ≠ 1 → r.polling = some y → exec (.busFrameSent (.rs port)) s
          = .next (s.after (onRs port (fun z => { z with polling := some { y with
              deadline := some (q.now + rcTimeout z.cfg * msTicks) } }) q)))
        ∧ (x = none → r.mode ≠ 1 → r.polling = none → exec (.busFrameSent (.rs port)) s = .next (s.after q)))

/-- The events of the T1S port and of the service port run (R442 to R444, R448, R449, R451). It rests on the readings and choices of
the model in log entries 53, 56, 60, 70, 213, 214, 217. -/
def Obligations.T1sServiceEventsRun : Prop :=
  ∀ (s : State) (p : Pkg) (r : T1sState), p = s.start → r = p.sh.t1s →
    (∀ frame len m, busAwake p = true → r.running = true → 60 ≤ frame.length → frame.length ≤ 1514 → len = frame.length + 4 →
        wasCut p (t1sTicks len) = false → t1sMatch r frame = some m →
        exec (.t1sFrame frame (fcsOf frame)) s = .next (s.after (onT1s (fun y => beginT1s p.now (hearT1s p.now len y))
          (putFrame 4 m frame (countRxOk .t1s (countPort (busSource .t1s) p.now len 0 p))))))
    ∧ (∀ q, busAwake p = true → r.running = true → (tcPlca r.cfg = true → r.fallback = true) → r.sending.isSome = true →
        q = countA .t1s (onT1s (fun x => { x with collisions := x.collisions + 1 }) p) →
        exec .t1sCollision s = .next (s.after (if 16 ≤ r.collisions + 1 then dropT1s (countAbandoned .t1s q) else q)))
    ∧ (busAwake p = true → r.running = true → followsPlca r = true → exec .beaconTimeout s
        = .next (s.after (busFault .t1s 4 (countB .t1s (onT1s (fun x => beginT1s p.now { x with fallback := true }) p)))))
    ∧ (busAwake p = true → r.running = true → followsPlca r = true → exec .beacon s
        = .next (s.after (onT1s (fun x => beginT1s p.now { x with
            fallback := false, plca := { x.plca with id := 0, at_ := p.now } }) p)))
    ∧ (busAwake p = true → r.running = true → r.sending.isSome = true → exec .jabber s = .next (s.after (dropT1s (busFault .t1s 5 p))))
    ∧ (∀ c f, busAwake p = true → r.sending = some (c, f) → exec (.busFrameSent .t1s) s = .next (s.after (countTx .t1s
        (finish c 0x81 stOk p.lead (onT1s (endT1s p.now) (countPort (busSource .t1s) p.now 0 f.length p))))))
    ∧ exec (.svcDetN true) s = .next (s.after (onService (fun v => { v with
        attached := false, baud := none, tx := [], line := [], orphans := v.tags.map (·.tag) }) p))
    ∧ (p.sh.service.attached = false → exec (.svcDetN false) s
        = .next (s.after (onService (fun v => if v.attached then v else { v with attached := true, baud := none }) p)))
    ∧ (∀ baud, serviceWorks p = true → p.sh.service.baud = none → 115200 ≤ baud → baud ≤ 3000000 → exec (.serviceBaudLock baud) s
        = .next (s.after (onService (fun v => { v with baud := some baud, rate := baud, lastAt := p.now }) p)))
    ∧ (p.sh.service.baud ≠ none → exec .serviceUnlockTimeout s
        = .next (s.after (onService (fun v => { v with baud := none }) (advanceTo (p.sh.service.lastAt + secTicks) p))))
    ∧ (∀ packet b c i, serviceWorks p = true → p.sh.service.baud ≠ none → pkLen packet % 4 = 0 → pkLen packet ≤ 1016 →
        packet.length = 12 + pkLen packet → b = onPkg (fun x => countPort 0x11 x.now (2 + packet.length) 0 (onService (fun v => { v with lastAt := x.now }) x)) s.begun →
        packetError b true packet = none →
        c = { src := portSender b.pkg true (pkTag packet), tile := BitVec.ofNat 4 (pkTile packet), cls := BitVec.ofNat 2 (pkClass packet)
              epoch := policyEpoch b.pkg b.pkg.lead (portSender b.pkg true (pkTag packet)), ordered := leAt packet 1 1 == 1 } →
        commandOf c (pkOp packet) (pkPayload packet) = some i →
        exec (.servicePacket packet) s = .next (drain (onPkg (routeCommand c (pkOp packet) (pkPayload packet) i)
          (addTag true (pkTag packet) (pkOp packet) (pkTile packet) c.ordered b))))
    ∧ (serviceWorks p = true → p.sh.service.baud ≠ none → exec .serviceGapTimeout s
        = .next (s.after (countSvcDropped (onService (fun v => { v with lastAt := p.now }) p))))

/-- The events of the panel, the keys, the encoders and of updates run (R457, R461, R463, R481, R484, R487, R489, R490 to R495). It
rests on the readings and choices of the model in log entries 7, 41, 62 to 65, 176, 218. -/
def Obligations.PanelUpdateEventsRun : Prop :=
  ∀ (s : State) (p : Pkg), p = s.start →
    (panelServed p = true → p.sh.panel.running = none → readyToStart p.sh.panel = true → exec .panelPhase s
        = .next (s.after (startUpdate p.sh.panel.startAt (advanceTo p.sh.panel.startAt p))))
    ∧ (∀ c states w phase at_, panelServed p = true → p.sh.panel.running = some (c, states, w, phase, at_) →
        p.sh.panel.stopAtPhase = false → (readyToStart p.sh.panel && decide (p.sh.panel.startAt ≤ at_)) = false → phase + 1 < wvPhases w →
        exec .panelPhase s = .next (s.after (onPanel (fun x =>
          { x.drivePhase w states (phase + 1) with running := some (c, states, w, phase + 1, at_ + phaseTicks) }) (advanceTo at_ p))))
    ∧ (∀ c states w phase at_, panelServed p = true → p.sh.panel.running = some (c, states, w, phase, at_) →
        p.sh.panel.stopAtPhase = false → (readyToStart p.sh.panel && decide (p.sh.panel.startAt ≤ at_)) = false → wvPhases w ≤ phase + 1 →
        exec .panelPhase s = .next (s.after (endUpdate c states (advanceTo at_ p))))
    ∧ (∀ c states w phase at_, panelServed p = true → p.sh.panel.running = some (c, states, w, phase, at_) →
        readyToStart p.sh.panel = true → p.sh.panel.startAt ≤ at_ →
        exec .panelPhase s = .next (s.after (startUpdate at_ (cutUpdate stSuperseded (advanceTo at_ p)))))
    ∧ (∀ ohm c states w, awake p = true → p.sh.panel.crackEn = true → p.sh.panel.waiting = some (c, states, w, false) →
        online p 0 = true → exec (.crackCheck ohm) s = .next (s.after (crackResult false ohm p)))
    ∧ (p.sh.panel.rails = false → exec .panelRailsPresent s = .next (s.after (onPanel (fun x =>
        if panelServed p && x.running.isNone then ({ x with rails := true, everPresent := true } : Panel).idle
        else { x with rails := true, everPresent := true }) p)))
    ∧ (p.sh.panel.rails = true → exec .panelRailsCollapse s
        = .next (s.after (fastDischarge (onPanel (fun x => { x with rails := false }) p))))
    ∧ exec .dischargeSwitchRelease s = .next (s.after (onPanel (fun x =>
        if x.switches then { x.float with released := true } else x) p))
    ∧ (∀ pressed, panelServed p = true → bit p.sh.keys.cfg 0 = true → exec (.keyScan pressed) s
        = .next (s.after (scanKeys pressed (advance msTicks p))))
    ∧ (panelServed p = true → exec .keyInterrupt s = .next (s.after (forAll p.sh.keys.changes
        (fun c q => raise 0 79 (keyEntry c.1 c.2.1 0 c.2.2 q)) (onKeys (fun k => { k with changes := [] }) p))))
    ∧ (∀ (k : BitVec 4) a, panelServed p = true → bit p.sh.keys.accepted k.toNat = true → a = keyBit p.sh.keys.accepted k.toNat false →
        exec (.stuckKey k) s = .next (s.after (raise 0 80 (keyEntry k.toNat 5 0 a
          (onKeys (fun y => { y with accepted := a, masked := keyBit y.masked k.toNat true })
            (advanceTo (p.sh.keys.pressedAt.getD k.toNat 0 + stuckTicks p.sh.keys) p))))))
    ∧ (∀ enc inputB level, exec (.encoderEdge enc inputB level) s
        = .next (s.after (onEnc enc (Encoder.edge p.now inputB level (panelServed p && encOn p.sh.keys enc))
          (onKeys (fun k => { k with darkEdge := k.darkEdge || p.sh.dark.dark }) p))))
    ∧ (∀ enc inputB x, panelServed p = true → encOn p.sh.keys enc = true → x = encOf p.sh.keys enc →
        (if inputB then x.rawB != x.b else x.rawA != x.a) = true → exec (.encoderSettle enc inputB) s
        = .next (s.after (encoderSettles enc inputB p)))
    ∧ (∀ c hdr, p.sh.update.erasing = some (c, hdr) → exec .negativeErase s = .next (s.after (finish c 0xC0 stOk p.lead
        (onTiles (fun u tl => if online p u then { tl with images := { tl.images with neg := imageOf hdr, negState := .downloading } } else tl)
          (onUpdate (fun u => { u with
            state := .downloading, erasing := none, image := hdr, received := hdr.length, length := w32 (ihLength hdr)
            rejectTile := 0xFF }) p)))))
    ∧ (updateBusy p = true → p.sh.update.busy = none → p.sh.update.order ≠ [] → p.sh.update.retryAt = none →
        p.sh.handover = none → exec .activationNextTile s
          = .next (s.after (nextTile (advanceTo (p.sh.update.onlineAt + 50 * msTicks) p))))
    ∧ (∀ at_, p.sh.update.retryAt = some at_ → p.sh.handover = none → exec .handoverRetry s
        = .next (s.after (updateHandover (onUpdate (fun u => { u with retryAt := none }) (advanceTo at_ p)))))
    ∧ (p.sh.update.state = .window → exec .healthWindowEnd s = .next (s.after (endWindow2 (advanceTo p.sh.update.windowEnd p))))

/-- A step with a command in front is `exec` of that command on the queue's rest. With an empty queue, no command waiting for a bulk
buffer and no admitted work it is one tick: package time moves by 31.25 ns (R52) and nothing waits in the outbox. The queue and the
idle step are the model's own (log entries 1 and 3). -/
def Obligations.QueueHeadRuns : Prop :=
  (∀ (i : Instr) (rest : List Instr) (s : State), s.pending = i :: rest → step s = exec i { s with pending := rest })
  ∧ ∀ (s : State), s.pending = [] → nextBulk s = none → nextStart s = none →
    ∃ t, step s = .next t ∧ t.pkg.now = (s.pkg.now + 1) % 2 ^ 64 ∧ t.pkg.outbox = [] ∧ t.pending = [] ∧ t.hp.settled = s.hp.settled

/-- A row that names a tile of the variant, or no tile, answers a next state, and no row touches the commands that wait behind it: the
queue is first in, first out; a row that names another tile stops (R3, R6, log entries 1 and 2). -/
def Obligations.OnlyAbsentTilesStop : Prop :=
  ∀ (i : Instr) (s : State),
    (tilePresent i s = true → ∃ t, exec i s = .next t ∧ t.pending = s.pending)
    ∧ (∀ tile, rowTile i = some tile → s.pkg.n ≤ tile.toNat → exec i s = .fault (.absentTile tile.toNat))

/-- In package reset and in darkroom, a command has no effect (R363, R377, log entry 4). -/
def Obligations.CommandsSleepInReset : Prop :=
  ∀ (i : Instr) (s t : State), (commandParts i).isSome = true → awake s.pkg = false → exec i s = .next t → onlyCompletes s t

/-- A command for a tile of the other package: BAD_PARAM where that tile is not present, TETHER_LOST while the link is closed,
REFUSED_STATE for any but a pure read while it rejoins, else the request leaves over the link (R16, R99, R412, R423, R425). It rests
on the readings and choices of the model in log entry 9. -/
def Obligations.FarCommandsCross : Prop :=
  ∀ (i : Instr) (s : State) (p : Pkg) (c : Ctx) (op : Byte) (pl : List Byte), p = s.start → commandParts i = some (c, op, pl) →
    awake p = true → localOf p c.tile.toNat = none →
    (farPresent p c.tile.toNat = false → exec i s = .next (s.after (finish c op stBadParam p.lead p)))
    ∧ (farPresent p c.tile.toNat = true → linkOpen p.sh.tether = false →
        exec i s = .next (s.after (finish c op stTetherLost p.lead p)))
    ∧ (farPresent p c.tile.toNat = true → p.sh.tether.state = .rejoining → pureRead op pl = false →
        exec i s = .next (s.after (finish c op stRefusedState p.lead p)))
    ∧ (farPresent p c.tile.toNat = true → linkOpen p.sh.tether = true → (p.sh.tether.state = .rejoining → pureRead op pl = true) →
        exec i s = .next (s.after (sendCommand c op pl p)))

/-- The checks that every command shares, in their order: class (R109), target (R110), standing (R48), expected incarnation (R46),
length (R99), reserved fields (R9), and the policy at the commit instant (R472). It rests on the readings and choices of the model
in log entries 4, 30. -/
def Obligations.SharedChecksRefuse : Prop :=
  ∀ (i : Instr) (s : State) (p : Pkg) (c : Ctx) (op : Byte) (pl : List Byte) (named t : Nat), p = s.start →
    commandParts i = some (c, op, pl) → awake p = true → localOf p c.tile.toNat = some named → t = servingTile p op named →
    (classAdmitted op c.cls = false → exec i s = .next (s.after (finish c op stBadParam t p)))
    ∧ (classAdmitted op c.cls = true →
        (targetAdmitted op named = false → exec i s = .next (s.after (finish c op stBadParam t p)))
        ∧ (targetAdmitted op named = true →
          (online p t = false → (actsOnStopped op pl = false ∨ cutOff p t = true) →
            exec i s = .next (s.after (finish c op stTileOffline (answerTile p p.lead t) p)))
          ∧ ((online p t = true ∨ (actsOnStopped op pl = true ∧ cutOff p t = false)) →
            (eiOf op pl ≠ 0 → eiOf op pl ≠ (p.tile t).boot.incarnation.toNat →
              exec i s = .next (s.after (finish c op stStaleInc t p)))
            ∧ ((eiOf op pl = 0 ∨ eiOf op pl = (p.tile t).boot.incarnation.toNat) →
              (lengthOk op pl = false → exec i s = .next (s.after (finish c op stBadLength t p)))
              ∧ (lengthOk op pl = true →
                (reservedOk op pl = false → exec i s = .next (s.after (finish c op stBadParam t p)))
                ∧ (reservedOk op pl = true → pureRead op pl = false → policyMoved p t c op pl = true →
                  exec i s = .next (s.after (finish c op stPolicyChanged t (refusedByPolicy t p)))))))))

/-- A command that fails a shared check, but for the policy at the commit instant, has no effect but its completion (R9, R46, R99).
It rests on the readings and choices of the model in log entry 4. -/
def Obligations.RefusedCommandsHaveNoEffect : Prop :=
  ∀ (i : Instr) (s t : State) (c : Ctx) (op : Byte) (pl : List Byte) (named : Nat) (st : Byte),
    commandParts i = some (c, op, pl) → localOf s.start c.tile.toNat = some named →
    targetError s.start c op pl named = some st → st ≠ stPolicyChanged → exec i s = .next t → onlyCompletes s t

/-- Reads change nothing but the way of their completion, on every path (R85, R116, R472): no register, point, table, ring, unit or
byte of memory. A NOP that its target performs changes nothing either. A read of SYS 32 to 35 measures them first, and RING_READ,
EVENT_READ, LOUPE_READ and ENTROPY_READ take what they read: those are not among them. It rests on the readings and choices of the
model in log entries 4, 35. -/
def Obligations.PureReadsChangeNothing : Prop :=
  ∀ (s t : State) (i : Instr), exec i s = .next t →
    (match i with
      | .identify _ | .health _ | .channelStatus _ _ _ | .seqStatus _ _ _ | .loopRead _ _ _ | .tableRead _ _ _ _ _ _
      | .modelRead _ _ _ _ _ _ | .planStatus _ _ _ | .profileStatus _ _ _ | .fanStatus _ _ _ | .busStatus _ _ _ | .tetherStatus _
      | .counterRead _ _ _ | .policyRead _ _ _ | .updateStatus _ => true
      | .nop _ => (List.range s.pkg.n).any (performs i s.start)
      | .tileState _ action _ _ => action == 0
      | .governor _ _ _ _ flags _ => flags.getLsbD 0
      | .pointRead _ h => handleClass h != 0 || handleIdx h < 32 || 35 < handleIdx h
      | .pointReadMulti _ hs => hs.all (fun h => handleClass h != 0 || handleIdx h < 32 || 35 < handleIdx h)
      | _ => false) = true →
    onlyCompletes s t

/-- What a command of one unit leaves as it was: every other tile, the shared units, the host port, every other unit of its tile,
and the siblings of the object it names (R119 to R129). It rests on the readings and choices of the model in log entries 8, 204,
205, 212, 213. -/
def Obligations.UnitCommandsKeepTheRest : Prop :=
  ∀ (s t : State) (u : Nat) (i : Instr), performs i s.start u = true → exec i s = .next t →
    match i with
    | .pointRelease _ h _ _ => onlyTile u (fun x => { x with overrides := [] }) s t
        ∧ ∀ k, ownKey k ≠ ownKey (handleKey h) → overridden (t.pkg.tile u) k = overridden (s.pkg.tile u) k
    | .refSelect _ adc _ _ => onlyTile u (fun x => { x with conv := { x.conv with a := {}, b := {} } }) s t
        ∧ (t.pkg.tile u).adc (adc != 1) = (s.pkg.tile u).adc (adc != 1)
    | .loopClearFlags _ slot _ _ => onlyTile u (fun x => { x with slots := [] }) s t
        ∧ ∀ n, n ≠ slot.toNat → (t.pkg.tile u).slot n = (s.pkg.tile u).slot n
    | .tableLoad _ kind _ idx _ _ => onlyTile u (fun x => { x with tables := { x.tables with shadow := [] } }) s t
        ∧ ∀ k n, n < 1024 → idx.toNat < 1024 → (k, n) ≠ (kind.toNat, idx.toNat) →
            (t.pkg.tile u).shadow? k n = (s.pkg.tile u).shadow? k n
    | .identControl _ node _ _ _ => onlyTile u (fun x => { x with pred := { x.pred with nodes := [] } }) s t
        ∧ ∀ n, n ≠ node.toNat → (t.pkg.tile u).node n = (s.pkg.tile u).node n
    | .capacityConfig _ zone _ _ => onlyTile u (fun x => { x with pred := { x.pred with zones := [] } }) s t
        ∧ ∀ n, n ≠ zone.toNat → (t.pkg.tile u).zone n = (s.pkg.tile u).zone n
    | .profileLoad _ program _ _ _ => onlyTile u (fun x => { x with programs := [] }) s t
        ∧ ∀ n, n ≠ program.toNat → (t.pkg.tile u).programs.find? n = (s.pkg.tile u).programs.find? n
    | .angleSchedule _ k _ _ _ => onlyTile u (fun x => { x with trackers := [] }) s t
        ∧ ∀ n, n ≠ k.toNat → (t.pkg.tile u).tracker n = (s.pkg.tile u).tracker n
    | .ringReset _ id => onlyTile u (fun x => { x with rings := { x.rings with rings := [], waits := [] } }) s t
        ∧ ∀ n, n ≠ bits id 14 0 → (t.pkg.tile u).ring? n = (s.pkg.tile u).ring? n
    | .eventMask _ _ _ _ => onlyTile u (fun x => { x with events := { x.events with masked := 0 } }) s t
    | .eventRead _ => onlyTile u (fun x => { x with events := { x.events with pending := 0 } }) s t
    | .counterConfig _ n _ _ _ _ => onlyTile u (fun x => { x with counters := { x.counters with ctrs := [], carries := [] } }) s t
        ∧ ∀ k, k ≠ n.toNat → (t.pkg.tile u).ctr k = (s.pkg.tile u).ctr k
    | .loupeConfig _ _ _ _ => onlyTile u (fun x => { x with counters := { x.counters with
        loupeK := 0, loupeSrc := 0, tokens := 0, nextNo := 0, taken := 0, held := [] } }) s t
    | .selfTest _ mask => onlyTile u (fun x =>
        let y := { x with counters := { x.counters with tests := [] } }
        if mask.getLsbD 2 then y.noDrives else y) s t
    | .modelLoad _ _ _ _ _ _ _ => onlyTile u (fun x => { x with pred := { x.pred with pend := [], loads := 0 } }) s t
    | .entropyRead _ _ _ => onlyTile u (fun x => { x.noNotes with entropy := {} }) s t
    | .channelConfig _ _ _ _ _ | .channelClear _ _ _ _ | .seqConfig _ _ _ _ _ _ | .seqStart _ _ _ _ _ | .profileFire _ _ _ _ _ _
    | .profileCancel _ _ _ _ | .angleConfig _ _ _ _ _ | .stepperConfig _ _ _ _ _ | .stepperMove _ _ _ _ _ | .stepperStop _ _ _ _
    | .stepperHome _ _ _ _ _ | .fanConfig _ _ _ _ _ | .fanBaseline _ _ _ _ => onlyParts id (atTile u Tile.noDrives) s t
    | .safelightLoad _ _ _ _ _ => onlyParts id (atTile u (fun x => { x.noDrives with
        flash := {}, supply := {}, boot := { x.boot with safeSeen := 0, safeBad := false } })) s t
    | .ringConfig _ _ _ => onlyParts (fun x => { x with counts := {} })
        (atTile u (fun x => { x with rings := { x.rings with rings := [], waits := [], seqs := [] } })) s t
    | .loopWrite _ _ _ _ _ | .loopMode _ _ _ _ _ | .rateGroupConfig _ _ _ _ _ | .governor _ _ _ _ _ _ =>
        onlyParts (fun x => { x with counts := {} }) (atTile u Tile.noLoops) s t
    | .machineControl _ m _ _ => sameParts id (atTile u Tile.noNotes)
        (fun v n x => if v = u ∧ n = m.toNat then MachineSt.reset else x.noted) s t
    | .tableCommit _ _ _ _ _ _ => onlyParts (fun x => { x with counts := {} }) (fun _ x => { x.noWrites with gov := {} }) s t
    | .policyLoad _ _ _ _ _ => onlyParts (fun x => { x with policyPend := [], counts := {} }) (fun _ => Tile.noWrites) s t
    | .ownerLock _ _ _ => onlyParts (fun x => { x with counts := {} }) (fun _ => Tile.noWrites) s t
    | .permitConfig _ _ _ _ => onlyParts (fun x => { x with permits := {}, counts := {} }) (fun _ => Tile.noWrites) s t
    | .updateBegin _ _ _ | .updateData _ _ _ | .updateEnd _ _ =>
        onlyParts (fun x => { x with update := {}, counts := {} }) (fun _ x => { x.noWrites with images := {} }) s t
    | .tetherConfig _ _ | .tetherPair _ _ _ =>
        onlyParts (fun x => { x with tether := {}, counts := {} }) (fun _ x => { x.noRemote with entropy := {} }) s t
    | .busConfig _ _ _ _ => onlyParts (fun x => { x with bus0 := {}, bus1 := {}, t1s := {}, counts := {} }) (fun _ => Tile.noWrites) s t
    | .busMapLoad _ _ _ _ _ =>
        onlyParts (fun x => { x with bus0 := {}, bus1 := {}, counts := {} }) (fun _ x => { x.noWrites with tables := {} }) s t
    | .planConfig _ _ | .planVeto _ _ => onlyParts (fun x => { x with planner := {}, counts := {} })
        (fun _ x => { x.noNotes with pred := {}, claims := [], counters := {} }) s t
    | .fabricProbe _ _ _ _ => onlyTile u (fun x => { x with fabric := { x.fabric with probes := [], nextId := 0 } }) s t
    | .leadHandover _ => onlyShared (fun x => { x with handover := none }) s t
    | .planFix _ _ => onlyShared (fun x => { x with planner := { x.planner with fixers := [] } }) s t
    | .panelUpdate _ _ _ _ => onlyShared (fun x => { x with panel := { x.panel with
        waiting := none, readyAt := 0, crackA := .ground } }) s t
    | .panelConfig _ _ => onlyShared (fun x => { x with panel := {} }) s t
    | .keyConfig _ _ => onlyShared (fun x => { x with keys := {} }) s t
    | .busSend _ port _ _ _ => onlyShared (fun x => { x with
        bus0 := if port == 0 then {} else x.bus0, bus1 := if port == 1 then {} else x.bus1
        t1s := if port == 2 then {} else x.t1s, counts := {} }) s t
    | .fix _ => onlyShared (fun x => { x with update := { x.update with fixed := false } }) s t
    | _ => True

/-- What an event of one tile leaves as it was: every other tile, the shared units, the host port, the queue, and every unit of its
tile but those it acts on. Package time may pass on the way, and with it the clock and the counters. It rests on the readings and
choices of the model in log entries 7, 17. -/
def Obligations.TileEventsKeepTheRest : Prop :=
  ∀ (s t : State) (i : Instr), exec i s = .next t →
    match i with
    | .comparatorEdge u _ _ | .inputFilterExpiry u _ | .isolationOpen u _ | .isolationClose u _ | .blankingEnd u _ | .limitTrip u _
    | .channelRetry u _ | .channelAttemptReset u _ | .openLoad u _ | .gateFault u _ | .holdLimitExpiry u _ | .seqTrigger u _ _
    | .urgentTrigger u _ _ | .seqEntryResult u _ _ | .refSettled u _ | .referenceLost u _ | .instructionTimeEnd u _ | .chopOffTime u _
    | .detectSample u _ _ | .detectWindowEnd u _ | .shutterEnd u _ | .toothWindowClose u _ | .angleFiringDue u _ | .stepDue u _
    | .dwellEnd u _ | .homeStep u _ | .holdTimeEnd u _ | .tachSpeedUpdate u _ | .tachLostTimeout u _ | .startWindowEnd u _
    | .backoffEnd u _ | .tachLossSecond u _ | .fanAttemptReset u _ | .ageingSample u _ | .selfTestComplete u _ =>
      onlyPartsLater id (atTile u.toNat Tile.noDrives) s t
    | .vhvThreshold u _ => onlyPartsLater id (atTile u.toNat (fun x => { x.noDrives with supply := { x.supply with vhvLow := false } })) s t
    | .budgetTrip u _ _ => onlyPartsLater id (atTile u.toNat (fun x => { x.noDrives with budgetAt := [] })) s t
    | .slotEvaluation u _ | .governorWindow u => onlyPartsLater (fun x => { x with counts := {} }) (atTile u.toNat Tile.noLoops) s t
    | .ringPeriodTrigger u _ | .ringSourceTimeout u _ | .counterWindow u _ _ _ | .counterWrap u _ =>
      onlyPartsLater id (atTile u.toNat Tile.noNotes) s t
    | .entropyCondition u _ | .entropyHealthFailure u | .entropyWaitExpiry u =>
      onlyPartsLater id (atTile u.toNat (fun x => { x.noNotes with entropy := {} })) s t
    | .dieTemperature u _ _ _ _ | .powerFailWarning u _ => onlyPartsLater id (atTile u.toNat (fun x => { x.noNotes with supply := {} })) s t
    | .adviceExpiry u => onlyPartsLater id (atTile u.toNat (fun x => { x.noNotes with pred := {} })) s t
    | _ => True

/-- What an event of the units that tiles share leaves as it was: the host port, the queue, every other shared unit, and of the
tiles all but what the event notes, asks for or writes. Package time may pass on the way, and with it the clock and the counters. It
rests on the readings and choices of the model in log entries 7, 17, 212, 213. -/
def Obligations.UnitEventsKeepTheRest : Prop :=
  ∀ (s t : State) (i : Instr), exec i s = .next t →
    match i with
    | .busStart _ | .modbusRequest _ _ | .serverWaitExpiry _ | .pollItemDue _ _ | .modbusSilence _ | .modbusResponse _ _
    | .responseTimeout _ | .mstpDataFrame _ _ _ _ _ | .mstpToken _ _ | .mstpControlFrame _ _ _ _ _ | .replyPostponed _ | .tokenRegeneration _
    | .rxErr _ | .t1sFrame _ _ | .t1sCollision | .beaconTimeout | .beacon | .jabber | .busFrameSent _ =>
      onlyPartsLater (fun x => { x with bus0 := {}, bus1 := {}, t1s := {}, counts := {} }) (fun _ => Tile.noWrites) s t
    | .panelPhase | .crackCheck _ | .panelRailsPresent | .panelRailsCollapse | .dischargeSwitchRelease | .keyScan _ | .keyInterrupt
    | .stuckKey _ | .encoderEdge _ _ _ | .encoderSettle _ _ =>
      onlyPartsLater (fun x => { x with panel := {}, keys := {}, counts := {} }) (fun _ => Tile.noWrites) s t
    | .svcDetN _ | .serviceBaudLock _ | .serviceUnlockTimeout | .serviceGapTimeout =>
      onlyPartsLater (fun x => { x with service := {} }) (fun _ => id) s t
    | .policySwitch => onlyPartsLater (fun x => { x with policyPend := [], counts := {} }) (fun _ x => { x.noNotes with policies := [] }) s t
    | .hello _ | .idle _ | .close _ | .announce _ | .pair _ | .pairTimeout | .helloTimer | .idleTimer | .timeTimer | .tetherSuspect
    | .tetherLost | .resyncComplete =>
      onlyPartsLater (fun x => { x with tether := {}, counts := {} }) (fun _ x => { x.noRemote with entropy := {} }) s t
    | .planningBoundary | .bracketComplete => onlyPartsLater (fun x => { x with planner := {}, counts := {} })
        (fun _ x => { x.noRemote with pred := {}, gov := {}, counting := [] }) s t
    | .permitEvaluation | .copyStaleTimeout _ | .permitPulse _ =>
      onlyPartsLater (fun x => { x with permits := {}, counts := {} }) (fun _ => Tile.noRemote) s t
    | .thermalBudget _ => onlyPartsLater (fun x => { x with thermal := {} }) (fun _ => Tile.noDrives) s t
    | _ => True

/-- A write or read of the host port changes the registers it names and no tile or unit, but for the bulk buffers that BULK_RELEASE
frees and whose 10 s begin with a held completion (R82, R83, R89 to R96, R105); every row but those of the host port, of the lead,
of resets and of darkroom leaves all its registers and windows as they were, but for the completion ring and the outstanding tags.
It rests on the readings and choices of the model in log entries 12, 101, 102. -/
def Obligations.HostPortIsKept : Prop :=
  ∀ (s t : State) (i : Instr), exec i s = .next t →
    match i with
    | .poll _ => samePkg s.pkg t.pkg ∧ { t.hp.settled with readData := [], absent := false, lastPoll := 0 }
        = { s.hp.settled with readData := [], absent := false, lastPoll := 0 }
    | .subProd _ => samePkg s.pkg t.pkg ∧ { t.hp.settled with counts := {}, rings := { t.hp.settled.rings with subProd := 0, unmirrored := [] } }
        = { s.hp.settled with counts := {}, rings := { s.hp.settled.rings with subProd := 0, unmirrored := [] } }
    | .compCons _ => onlyShared (fun x => { x with bulk := [] }) { s with hp := {} } { t with hp := {} }
        ∧ { t.hp.settled with counts := {}, absent := false, lastPoll := 0, rings := { t.hp.settled.rings with compCons := 0 } }
        = { s.hp.settled with counts := {}, absent := false, lastPoll := 0, rings := { s.hp.settled.rings with compCons := 0 } }
    | .dummy _ => samePkg s.pkg t.pkg ∧ { t.hp.settled with counts := {}, dummy := 0 } = { s.hp.settled with counts := {}, dummy := 0 }
    | .hpRingReset _ => onlyShared (fun x => { x with bulk := [] }) { s with hp := {} } { t with hp := {} } ∧ { t.hp.settled with counts := {}, rings := { t.hp.settled.rings with
          subProd := 0, subCons := 0, compCons := 0, halted := false, unmirrored := [] } }
        = { s.hp.settled with counts := {}, rings := { s.hp.settled.rings with
          subProd := 0, subCons := 0, compCons := 0, halted := false, unmirrored := [] } }
    | .bulkRelease _ => { t.hp.settled with counts := {} } = { s.hp.settled with counts := {} }
        ∧ onlyShared (fun x => { x with bulk := [] }) { s with hp := {} } { t with hp := {} }
    | .hpInvalidCommand _ => samePkg s.pkg t.pkg ∧ { t.hp.settled with counts := {} } = { s.hp.settled with counts := {} }
    | .hostPortWrite _ _ | .hpBrokenByte _ _ _ | .packetTake | .contactSheetRefresh | .hostAbsent | .bulkTimeout _ | .leadTakeover
    | .leadBootTimeout | .bootComplete _ _ | .time _ | .servicePacket _ | .brownOut | .vcc11Low | .vanaLow | .resetN | .resetRelease _ _
    | .tapInstruction _ _ | .darkroomCheck _ | .darkroomResume => True
    | _ => t.hp.settled = s.hp.settled

/-- A write transaction (R82, R83): each byte that falls into the submission ring window is read back, every other byte of the address
space reads as before, and one ignored byte or more counts once in HP_ERRORS (log entry 12). The `k`-th byte of a burst from `a` goes
to address `burstAt a k`. -/
def Obligations.HostWritesReadBack : Prop :=
  ∀ (s : State) (addr : BitVec 24) (data : List Byte), s.sound = true → hostAnswers s.begun = true → data.length ≤ 65536 →
    (data.length = 4 → writeRegister addr.toNat (w32 (leNat data)) = none) →
    ∃ t, exec (.hostPortWrite addr data) s = .next t
      ∧ (∀ k b, data[k]? = some b → 0x1000 ≤ burstAt addr.toNat k → burstAt addr.toNat k < 0x11000 → hpByte t (burstAt addr.toNat k) = b)
      ∧ (∀ a, ¬(0x1000 ≤ a ∧ a < 0x11000 ∧ ∃ k, k < data.length ∧ burstAt addr.toNat k = a) → hpByte t a = hpByte s a)
      ∧ t.hp.counts.errors = (if ∃ k, k < data.length ∧ ¬(0x1000 ≤ burstAt addr.toNat k ∧ burstAt addr.toNat k < 0x11000)
          then incSat s.hp.counts.errors else s.hp.counts.errors)

/-- A write of a register that its bounds do not admit is ignored as a whole and counted in HP_ERRORS (R89, R91, R93). -/
def Obligations.BadRegisterWritesAreCounted : Prop :=
  ∀ (s w : State) (v : Word), hostAnswers s.begun = true → w = hostCrosses 4 0 s.begun →
    ((v.toNat % 4 ≠ 0 ∨ 65536 < (v - s.hp.rings.subCons).toNat) → exec (.subProd v) s = .next (drain (countErrors 1 w)))
    ∧ ((v.toNat % 4 ≠ 0 ∨ (s.hp.rings.compProd - s.hp.rings.compCons).toNat < (v - s.hp.rings.compCons).toNat) →
        exec (.compCons v) s = .next (drain (countErrors 1 w)))
    ∧ ((v.toNat < 4 ∨ 15 < v.toNat) → exec (.dummy v) s = .next (drain (countErrors 1 w)))
    ∧ (1 < v.toNat → exec (.hpRingReset v) s = .next (drain (countErrors 1 w)))
    ∧ (0xFFFF < v.toNat → exec (.bulkRelease v) s = .next (drain (countErrors 1 w)))

/-- The checks of a taken packet, in their order (R99): each answers its status, untagged for the first two, and counts a bad check
and a refused tag. It rests on the readings and choices of the model in log entries 67, 68. -/
def Obligations.PacketChecksAnswer : Prop :=
  ∀ (s b q : State) (hdr pkt : List Byte) (len : Nat), b = s.begun → mayTake b = true →
    hdr = ringGet b.hp.rings.subMem b.hp.rings.subCons.toNat 8 → len = pkLen hdr → frames len b.hp.rings.subUsed = true →
    pkt = ringGet b.hp.rings.subMem b.hp.rings.subCons.toNat (12 + len) →
    q = onHpRings (fun r => { r with subCons := r.subCons + BitVec.ofNat 32 (12 + len) }) b →
    ((crc32c (pkt.take (8 + len))).toNat ≠ leAt pkt (8 + len) 4 →
      exec .packetTake s = .next (drain (onPkg (packetAnswer false pkt stBadCheck true)
        (onHp (fun h => { h with counts := { h.counts with badCheck := incSat h.counts.badCheck } }) q))))
    ∧ ((crc32c (pkt.take (8 + len))).toNat = leAt pkt (8 + len) 4 →
      (b.hp.tags.any (fun o => o.tag == pkTag pkt) = true →
        exec .packetTake s = .next (drain (onPkg (packetAnswer false pkt stBadParam true) q)))
      ∧ (b.hp.tags.any (fun o => o.tag == pkTag pkt) = false →
        (4096 ≤ b.hp.tags.length →
          exec .packetTake s = .next (drain (onPkg (packetAnswer false pkt stCapacity false)
            (onHp (fun h => { h with counts := { h.counts with refusedTags := incSat h.counts.refusedTags } })
              (addTag false (pkTag pkt) (pkOp pkt) (pkTile pkt) false q)))))
        ∧ (b.hp.tags.length < 4096 →
          ((pkReserved pkt = true ∨ pkClass pkt = 0 ∨ namable b.pkg (pkTile pkt) = false) →
            exec .packetTake s = .next (drain (onPkg (packetAnswer false pkt stBadParam false)
              (addTag false (pkTag pkt) (pkOp pkt) (pkTile pkt) false q))))
          ∧ (pkReserved pkt = false → pkClass pkt ≠ 0 → namable b.pkg (pkTile pkt) = true →
            ((knownOp (pkOp pkt) = false ∨ mayIssue false (pkOp pkt) = false) →
              exec .packetTake s = .next (drain (onPkg (packetAnswer false pkt stBadOpcode false)
                (addTag false (pkTag pkt) (pkOp pkt) (pkTile pkt) false q))))
            ∧ (knownOp (pkOp pkt) = true → mayIssue false (pkOp pkt) = true →
              (lengthOk (pkOp pkt) (pkPayload pkt) = false →
                exec .packetTake s = .next (drain (onPkg (packetAnswer false pkt stBadLength false)
                  (addTag false (pkTag pkt) (pkOp pkt) (pkTile pkt) false q))))
              ∧ (lengthOk (pkOp pkt) (pkPayload pkt) = true →
                allowedAt b.pkg b.pkg.lead (portSender b.pkg false (pkTag pkt)) (pkOp pkt) (pkPayload pkt) = false →
                exec .packetTake s = .next (drain (onPkg (packetAnswer false pkt stPolicy false)
                  (onPkg (refusedByPolicy b.pkg.lead) (addTag false (pkTag pkt) (pkOp pkt) (pkTile pkt) false q))))))))))

/-- After a refresh, the contact sheet is consistent: GENERATION and GENERATION_COPY read the same, and even where they were even
before (R86, R87). It rests on the readings and choices of the model in log entry 101. -/
def Obligations.RefreshedSheetIsConsistent : Prop :=
  ∀ (s : State), hostAnswers s.begun = true → s.pkg.outbox = [] →
    ∃ t, exec .contactSheetRefresh s = .next t ∧ t.hp.generation = s.hp.generation + 2
      ∧ (∀ k, k < 4 → hpByte t k = BitVec.ofNat 8 ((s.hp.generation + 2).toNat / 256 ^ k) ∧ hpByte t (0xFC + k) = hpByte t k)
      ∧ (s.hp.generation.toNat % 2 = 0 → t.hp.generation.toNat % 2 = 0)

/-- An object number outside its range completes BAD_HANDLE (R111). It rests on the readings and choices of the model in log entries
110, 111. -/
def Obligations.ObjectNumbersAreChecked : Prop :=
  ∀ (s : State) (p : Pkg) (c : Ctx) (t : Nat) (i : Instr), p = s.start → performs i p t = true →
    (match i with
      | .permitConfig _ permit _ _ => 3 < permit.toNat
      | .channelConfig _ ch _ _ _ => 31 < ch.toNat
      | .channelStatus _ ch _ => 31 < ch.toNat
      | .channelClear _ ch _ _ => 31 < ch.toNat
      | .seqConfig _ adc _ _ _ _ => 1 < adc.toNat
      | .seqStart _ adc _ _ _ => 1 < adc.toNat
      | .seqStatus _ adc _ => 1 < adc.toNat
      | .refSelect _ adc _ _ => 1 < adc.toNat
      | .loopWrite _ slot _ _ _ => 511 < slot.toNat
      | .loopRead _ slot _ => 511 < slot.toNat
      | .loopMode _ slot _ _ _ => 511 < slot.toNat
      | .loopClearFlags _ slot _ _ => 511 < slot.toNat
      | .rateGroupConfig _ group _ _ _ => 7 < group.toNat
      | .machineControl _ m _ _ => 255 < m.toNat
      | .identControl _ node _ _ _ => 127 < node.toNat
      | .capacityConfig _ zone _ _ => 255 < zone.toNat
      | .profileLoad _ program _ _ _ => 15 < program.toNat
      | .profileFire _ engine program _ _ _ => 7 < engine.toNat ∨ 15 < program.toNat
      | .profileCancel _ engine _ _ => 7 < engine.toNat
      | .profileStatus _ engine _ => 7 < engine.toNat
      | .angleConfig _ k _ _ _ => 1 < k.toNat
      | .angleSchedule _ k _ _ _ => 1 < k.toNat
      | .stepperConfig _ unit _ _ _ => 3 < unit.toNat
      | .stepperMove _ unit _ _ _ => 3 < unit.toNat
      | .stepperStop _ unit _ _ => 3 < unit.toNat
      | .stepperHome _ unit _ _ _ => 3 < unit.toNat
      | .fanConfig _ unit _ _ _ => 3 < unit.toNat
      | .fanStatus _ unit _ => 3 < unit.toNat
      | .fanBaseline _ unit _ _ => 3 < unit.toNat
      | .busConfig _ port _ _ => 2 < port.toNat
      | .busSend _ port _ _ _ => 2 < port.toNat
      | .busStatus _ port _ => 2 < port.toNat
      | .counterConfig _ n _ _ _ _ => 7 < n.toNat
      | .counterRead _ n _ => 8 < n.toNat
      | .policyLoad _ port _ _ _ => 5 < port.toNat
      | .policyRead _ port _ => 5 < port.toNat
      | _ => False) →
    ∀ op pl, commandParts i = some (c, op, pl) → exec i s = .next (s.after (finish c op stBadHandle t p))

/-- RING_RESET (R386): every entry is discarded, OVERFLOWS and LOST are 0, the sequence numbers go on, the descriptor and the block
stay, and the next entry is written at once, behind its anchor, with the next sequence numbers, while the write queue (R393) is empty.
-/
def Obligations.RingResetEmptiesTheRing : Prop :=
  ∀ (s : State) (c : Ctx) (t : Nat) (id : Word) (r : Ring), performs (.ringReset c id) s.start t = true →
    ringIdError s.start t id = none → (s.pkg.tile t).ring? (bits id 14 0) = some r →
    ∃ q r', exec (.ringReset c id) s = .next q ∧ (q.pkg.tile t).ring? (bits id 14 0) = some r' ∧ r'.entries = [] ∧ r'.overflows = 0
      ∧ r'.lost = 0 ∧ r'.nextSeq = r.nextSeq ∧ r'.desc = r.desc ∧ r'.block = r.block
      ∧ (∀ us v kind, 1 < r.cap → (q.pkg.tile t).rings.queued = 0 →
          ∃ r'', (((putEntry t (bits id 14 0) us v kind q.pkg).1.1).tile t).ring? (bits id 14 0) = some r''
            ∧ r''.entries.map (fun e => e.seq) = [r.nextSeq, nextSeqOf r.nextSeq])

/-- EVENT_READ (R407): it returns PENDING and MASKED, clears what it returns as set, and a raise after it sets PENDING again; a second
read, of whichever port, sees none of what the first has cleared. At a policy that has moved to deny it, it completes POLICY_CHANGED. -/
def Obligations.EventReadClearsWhatItReturns : Prop :=
  ∀ (s : State) (p : Pkg) (c : Ctx) (t : Nat), p = s.start → performs (.eventRead c) p t = true →
    ∃ q, exec (.eventRead c) s = .next q
      ∧ q = s.after (reply c 0x74 t (le 16 (p.tile t).events.pending.toNat ++ le 16 (p.tile t).events.masked.toNat)
          (onTile t (fun tl => { tl with events := { tl.events with pending := 0 } }) p))
      ∧ (q.pkg.tile t).events.pending = 0 ∧ (q.pkg.tile t).events.masked = (s.pkg.tile t).events.masked
      ∧ (∀ ev, ev < 128 → ((raise t ev q.pkg).tile t).events.pending.getLsbD ev = true)
      ∧ (∀ c2 : Ctx, performs (.eventRead c2) q.start t = true →
          exec (.eventRead c2) q = .next (q.after (reply c2 0x74 t (le 16 0 ++ le 16 (p.tile t).events.masked.toNat)
            (onTile t (fun tl => { tl with events := { tl.events with pending := 0 } }) q.start))))
      ∧ (∀ (c2 : Ctx) (named : Nat), awake p = true → localOf p c2.tile.toNat = some named → servingTile p 0x74 named = t →
          targetError p c2 0x74 [] named = some stPolicyChanged →
          exec (.eventRead c2) s = .next (s.after (finish c2 0x74 stPolicyChanged t (refusedByPolicy t p))))

/-- EVENT_MASK, and what a mask does (R405): it writes the MASKED bits of 32 events; a masked event still sets PENDING and counts, but
is not written to ring 0 (no ring changes, but those that the event triggers or that record changes of its EVT point) and does not show
in the summary, where one that is pending shows at the next refresh once it is unmasked. Event 93 counts again for each ring that a raise itself overflows (R392). -/
def Obligations.EventMaskHidesTheEvent : Prop :=
  ∀ (s : State) (c : Ctx) (t : Nat) (word : Byte) (rsv : BitVec 24) (mask : Word), performs (.eventMask c word rsv mask) s.start t = true →
    word.toNat ≤ 3 →
    ∃ q, exec (.eventMask c word rsv mask) s = .next q
      ∧ (∀ e, e < 128 → (q.pkg.tile t).events.masked.getLsbD e
          = (if e / 32 = word.toNat then mask.getLsbD (e % 32) else (s.pkg.tile t).events.masked.getLsbD e))
      ∧ (q.pkg.tile t).events.pending = (s.pkg.tile t).events.pending
      ∧ (∀ e, e < 128 → ((raise t e q.pkg).tile t).events.pending.getLsbD e = true
          ∧ Nat.min 65535 ((q.pkg.tile t).events.counts.getD e 0 + 1) ≤ ((raise t e q.pkg).tile t).events.counts.getD e 0
          ∧ (e ≠ 93 → ((raise t e q.pkg).tile t).events.counts.getD e 0 = Nat.min 65535 ((q.pkg.tile t).events.counts.getD e 0 + 1)))
      ∧ (∀ e, (q.pkg.tile t).events.masked.getLsbD e = true →
          onlineRings q.pkg t (fun r => r.trigger == 3 && bits r.param 6 0 == e) = [] → snoopers q.pkg t (key 13 e) = [] →
          ((raise t e q.pkg).tile t).rings = (q.pkg.tile t).rings)
      ∧ (online q.pkg t = true → summaryBytes q t
          = le 16 ((q.pkg.tile t).events.pending &&& ~~~(q.pkg.tile t).events.masked).toNat)

/-- A request that arrives takes a free entry of its own class, or of a lower one that its class may borrow, or waits behind fewer
than 64 of its class; one of class 0 is served in any case, and no partition ever holds more than its entries (R34, R35, R37, R39).
It rests on the readings and choices of the model in log entry 72. -/
def Obligations.EntriesStayInTheirPartitions : Prop :=
  ∀ (w : Work) (t cls limit : Nat) (p q : Pkg) (r : Admission), cls ≤ 3 → arrive w t cls limit p = (q, r) →
    (∀ part, part ≤ 3 → partUsed (p.tile t).fabric.flights part ≤ partSize part) →
    (∀ part, part ≤ 3 → partUsed (q.tile t).fabric.flights part ≤ partSize part)
    ∧ (r = .served → (∃ f, (q.tile t).fabric.flights = (p.tile t).fabric.flights ++ [f] ∧ f.work = w ∧ f.cls = cls
          ∧ f.part ∈ partOrder cls ∧ (cls ≠ 0 → cls ≤ f.part))
        ∨ (cls = 0 ∧ q = p ∧ ∀ part, part ≤ 3 → partUsed (p.tile t).fabric.flights part = partSize part))
    ∧ (r = .delayed → cls ≠ 0 ∧ (∀ part, part ∈ partOrder cls → partUsed (p.tile t).fabric.flights part = partSize part)
        ∧ waitingAt q t cls ≤ 64)
    ∧ (r = .refused → cls ≠ 0 ∧ (q.tile t) = (p.tile t) ∧ 64 ≤ waitingAt p t cls)

/-- The outputs of an evaluated slot lie between OUT_LO and OUT_HI, in every mode and for every law, with a region table that is
valid or not (R199, R209, R213, R216, R219). It rests on the readings and choices of the model in log entry 92. -/
def Obligations.LoopOutputsStayInTheirLimits : Prop :=
  ∀ (tl : Tile) (n : Nat) (rel : Handle → Handle), dOutLo (tl.slot n).desc ≤ dOutHi (tl.slot n).desc →
    dOutLo (tl.slot n).desc ≤ (evalSlot tl n rel).out.toInt ∧ (evalSlot tl n rel).out.toInt ≤ dOutHi (tl.slot n).desc
    ∧ (dLaw (tl.slot n).desc = 8 → dOutLo (tl.slot n).desc ≤ (evalSlot tl n rel).out2.toInt
        ∧ (evalSlot tl n rel).out2.toInt ≤ dOutHi (tl.slot n).desc)

/-- A POINT_WRITE of a plain point, of class VAR, BUS or HST, is read back: value, quality GOOD, the instant of the write; no other
point, tile or unit changes. While an override is in force the point keeps its record and the write is counted; POINT_OVERRIDE sets
quality OVERRIDDEN; POINT_RELEASE keeps the record (R27, R28, R30, R32). It rests on the readings and choices of the model in log
entry 11. -/
def Obligations.PointWritesAreReadBack : Prop :=
  ∀ (s : State) (p : Pkg) (c : Ctx) (t : Nat) (h : Handle) (v : Word) (ei : Byte) (rsv : BitVec 24) (k : Key), p = s.start → k = handleKey h →
    (keyClass k = 0x7 ∨ keyClass k = 0xB ∨ keyClass k = 0xC) →
    (performs (.pointWrite c h v ei rsv) p t = true → writeError p t c h = none → overridden (p.tile t) k = false →
      ∃ q, exec (.pointWrite c h v ei rsv) s = .next q ∧ readPoint q.pkg t k = { value := v, time := stamp s.pkg.now, q := .good }
        ∧ (∀ j, j ≠ k → (q.pkg.tile t).points.find? j = (s.pkg.tile t).points.find? j)
        ∧ onlyTile t (fun x => { x with points := [], rings := {}, events := {}, fabric := { x.fabric with nextId := 0 }
                                        monitors := if keyClass k = 0xC then [] else x.monitors }) s q)
    ∧ (performs (.pointWrite c h v ei rsv) p t = true → writeError p t c h = none → overridden (p.tile t) k = true →
      ∃ q, exec (.pointWrite c h v ei rsv) s = .next q ∧ readPoint q.pkg t k = readPoint s.pkg t k
        ∧ (q.pkg.tile t).fabric.overridden = incSat (s.pkg.tile t).fabric.overridden
        ∧ onlyTile t (fun x => { x with fabric := { x.fabric with overridden := 0 } }) s q)
    ∧ (performs (.pointOverride c h v ei rsv) p t = true → pointError p t h = none → notWritable p t k = false →
      ∃ q, exec (.pointOverride c h v ei rsv) s = .next q ∧ readPoint q.pkg t k = { value := v, time := stamp s.pkg.now, q := .overridden }
        ∧ overridden (q.pkg.tile t) k = true)
    ∧ (performs (.pointRelease c h ei rsv) p t = true → pointError p t h = none → overridden (p.tile t) k = true →
      ∃ q, exec (.pointRelease c h ei rsv) s = .next q ∧ readPoint q.pkg t k = readPoint s.pkg t k
        ∧ overridden (q.pkg.tile t) k = false)

/-- A POINT_WRITE of a drive command in Run keeps the value clamped to the range of the mode (R133). It rests on the readings and
choices of the model in log entries 25, 198. -/
def Obligations.DriveWritesAreClamped : Prop :=
  ∀ (s : State) (c : Ctx) (t : Nat) (h : Handle) (v : Word) (ei : Byte) (rsv : BitVec 24) (ch : Chan),
    performs (.pointWrite c h v ei rsv) s.start t = true → writeError s.start t c h = none → overridden (s.pkg.tile t) (handleKey h) = false →
    handleClass h = 1 → ch = (s.pkg.tile t).chan (handleIdx h / 8) → ch.out = .run →
    ∃ q, exec (.pointWrite c h v ei rsv) s = .next q
      ∧ ((q.pkg.tile t).chan (handleIdx h / 8)).drive.cmd.toNat = Nat.min v.toNat (driveMax ch.mode)
      ∧ ((q.pkg.tile t).chan (handleIdx h / 8)).drive.q = .good ∧ ((q.pkg.tile t).chan (handleIdx h / 8)).drive.time = stamp s.pkg.now
      ∧ ∀ n, n ≠ handleIdx h / 8 → (q.pkg.tile t).chan n = (s.pkg.tile t).chan n

/-- LIMIT_TRIP of a channel whose stage is on (R143, R147, R148, R150): its stage goes off, its fault bit sets, its configuration
stays, and every other channel and every engine, stepper and fan is as it was; then the engine, the stepper and the fans that drive
the channel stop (R310, R337, R347), and where none of them does, nothing else happens. It rests on the readings and choices of the
model in log entries 25, 93. -/
def Obligations.TripsTurnTheStageOff : Prop :=
  ∀ (s : State) (tile : TileId) (ch : BitVec 5) (t c : Nat) (x : Chan) (q : Pkg), t = tile.toNat → c = ch.toNat → t < s.pkg.n →
    s.pkg.inReset = false → x = (s.pkg.tile t).chan c → stageOn x = true →
    q = tripChannel t c fLimit (advanceTo (x.prot.blankUntil + 50 * usTicks) s.start) →
    exec (.limitTrip tile ch) s = .next (s.after (tripFan t c (tripStepper t c (tripEngine t c q))))
    ∧ stageOn ((q.tile t).chan c) = false ∧ ((q.tile t).chan c).prot.tripped = true
    ∧ ((q.tile t).chan c).prot.faults.getLsbD fLimit = true
    ∧ ((q.tile t).chan c).cfg = x.cfg ∧ ((q.tile t).chan c).out = x.out
    ∧ (∀ u n, (u, n) ≠ (t, c) → (q.tile u).chan n = (s.pkg.tile u).chan n)
    ∧ (∀ u, (q.tile u).engines = (s.pkg.tile u).engines ∧ (q.tile u).steppers = (s.pkg.tile u).steppers
        ∧ (q.tile u).fans = (s.pkg.tile u).fans)
    ∧ (∀ e, engineOn (s.pkg.tile t) c = some e → tripEngine t c q = abortProfile t e 5 q)
    ∧ (engineOn (s.pkg.tile t) c = none → stepperOn (s.pkg.tile t) c = none →
        (∀ u, u < 4 → ((s.pkg.tile t).fan u).state ≠ .unconfigured → fcDrive ((s.pkg.tile t).fan u).cfg ≠ c) →
        tripFan t c (tripStepper t c (tripEngine t c q)) = q)

/-- When the link is lost, the link and its session are down, every command that crossed it completes TETHER_LOST, and every request
that crossed it and whose source waits for it is answered TETHER_LOST (R423). It rests on the readings and choices of the model in
log entry 44. -/
def Obligations.LostLinkEndsItsTransactions : Prop :=
  ∀ (s : State), awake s.pkg = true → linkOpen s.pkg.sh.tether = true →
    ∃ t q, exec .tetherLost s = .next t ∧ t.pkg.sh.tether.state = .lost ∧ t.pkg.sh.tether.transactions = []
      ∧ t.pkg.sh.tether.requests = [] ∧ t.pkg.sh.tether.status.farOnline = 0 ∧ linkOpen t.pkg.sh.tether = false
      ∧ t = s.after q
      ∧ (∀ x, x ∈ s.pkg.sh.tether.transactions →
          Completion.mk x.src x.opcode stTetherLost (ownNo s.pkg s.pkg.lead) true false [] ∈ q.outbox)
      ∧ ∀ x o, x ∈ s.pkg.sh.tether.requests → o ∈ (s.pkg.tile x.2.origin).fabric.out → o.req = x.2 →
          ∃ o', o' ∈ (q.tile x.2.origin).fabric.out ∧ o'.req = x.2 ∧ o'.reply = some (failure stTetherLost)

/-- The machine is sound at reset, and every register holds the value the spec gives: DUMMY 8, every index and SCRATCH 0, an empty
queue (R89, R90); a channel, a slot, a group and the governor as their tables say (R72, R162, R199). It rests on the readings and
choices of the model in log entries 5, 8, 13. -/
def Obligations.ResetIsSound : Prop :=
  State.reset.sound = true ∧ State.reset.hp.dummy = 8 ∧ State.reset.hp.scratch = 0 ∧ State.reset.hp.generation = 0
    ∧ (∀ off, off ∈ [0x100, 0x104, 0x108, 0x10C, 0x114, 0x118, 0x11C, 0x120] → hpRegister State.reset off = 0)
    ∧ hpRegister State.reset 0x110 = 8 ∧ State.reset.pending = [] ∧ State.reset.pkg.inReset = true ∧ State.reset.pkg.now = 0
    ∧ (∀ t, (State.reset.pkg.tile t).points = [] ∧ (∀ k, ((State.reset.pkg.tile t).points.getD k {}).q = .offline
        ∧ ((State.reset.pkg.tile t).points.getD k {}).value = 0))
    ∧ (∀ t c, ((State.reset.pkg.tile t).chan c).curve = 0xFFFF ∧ ((State.reset.pkg.tile t).chan c).mode = 0)
    ∧ (∀ t n, dLaw ((State.reset.pkg.tile t).slot n).desc = 0 ∧ dMode ((State.reset.pkg.tile t).slot n).desc = 3
        ∧ dGain ((State.reset.pkg.tile t).slot n).desc = 0xFFFF ∧ (∀ i, i < 4 → dIn ((State.reset.pkg.tile t).slot n).desc i = noHandle))
    ∧ (∀ t, (State.reset.pkg.tile t).gov.ceil = 1000 ∧ (State.reset.pkg.tile t).gov.floor = 600
        ∧ (State.reset.pkg.tile t).gov.slackFloor = 250)

/-- Every step keeps the machine sound: the windows of the host port stay in canonical form inside 64 KiB, every index stays a
multiple of 4, no ring ever holds more than 65,536 bytes, held completions are whole packets, GENERATION is even, and no completion
is left on its way (R86, R90, R93, R94, R97). It rests on the readings and choices of the model in log entries 1, 15. -/
def Obligations.EveryStepKeepsTheMachineSound : Prop :=
  (∀ (i : Instr) (s t : State), s.sound = true → exec i s = .next t → t.sound = true)
    ∧ ∀ (s t : State), s.sound = true → step s = .next t → t.sound = true

/-- No completion overwrites another that the host has not read: every byte in use of the completion ring stays as it was, through
every row but a write of the host that moves COMP_CONS or resets the rings, and a reset or darkroom of the package (R93, R94). It
rests on the readings and choices of the model in log entry 66. -/
def Obligations.CompletionsOverwriteNothing : Prop :=
  ∀ (i : Instr) (s t : State), s.sound = true → exec i s = .next t →
    (match i with
      | .compCons _ | .hpRingReset _ | .hostPortWrite _ _ | .hpBrokenByte _ _ _ | .brownOut | .vcc11Low | .vanaLow | .resetN
      | .resetRelease _ _ | .tapInstruction _ _ | .darkroomCheck _ => false
      | _ => true) = true →
    t.hp.rings.compCons = s.hp.rings.compCons ∧ s.hp.rings.compUsed ≤ t.hp.rings.compUsed
      ∧ ∀ k, k < s.hp.rings.compUsed →
        memGet t.hp.rings.compMem ((s.hp.rings.compCons.toNat + k) % 65536)
          = memGet s.hp.rings.compMem ((s.hp.rings.compCons.toNat + k) % 65536)

/-- Every command survives its packet: from the opcode and payload of R116 to R129, `commandOf` gives the command back. -/
def Obligations.CommandsSurviveTheirPackets : Prop :=
  ∀ (i : Instr) (c : Ctx) (op : Byte) (pl : List Byte), i.wf = true → commandParts i = some (c, op, pl) → commandOf c op pl = some i
end

