-- ==== Sys2Proof/Laws/Bytes.lean ====
section
/-!
SUPPORT. Little-endian fields, and how they are read back from a payload.
-/

namespace Sys2Proof.Machine

@[simp] theorem length_le (n v : Nat) : (le n v).length = n := by
  induction n generalizing v with
  | zero => rfl
  | succ n ih => simp [le, ih]

@[simp] theorem length_zeros (n : Nat) : (zeros n).length = n := by simp [zeros]

/-- The number that the bytes of a number spell. -/
theorem leNat_le (n v : Nat) : leNat (le n v) = v % 256 ^ n := by
  induction n generalizing v with
  | zero => simp [le, leNat, Nat.mod_one]
  | succ n ih =>
    simp only [le, leNat, ih, BitVec.toNat_ofNat]
    have h : v % 256 ^ (n + 1) = v % 256 + 256 * (v / 256 % 256 ^ n) := by
      rw [Nat.pow_succ, Nat.mul_comm (256 ^ n) 256, Nat.mod_mul]
    omega

/-- A field before the place that is read does not matter. -/
theorem slice_append_right (a b : List Byte) (off len : Nat) (h : a.length ≤ off) :
    slice (a ++ b) off len = slice b (off - a.length) len := by
  simp only [slice, List.drop_append]
  rw [List.drop_eq_nil_of_le h, List.nil_append]

/-- The first field of a payload. -/
theorem slice_append_left (a b : List Byte) (len : Nat) (h : a.length = len) : slice (a ++ b) 0 len = a := by
  simp [slice, ← h]

theorem slice_all (a : List Byte) (len : Nat) (h : a.length = len) : slice a 0 len = a := by simp [slice, ← h]

/-- A register's bytes spell the register. -/
theorem ofNat_le {w : Nat} (n : Nat) (v : BitVec w) (h : w = 8 * n) : BitVec.ofNat w (v.toNat % 256 ^ n) = v := by
  have : (256 : Nat) ^ n = 2 ^ w := by rw [h, Nat.pow_mul]
  rw [this]
  simp

/-- A field read past the one before it. -/
theorem fld_skip {w n v off len : Nat} (r : List Byte) (h : n ≤ off) :
    (fld (le n v ++ r) off len : BitVec w) = fld r (off - n) len := by
  simp only [fld, leAt]
  rw [slice_append_right _ _ _ _ (by simpa using h), length_le]

/-- A field read where it was written, with more behind it. -/
theorem fld_here {w n : Nat} (v : BitVec w) (r : List Byte) (h : w = 8 * n) : fld (le n v.toNat ++ r) 0 n = v := by
  simp only [fld, leAt]
  rw [slice_append_left _ _ _ (length_le _ _), leNat_le, ofNat_le n v h]

/-- A field read where it was written, at the end. -/
theorem fld_last {w n : Nat} (v : BitVec w) (h : w = 8 * n) : fld (le n v.toNat) 0 n = v := by
  simpa using fld_here v [] h

/-- A record read back from its bytes. -/
theorem recOf_le {w n : Nat} (v : BitVec w) (h : w = 8 * n) : recOf w (le n v.toNat) = v := by
  simp only [recOf, leNat_le]
  exact ofNat_le n v h

theorem drop_skip {n v off : Nat} (r : List Byte) (h : n ≤ off) : (le n v ++ r).drop off = r.drop (off - n) := by
  rw [List.drop_append, List.drop_eq_nil_of_le (by simpa using h), List.nil_append, length_le]

/-- Groups of `k` bytes read back what was written in groups of `k` bytes. -/
theorem groups_flatMap {α : Type} (k : Nat) (hk : 0 < k) (f : α → List Byte) (hf : ∀ a, (f a).length = k) (l : List α) :
    groups k (l.flatMap f) = l.map f := by
  have hl : ∀ l : List α, (l.flatMap f).length = k * l.length := by
    intro l
    induction l with
    | nil => simp
    | cons a r ih => simp [ih, hf, Nat.mul_add]; omega
  simp only [groups, hl, Nat.mul_div_cancel_left _ hk]
  induction l with
  | nil => rfl
  | cons a r ih =>
    simp only [List.length_cons, groupsAux, List.flatMap_cons, List.map_cons]
    rw [List.take_append_of_le_length (by simp [hf]), List.take_of_length_le (by simp [hf]),
      List.drop_append, List.drop_eq_nil_of_le (by simp [hf]), hf]
    simp [ih]

end Sys2Proof.Machine
end

