-- ==== Sys2Proof/Laws/Memory.lean ====
section
/-!
SUPPORT. Reads after writes, and the canonical form, of the memories of the host port and of the tables.
-/

namespace Sys2Proof.Machine

/-- An address below every listed one reads as 0. -/
theorem memGet_below : ∀ (l : List Host.Cell) (k : Nat), Memory.wfFrom k l = true → ∀ x, x < k → memGet l x = 0 := by
  intro l
  induction l with
  | nil => intros; rfl
  | cons d q ih =>
    obtain ⟨e, f⟩ := d
    intro k hk x hx
    simp only [Memory.wfFrom, Bool.and_eq_true, decide_eq_true_eq] at hk
    simp only [memGet]
    rw [if_neg (by omega), ih _ hk.2 x (by omega)]

/-- The other cells keep their bytes, whatever the form of the memory. -/
theorem memGet_memSet_ne (m : List Host.Cell) {i j : Nat} (v : Byte) (h : j ≠ i) : memGet (memSet m i v) j = memGet m j := by
  induction m with
  | nil => simp only [memSet]; split <;> simp [memGet, Ne.symm h]
  | cons c r ih =>
    obtain ⟨a, b⟩ := c
    simp only [memSet]
    split
    · split <;> simp [memGet, Ne.symm h]
    · split
      · subst_vars
        split <;> simp [memGet, Ne.symm h]
      · simp only [memGet, ih]

/-- A memory in canonical form reads back what is written. -/
theorem memGet_memSet_self (m : List Host.Cell) (i : Nat) (v : Byte) (h : Memory.wf m) : memGet (memSet m i v) i = v := by
  unfold Memory.wf at h
  generalize (0 : Nat) = lo at h
  induction m generalizing lo with
  | nil => simp only [memSet]; split <;> simp_all [memGet]
  | cons c r ih =>
    obtain ⟨a, b⟩ := c
    simp only [Memory.wfFrom, Bool.and_eq_true, decide_eq_true_eq] at h
    obtain ⟨⟨h1, h2⟩, h3⟩ := h
    simp only [memSet]
    split
    · split
      · subst_vars; simp only [memGet]; rw [if_neg (by omega)]; exact memGet_below r _ h3 _ (by omega)
      · simp [memGet]
    · split
      · subst_vars
        split
        · subst_vars; exact memGet_below r _ h3 _ (by omega)
        · simp [memGet]
      · simp only [memGet]; rw [if_neg (by omega)]; exact ih _ h3

/-- A write keeps the canonical form from any lower bound. -/
theorem memSet_wfFrom (m : List Host.Cell) (lo i : Nat) (v : Byte) (hlo : lo ≤ i) (h : Memory.wfFrom lo m = true) :
    Memory.wfFrom lo (memSet m i v) = true := by
  have weaken : ∀ (l : List Host.Cell) (a b : Nat), a ≤ b → Memory.wfFrom b l = true → Memory.wfFrom a l = true := by
    intro l a b hab hb
    cases l with
    | nil => rfl
    | cons c r =>
      obtain ⟨x, y⟩ := c
      simp only [Memory.wfFrom, Bool.and_eq_true, decide_eq_true_eq] at hb ⊢
      exact ⟨⟨by omega, hb.1.2⟩, hb.2⟩
  induction m generalizing lo with
  | nil => simp only [memSet]; split <;> simp_all [Memory.wfFrom]
  | cons c r ih =>
    obtain ⟨a, b⟩ := c
    simp only [Memory.wfFrom, Bool.and_eq_true, decide_eq_true_eq] at h
    obtain ⟨⟨h1, h2⟩, h3⟩ := h
    simp only [memSet]
    split
    · split
      · simp only [Memory.wfFrom, Bool.and_eq_true, decide_eq_true_eq]; exact ⟨⟨h1, h2⟩, h3⟩
      · rename_i hv
        simp only [Memory.wfFrom, Bool.and_eq_true, decide_eq_true_eq, bne_iff_ne]
        exact ⟨⟨hlo, hv⟩, ⟨by omega, by simpa using h2⟩, h3⟩
    · split
      · split
        · exact weaken _ _ _ (by omega) h3
        · rename_i hv
          simp only [Memory.wfFrom, Bool.and_eq_true, decide_eq_true_eq, bne_iff_ne]
          subst_vars
          exact ⟨⟨h1, hv⟩, h3⟩
      · simp only [Memory.wfFrom, Bool.and_eq_true, decide_eq_true_eq]
        exact ⟨⟨h1, h2⟩, ih _ (by omega) h3⟩

/-- A write keeps the canonical form. -/
theorem memSet_wf (m : List Host.Cell) (i : Nat) (v : Byte) (h : Memory.wf m = true) : Memory.wf (memSet m i v) = true :=
  memSet_wfFrom m 0 i v (Nat.zero_le _) h

/-- A ring write keeps the canonical form. -/
theorem ringPut_wf (bs : List Byte) : ∀ (m : List Host.Cell) (i : Nat), Memory.wf m = true → Memory.wf (ringPut m i bs) = true := by
  induction bs with
  | nil => intro m i h; exact h
  | cons b r ih => intro m i h; exact ih _ _ (memSet_wf _ _ _ h)

/-- A write of many bytes keeps the canonical form. -/
theorem memPut_wf (bs : List Byte) : ∀ (m : List Host.Cell) (i : Nat), Memory.wf m = true → Memory.wf (memPut m i bs) = true := by
  induction bs with
  | nil => intro m i h; exact h
  | cons b r ih => intro m i h; exact ih _ _ (memSet_wf _ _ _ h)

/-- A memory made of bytes is in canonical form. -/
theorem memOf_wf (bs : List Byte) : Memory.wf (memOf bs) = true := memPut_wf bs [] 0 rfl

/-- A burst write of the host keeps the canonical form of the submission ring. -/
theorem hpWriteBytes_wf (data : List Byte) :
    ∀ (m : List Host.Cell) (a : Nat), Memory.wf m = true → Memory.wf (hpWriteBytes m a data).1 = true := by
  induction data with
  | nil => intro m a h; exact h
  | cons b r ih =>
    intro m a h
    simp only [hpWriteBytes]
    apply ih
    split
    · exact memSet_wf _ _ _ h
    · exact h

/-- A cell of a memory after a write is an old one or the written one. -/
theorem memSet_bound (n : Nat) (i : Nat) (v : Byte) (hi : i < n) :
    ∀ m : List Host.Cell, m.all (fun c => c.1 < n) = true → (memSet m i v).all (fun c => c.1 < n) = true := by
  intro m
  induction m with
  | nil => intro _; simp only [memSet]; split <;> simp [hi]
  | cons c r ih =>
    obtain ⟨a, b⟩ := c
    intro h
    simp only [List.all_cons, Bool.and_eq_true, decide_eq_true_eq] at h
    simp only [memSet]
    split
    · split <;> simp [h.1, hi, h.2]
    · split
      · split <;> simp [hi] <;> simpa using h.2
      · simp only [List.all_cons, Bool.and_eq_true, decide_eq_true_eq]; exact ⟨h.1, ih h.2⟩

/-- A ring write stays inside the ring. -/
theorem ringPut_bound (bs : List Byte) : ∀ (m : List Host.Cell) (i : Nat), m.all (fun c => c.1 < 65536) = true →
    (ringPut m i bs).all (fun c => c.1 < 65536) = true := by
  induction bs with
  | nil => intro m i h; exact h
  | cons b r ih => intro m i h; exact ih _ _ (memSet_bound _ _ _ (Nat.mod_lt _ (by omega)) _ h)

/-- A burst write of the host stays inside the submission ring. -/
theorem hpWriteBytes_bound (data : List Byte) : ∀ (m : List Host.Cell) (a : Nat), m.all (fun c => c.1 < 65536) = true →
    (hpWriteBytes m a data).1.all (fun c => c.1 < 65536) = true := by
  induction data with
  | nil => intro m a h; exact h
  | cons b r ih =>
    intro m a h
    simp only [hpWriteBytes]
    apply ih
    split
    · rename_i hr
      simp only [Bool.and_eq_true, decide_eq_true_eq] at hr
      exact memSet_bound _ _ _ (by omega) _ h
    · exact h

/-- The value set in a table is found there. -/
theorem Tbl.find?_set {α : Type} (k : Nat) (v : α) : ∀ t : Tbl α, (t.set k v).find? k = some v := by
  intro t
  induction t with
  | nil => simp [Tbl.set, Tbl.find?]
  | cons c r ih =>
    obtain ⟨j, w⟩ := c
    simp only [Tbl.set]
    split
    · simp [Tbl.find?]
    · split
      · simp [Tbl.find?]
      · simp only [Tbl.find?]; rw [if_neg (by omega)]; exact ih

/-- Other numbers of a table keep their values. -/
theorem Tbl.find?_set_ne {α : Type} {k j : Nat} (v : α) (h : j ≠ k) : ∀ t : Tbl α, (t.set k v).find? j = t.find? j := by
  intro t
  induction t with
  | nil => simp [Tbl.set, Tbl.find?, Ne.symm h]
  | cons c r ih =>
    obtain ⟨i, w⟩ := c
    simp only [Tbl.set]
    split
    · simp [Tbl.find?, Ne.symm h]
    · split
      · subst_vars; simp [Tbl.find?, Ne.symm h]
      · simp only [Tbl.find?, ih]

@[simp] theorem Tbl.getD_set {α : Type} (t : Tbl α) (k : Nat) (v d : α) : (t.set k v).getD k d = v := by
  simp [Tbl.getD, Tbl.find?_set]

theorem Tbl.getD_set_ne {α : Type} (t : Tbl α) {k j : Nat} (v d : α) (h : j ≠ k) : (t.set k v).getD j d = t.getD j d := by
  simp [Tbl.getD, Tbl.find?_set_ne v h]

/-- The changed tile is there, and no other tile changes. -/
@[simp] theorem onTile_tile (t : Nat) (f : Tile → Tile) (p : Pkg) : (onTile t f p).tile t = f (p.tile t) := by
  simp [onTile, Pkg.tile]

theorem onTile_tile_ne {t u : Nat} (f : Tile → Tile) (p : Pkg) (h : u ≠ t) : (onTile t f p).tile u = p.tile u := by
  simp [onTile, Pkg.tile, Tbl.getD_set_ne _ _ _ h]

@[simp] theorem onShared_tile (f : Shared → Shared) (p : Pkg) (t : Nat) : (onShared f p).tile t = p.tile t := rfl
@[simp] theorem emit_tile (c : Completion) (p : Pkg) (t : Nat) : (emit c p).tile t = p.tile t := rfl

end Sys2Proof.Machine
end

