-- ==== Sys2Proof/Laws/State.lean ====
section
/-!
SUPPORT. What each update of the state leaves as it was, one lemma for each field.
-/

namespace Sys2Proof.Machine

variable (s : State) (p : Pkg) (tl : Tile) (t : Nat)

@[simp] theorem onHp_pkg (f : HostPort → HostPort) : (onHp f s).pkg = s.pkg := rfl
@[simp] theorem onHp_pending (f : HostPort → HostPort) : (onHp f s).pending = s.pending := rfl
@[simp] theorem onHpRings_pkg (f : HpRings → HpRings) : (onHpRings f s).pkg = s.pkg := rfl
@[simp] theorem onHpRings_pending (f : HpRings → HpRings) : (onHpRings f s).pending = s.pending := rfl
@[simp] theorem onPkg_hp (f : Pkg → Pkg) : (onPkg f s).hp = s.hp := rfl
@[simp] theorem onPkg_pending (f : Pkg → Pkg) : (onPkg f s).pending = s.pending := rfl
@[simp] theorem onHp_hp (f : HostPort → HostPort) : (onHp f s).hp = f s.hp := rfl
@[simp] theorem onPkg_pkg (f : Pkg → Pkg) : (onPkg f s).pkg = f s.pkg := rfl
@[simp] theorem onShared_ident (f : Shared → Shared) : (onShared f p).ident = p.ident := rfl
@[simp] theorem onTile_ident (f : Tile → Tile) : (onTile t f p).ident = p.ident := rfl
@[simp] theorem emit_ident (c : Completion) : (emit c p).ident = p.ident := rfl
@[simp] theorem onShared_now (f : Shared → Shared) : (onShared f p).now = p.now := rfl
@[simp] theorem onTile_now (f : Tile → Tile) : (onTile t f p).now = p.now := rfl
@[simp] theorem emit_now (c : Completion) : (emit c p).now = p.now := rfl
@[simp] theorem onShared_inReset (f : Shared → Shared) : (onShared f p).inReset = p.inReset := rfl
@[simp] theorem onTile_inReset (f : Tile → Tile) : (onTile t f p).inReset = p.inReset := rfl
@[simp] theorem emit_inReset (c : Completion) : (emit c p).inReset = p.inReset := rfl
@[simp] theorem onShared_resetCause (f : Shared → Shared) : (onShared f p).resetCause = p.resetCause := rfl
@[simp] theorem onTile_resetCause (f : Tile → Tile) : (onTile t f p).resetCause = p.resetCause := rfl
@[simp] theorem emit_resetCause (c : Completion) : (emit c p).resetCause = p.resetCause := rfl
@[simp] theorem onShared_straps (f : Shared → Shared) : (onShared f p).straps = p.straps := rfl
@[simp] theorem onTile_straps (f : Tile → Tile) : (onTile t f p).straps = p.straps := rfl
@[simp] theorem emit_straps (c : Completion) : (emit c p).straps = p.straps := rfl
@[simp] theorem onShared_everReleased (f : Shared → Shared) : (onShared f p).everReleased = p.everReleased := rfl
@[simp] theorem onTile_everReleased (f : Tile → Tile) : (onTile t f p).everReleased = p.everReleased := rfl
@[simp] theorem emit_everReleased (c : Completion) : (emit c p).everReleased = p.everReleased := rfl
@[simp] theorem onShared_tiles (f : Shared → Shared) : (onShared f p).tiles = p.tiles := rfl
@[simp] theorem emit_tiles (c : Completion) : (emit c p).tiles = p.tiles := rfl
@[simp] theorem onTile_sh (f : Tile → Tile) : (onTile t f p).sh = p.sh := rfl
@[simp] theorem emit_sh (c : Completion) : (emit c p).sh = p.sh := rfl
@[simp] theorem onShared_freeCtr (f : Shared → Shared) : (onShared f p).freeCtr = p.freeCtr := rfl
@[simp] theorem onTile_freeCtr (f : Tile → Tile) : (onTile t f p).freeCtr = p.freeCtr := rfl
@[simp] theorem emit_freeCtr (c : Completion) : (emit c p).freeCtr = p.freeCtr := rfl
@[simp] theorem onShared_outbox (f : Shared → Shared) : (onShared f p).outbox = p.outbox := rfl
@[simp] theorem onTile_outbox (f : Tile → Tile) : (onTile t f p).outbox = p.outbox := rfl
@[simp] theorem onShared_sh (f : Shared → Shared) : (onShared f p).sh = f p.sh := rfl
@[simp] theorem emit_outbox (c : Completion) : (emit c p).outbox = p.outbox ++ [c] := rfl
@[simp] theorem onUpdate_ident (f : Update → Update) : (onUpdate f p).ident = p.ident := rfl
@[simp] theorem onUpdate_now (f : Update → Update) : (onUpdate f p).now = p.now := rfl
@[simp] theorem onUpdate_inReset (f : Update → Update) : (onUpdate f p).inReset = p.inReset := rfl
@[simp] theorem onUpdate_resetCause (f : Update → Update) : (onUpdate f p).resetCause = p.resetCause := rfl
@[simp] theorem onUpdate_straps (f : Update → Update) : (onUpdate f p).straps = p.straps := rfl
@[simp] theorem onUpdate_everReleased (f : Update → Update) : (onUpdate f p).everReleased = p.everReleased := rfl
@[simp] theorem onUpdate_tiles (f : Update → Update) : (onUpdate f p).tiles = p.tiles := rfl
@[simp] theorem onUpdate_freeCtr (f : Update → Update) : (onUpdate f p).freeCtr = p.freeCtr := rfl
@[simp] theorem onUpdate_outbox (f : Update → Update) : (onUpdate f p).outbox = p.outbox := rfl
@[simp] theorem onPanel_ident (f : Panel → Panel) : (onPanel f p).ident = p.ident := rfl
@[simp] theorem onPanel_now (f : Panel → Panel) : (onPanel f p).now = p.now := rfl
@[simp] theorem onPanel_inReset (f : Panel → Panel) : (onPanel f p).inReset = p.inReset := rfl
@[simp] theorem onPanel_resetCause (f : Panel → Panel) : (onPanel f p).resetCause = p.resetCause := rfl
@[simp] theorem onPanel_straps (f : Panel → Panel) : (onPanel f p).straps = p.straps := rfl
@[simp] theorem onPanel_everReleased (f : Panel → Panel) : (onPanel f p).everReleased = p.everReleased := rfl
@[simp] theorem onPanel_tiles (f : Panel → Panel) : (onPanel f p).tiles = p.tiles := rfl
@[simp] theorem onPanel_freeCtr (f : Panel → Panel) : (onPanel f p).freeCtr = p.freeCtr := rfl
@[simp] theorem onPanel_outbox (f : Panel → Panel) : (onPanel f p).outbox = p.outbox := rfl
@[simp] theorem onKeys_ident (f : Keys → Keys) : (onKeys f p).ident = p.ident := rfl
@[simp] theorem onKeys_now (f : Keys → Keys) : (onKeys f p).now = p.now := rfl
@[simp] theorem onKeys_inReset (f : Keys → Keys) : (onKeys f p).inReset = p.inReset := rfl
@[simp] theorem onKeys_resetCause (f : Keys → Keys) : (onKeys f p).resetCause = p.resetCause := rfl
@[simp] theorem onKeys_straps (f : Keys → Keys) : (onKeys f p).straps = p.straps := rfl
@[simp] theorem onKeys_everReleased (f : Keys → Keys) : (onKeys f p).everReleased = p.everReleased := rfl
@[simp] theorem onKeys_tiles (f : Keys → Keys) : (onKeys f p).tiles = p.tiles := rfl
@[simp] theorem onKeys_freeCtr (f : Keys → Keys) : (onKeys f p).freeCtr = p.freeCtr := rfl
@[simp] theorem onKeys_outbox (f : Keys → Keys) : (onKeys f p).outbox = p.outbox := rfl
@[simp] theorem onPlanner_ident (f : Planner → Planner) : (onPlanner f p).ident = p.ident := rfl
@[simp] theorem onPlanner_now (f : Planner → Planner) : (onPlanner f p).now = p.now := rfl
@[simp] theorem onPlanner_inReset (f : Planner → Planner) : (onPlanner f p).inReset = p.inReset := rfl
@[simp] theorem onPlanner_resetCause (f : Planner → Planner) : (onPlanner f p).resetCause = p.resetCause := rfl
@[simp] theorem onPlanner_straps (f : Planner → Planner) : (onPlanner f p).straps = p.straps := rfl
@[simp] theorem onPlanner_everReleased (f : Planner → Planner) : (onPlanner f p).everReleased = p.everReleased := rfl
@[simp] theorem onPlanner_tiles (f : Planner → Planner) : (onPlanner f p).tiles = p.tiles := rfl
@[simp] theorem onPlanner_freeCtr (f : Planner → Planner) : (onPlanner f p).freeCtr = p.freeCtr := rfl
@[simp] theorem onPlanner_outbox (f : Planner → Planner) : (onPlanner f p).outbox = p.outbox := rfl
@[simp] theorem onTether_ident (f : Tether → Tether) : (onTether f p).ident = p.ident := rfl
@[simp] theorem onTether_now (f : Tether → Tether) : (onTether f p).now = p.now := rfl
@[simp] theorem onTether_inReset (f : Tether → Tether) : (onTether f p).inReset = p.inReset := rfl
@[simp] theorem onTether_resetCause (f : Tether → Tether) : (onTether f p).resetCause = p.resetCause := rfl
@[simp] theorem onTether_straps (f : Tether → Tether) : (onTether f p).straps = p.straps := rfl
@[simp] theorem onTether_everReleased (f : Tether → Tether) : (onTether f p).everReleased = p.everReleased := rfl
@[simp] theorem onTether_tiles (f : Tether → Tether) : (onTether f p).tiles = p.tiles := rfl
@[simp] theorem onTether_freeCtr (f : Tether → Tether) : (onTether f p).freeCtr = p.freeCtr := rfl
@[simp] theorem onTether_outbox (f : Tether → Tether) : (onTether f p).outbox = p.outbox := rfl
@[simp] theorem onService_ident (f : Service → Service) : (onService f p).ident = p.ident := rfl
@[simp] theorem onService_now (f : Service → Service) : (onService f p).now = p.now := rfl
@[simp] theorem onService_inReset (f : Service → Service) : (onService f p).inReset = p.inReset := rfl
@[simp] theorem onService_resetCause (f : Service → Service) : (onService f p).resetCause = p.resetCause := rfl
@[simp] theorem onService_straps (f : Service → Service) : (onService f p).straps = p.straps := rfl
@[simp] theorem onService_everReleased (f : Service → Service) : (onService f p).everReleased = p.everReleased := rfl
@[simp] theorem onService_tiles (f : Service → Service) : (onService f p).tiles = p.tiles := rfl
@[simp] theorem onService_freeCtr (f : Service → Service) : (onService f p).freeCtr = p.freeCtr := rfl
@[simp] theorem onService_outbox (f : Service → Service) : (onService f p).outbox = p.outbox := rfl
@[simp] theorem onPermits_ident (f : Permits → Permits) : (onPermits f p).ident = p.ident := rfl
@[simp] theorem onPermits_now (f : Permits → Permits) : (onPermits f p).now = p.now := rfl
@[simp] theorem onPermits_inReset (f : Permits → Permits) : (onPermits f p).inReset = p.inReset := rfl
@[simp] theorem onPermits_resetCause (f : Permits → Permits) : (onPermits f p).resetCause = p.resetCause := rfl
@[simp] theorem onPermits_straps (f : Permits → Permits) : (onPermits f p).straps = p.straps := rfl
@[simp] theorem onPermits_everReleased (f : Permits → Permits) : (onPermits f p).everReleased = p.everReleased := rfl
@[simp] theorem onPermits_tiles (f : Permits → Permits) : (onPermits f p).tiles = p.tiles := rfl
@[simp] theorem onPermits_freeCtr (f : Permits → Permits) : (onPermits f p).freeCtr = p.freeCtr := rfl
@[simp] theorem onPermits_outbox (f : Permits → Permits) : (onPermits f p).outbox = p.outbox := rfl
@[simp] theorem Tile.onChan_boot (n : Nat) (f : Chan → Chan) : (tl.onChan n f).boot = tl.boot := rfl
@[simp] theorem Tile.onChan_fabric (n : Nat) (f : Chan → Chan) : (tl.onChan n f).fabric = tl.fabric := rfl
@[simp] theorem Tile.onChan_points (n : Nat) (f : Chan → Chan) : (tl.onChan n f).points = tl.points := rfl
@[simp] theorem Tile.onChan_overrides (n : Nat) (f : Chan → Chan) : (tl.onChan n f).overrides = tl.overrides := rfl
@[simp] theorem Tile.onChan_claims (n : Nat) (f : Chan → Chan) : (tl.onChan n f).claims = tl.claims := rfl
@[simp] theorem Tile.onChan_events (n : Nat) (f : Chan → Chan) : (tl.onChan n f).events = tl.events := rfl
@[simp] theorem Tile.onChan_rings (n : Nat) (f : Chan → Chan) : (tl.onChan n f).rings = tl.rings := rfl
@[simp] theorem Tile.onChan_conv (n : Nat) (f : Chan → Chan) : (tl.onChan n f).conv = tl.conv := rfl
@[simp] theorem Tile.onChan_slots (n : Nat) (f : Chan → Chan) : (tl.onChan n f).slots = tl.slots := rfl
@[simp] theorem Tile.onChan_groups (n : Nat) (f : Chan → Chan) : (tl.onChan n f).groups = tl.groups := rfl
@[simp] theorem Tile.onChan_gov (n : Nat) (f : Chan → Chan) : (tl.onChan n f).gov = tl.gov := rfl
@[simp] theorem Tile.onChan_tables (n : Nat) (f : Chan → Chan) : (tl.onChan n f).tables = tl.tables := rfl
@[simp] theorem Tile.onChan_machines (n : Nat) (f : Chan → Chan) : (tl.onChan n f).machines = tl.machines := rfl
@[simp] theorem Tile.onChan_counting (n : Nat) (f : Chan → Chan) : (tl.onChan n f).counting = tl.counting := rfl
@[simp] theorem Tile.onChan_loopFree (n : Nat) (f : Chan → Chan) : (tl.onChan n f).loopFree = tl.loopFree := rfl
@[simp] theorem Tile.onChan_tableFree (n : Nat) (f : Chan → Chan) : (tl.onChan n f).tableFree = tl.tableFree := rfl
@[simp] theorem Tile.onChan_budgetAt (n : Nat) (f : Chan → Chan) : (tl.onChan n f).budgetAt = tl.budgetAt := rfl
@[simp] theorem Tile.onChan_pred (n : Nat) (f : Chan → Chan) : (tl.onChan n f).pred = tl.pred := rfl
@[simp] theorem Tile.onChan_programs (n : Nat) (f : Chan → Chan) : (tl.onChan n f).programs = tl.programs := rfl
@[simp] theorem Tile.onChan_engines (n : Nat) (f : Chan → Chan) : (tl.onChan n f).engines = tl.engines := rfl
@[simp] theorem Tile.onChan_trackers (n : Nat) (f : Chan → Chan) : (tl.onChan n f).trackers = tl.trackers := rfl
@[simp] theorem Tile.onChan_steppers (n : Nat) (f : Chan → Chan) : (tl.onChan n f).steppers = tl.steppers := rfl
@[simp] theorem Tile.onChan_fans (n : Nat) (f : Chan → Chan) : (tl.onChan n f).fans = tl.fans := rfl
@[simp] theorem Tile.onChan_supply (n : Nat) (f : Chan → Chan) : (tl.onChan n f).supply = tl.supply := rfl
@[simp] theorem Tile.onChan_monitors (n : Nat) (f : Chan → Chan) : (tl.onChan n f).monitors = tl.monitors := rfl
@[simp] theorem Tile.onChan_counters (n : Nat) (f : Chan → Chan) : (tl.onChan n f).counters = tl.counters := rfl
@[simp] theorem Tile.onChan_policies (n : Nat) (f : Chan → Chan) : (tl.onChan n f).policies = tl.policies := rfl
@[simp] theorem Tile.onChan_entropy (n : Nat) (f : Chan → Chan) : (tl.onChan n f).entropy = tl.entropy := rfl
@[simp] theorem Tile.onChan_flash (n : Nat) (f : Chan → Chan) : (tl.onChan n f).flash = tl.flash := rfl
@[simp] theorem Tile.onChan_images (n : Nat) (f : Chan → Chan) : (tl.onChan n f).images = tl.images := rfl
@[simp] theorem Tile.onSlot_boot (n : Nat) (f : Slot → Slot) : (tl.onSlot n f).boot = tl.boot := rfl
@[simp] theorem Tile.onSlot_fabric (n : Nat) (f : Slot → Slot) : (tl.onSlot n f).fabric = tl.fabric := rfl
@[simp] theorem Tile.onSlot_points (n : Nat) (f : Slot → Slot) : (tl.onSlot n f).points = tl.points := rfl
@[simp] theorem Tile.onSlot_overrides (n : Nat) (f : Slot → Slot) : (tl.onSlot n f).overrides = tl.overrides := rfl
@[simp] theorem Tile.onSlot_claims (n : Nat) (f : Slot → Slot) : (tl.onSlot n f).claims = tl.claims := rfl
@[simp] theorem Tile.onSlot_events (n : Nat) (f : Slot → Slot) : (tl.onSlot n f).events = tl.events := rfl
@[simp] theorem Tile.onSlot_rings (n : Nat) (f : Slot → Slot) : (tl.onSlot n f).rings = tl.rings := rfl
@[simp] theorem Tile.onSlot_chans (n : Nat) (f : Slot → Slot) : (tl.onSlot n f).chans = tl.chans := rfl
@[simp] theorem Tile.onSlot_conv (n : Nat) (f : Slot → Slot) : (tl.onSlot n f).conv = tl.conv := rfl
@[simp] theorem Tile.onSlot_groups (n : Nat) (f : Slot → Slot) : (tl.onSlot n f).groups = tl.groups := rfl
@[simp] theorem Tile.onSlot_gov (n : Nat) (f : Slot → Slot) : (tl.onSlot n f).gov = tl.gov := rfl
@[simp] theorem Tile.onSlot_tables (n : Nat) (f : Slot → Slot) : (tl.onSlot n f).tables = tl.tables := rfl
@[simp] theorem Tile.onSlot_machines (n : Nat) (f : Slot → Slot) : (tl.onSlot n f).machines = tl.machines := rfl
@[simp] theorem Tile.onSlot_counting (n : Nat) (f : Slot → Slot) : (tl.onSlot n f).counting = tl.counting := rfl
@[simp] theorem Tile.onSlot_loopFree (n : Nat) (f : Slot → Slot) : (tl.onSlot n f).loopFree = tl.loopFree := rfl
@[simp] theorem Tile.onSlot_tableFree (n : Nat) (f : Slot → Slot) : (tl.onSlot n f).tableFree = tl.tableFree := rfl
@[simp] theorem Tile.onSlot_budgetAt (n : Nat) (f : Slot → Slot) : (tl.onSlot n f).budgetAt = tl.budgetAt := rfl
@[simp] theorem Tile.onSlot_pred (n : Nat) (f : Slot → Slot) : (tl.onSlot n f).pred = tl.pred := rfl
@[simp] theorem Tile.onSlot_programs (n : Nat) (f : Slot → Slot) : (tl.onSlot n f).programs = tl.programs := rfl
@[simp] theorem Tile.onSlot_engines (n : Nat) (f : Slot → Slot) : (tl.onSlot n f).engines = tl.engines := rfl
@[simp] theorem Tile.onSlot_trackers (n : Nat) (f : Slot → Slot) : (tl.onSlot n f).trackers = tl.trackers := rfl
@[simp] theorem Tile.onSlot_steppers (n : Nat) (f : Slot → Slot) : (tl.onSlot n f).steppers = tl.steppers := rfl
@[simp] theorem Tile.onSlot_fans (n : Nat) (f : Slot → Slot) : (tl.onSlot n f).fans = tl.fans := rfl
@[simp] theorem Tile.onSlot_supply (n : Nat) (f : Slot → Slot) : (tl.onSlot n f).supply = tl.supply := rfl
@[simp] theorem Tile.onSlot_monitors (n : Nat) (f : Slot → Slot) : (tl.onSlot n f).monitors = tl.monitors := rfl
@[simp] theorem Tile.onSlot_counters (n : Nat) (f : Slot → Slot) : (tl.onSlot n f).counters = tl.counters := rfl
@[simp] theorem Tile.onSlot_policies (n : Nat) (f : Slot → Slot) : (tl.onSlot n f).policies = tl.policies := rfl
@[simp] theorem Tile.onSlot_entropy (n : Nat) (f : Slot → Slot) : (tl.onSlot n f).entropy = tl.entropy := rfl
@[simp] theorem Tile.onSlot_flash (n : Nat) (f : Slot → Slot) : (tl.onSlot n f).flash = tl.flash := rfl
@[simp] theorem Tile.onSlot_images (n : Nat) (f : Slot → Slot) : (tl.onSlot n f).images = tl.images := rfl
@[simp] theorem Tile.onGroup_boot (n : Nat) (f : Group → Group) : (tl.onGroup n f).boot = tl.boot := rfl
@[simp] theorem Tile.onGroup_fabric (n : Nat) (f : Group → Group) : (tl.onGroup n f).fabric = tl.fabric := rfl
@[simp] theorem Tile.onGroup_points (n : Nat) (f : Group → Group) : (tl.onGroup n f).points = tl.points := rfl
@[simp] theorem Tile.onGroup_overrides (n : Nat) (f : Group → Group) : (tl.onGroup n f).overrides = tl.overrides := rfl
@[simp] theorem Tile.onGroup_claims (n : Nat) (f : Group → Group) : (tl.onGroup n f).claims = tl.claims := rfl
@[simp] theorem Tile.onGroup_events (n : Nat) (f : Group → Group) : (tl.onGroup n f).events = tl.events := rfl
@[simp] theorem Tile.onGroup_rings (n : Nat) (f : Group → Group) : (tl.onGroup n f).rings = tl.rings := rfl
@[simp] theorem Tile.onGroup_chans (n : Nat) (f : Group → Group) : (tl.onGroup n f).chans = tl.chans := rfl
@[simp] theorem Tile.onGroup_conv (n : Nat) (f : Group → Group) : (tl.onGroup n f).conv = tl.conv := rfl
@[simp] theorem Tile.onGroup_slots (n : Nat) (f : Group → Group) : (tl.onGroup n f).slots = tl.slots := rfl
@[simp] theorem Tile.onGroup_gov (n : Nat) (f : Group → Group) : (tl.onGroup n f).gov = tl.gov := rfl
@[simp] theorem Tile.onGroup_tables (n : Nat) (f : Group → Group) : (tl.onGroup n f).tables = tl.tables := rfl
@[simp] theorem Tile.onGroup_machines (n : Nat) (f : Group → Group) : (tl.onGroup n f).machines = tl.machines := rfl
@[simp] theorem Tile.onGroup_counting (n : Nat) (f : Group → Group) : (tl.onGroup n f).counting = tl.counting := rfl
@[simp] theorem Tile.onGroup_loopFree (n : Nat) (f : Group → Group) : (tl.onGroup n f).loopFree = tl.loopFree := rfl
@[simp] theorem Tile.onGroup_tableFree (n : Nat) (f : Group → Group) : (tl.onGroup n f).tableFree = tl.tableFree := rfl
@[simp] theorem Tile.onGroup_budgetAt (n : Nat) (f : Group → Group) : (tl.onGroup n f).budgetAt = tl.budgetAt := rfl
@[simp] theorem Tile.onGroup_pred (n : Nat) (f : Group → Group) : (tl.onGroup n f).pred = tl.pred := rfl
@[simp] theorem Tile.onGroup_programs (n : Nat) (f : Group → Group) : (tl.onGroup n f).programs = tl.programs := rfl
@[simp] theorem Tile.onGroup_engines (n : Nat) (f : Group → Group) : (tl.onGroup n f).engines = tl.engines := rfl
@[simp] theorem Tile.onGroup_trackers (n : Nat) (f : Group → Group) : (tl.onGroup n f).trackers = tl.trackers := rfl
@[simp] theorem Tile.onGroup_steppers (n : Nat) (f : Group → Group) : (tl.onGroup n f).steppers = tl.steppers := rfl
@[simp] theorem Tile.onGroup_fans (n : Nat) (f : Group → Group) : (tl.onGroup n f).fans = tl.fans := rfl
@[simp] theorem Tile.onGroup_supply (n : Nat) (f : Group → Group) : (tl.onGroup n f).supply = tl.supply := rfl
@[simp] theorem Tile.onGroup_monitors (n : Nat) (f : Group → Group) : (tl.onGroup n f).monitors = tl.monitors := rfl
@[simp] theorem Tile.onGroup_counters (n : Nat) (f : Group → Group) : (tl.onGroup n f).counters = tl.counters := rfl
@[simp] theorem Tile.onGroup_policies (n : Nat) (f : Group → Group) : (tl.onGroup n f).policies = tl.policies := rfl
@[simp] theorem Tile.onGroup_entropy (n : Nat) (f : Group → Group) : (tl.onGroup n f).entropy = tl.entropy := rfl
@[simp] theorem Tile.onGroup_flash (n : Nat) (f : Group → Group) : (tl.onGroup n f).flash = tl.flash := rfl
@[simp] theorem Tile.onGroup_images (n : Nat) (f : Group → Group) : (tl.onGroup n f).images = tl.images := rfl
@[simp] theorem Tile.onMachine_boot (n : Nat) (f : MachineSt → MachineSt) : (tl.onMachine n f).boot = tl.boot := rfl
@[simp] theorem Tile.onMachine_fabric (n : Nat) (f : MachineSt → MachineSt) : (tl.onMachine n f).fabric = tl.fabric := rfl
@[simp] theorem Tile.onMachine_points (n : Nat) (f : MachineSt → MachineSt) : (tl.onMachine n f).points = tl.points := rfl
@[simp] theorem Tile.onMachine_overrides (n : Nat) (f : MachineSt → MachineSt) : (tl.onMachine n f).overrides = tl.overrides := rfl
@[simp] theorem Tile.onMachine_claims (n : Nat) (f : MachineSt → MachineSt) : (tl.onMachine n f).claims = tl.claims := rfl
@[simp] theorem Tile.onMachine_events (n : Nat) (f : MachineSt → MachineSt) : (tl.onMachine n f).events = tl.events := rfl
@[simp] theorem Tile.onMachine_rings (n : Nat) (f : MachineSt → MachineSt) : (tl.onMachine n f).rings = tl.rings := rfl
@[simp] theorem Tile.onMachine_chans (n : Nat) (f : MachineSt → MachineSt) : (tl.onMachine n f).chans = tl.chans := rfl
@[simp] theorem Tile.onMachine_conv (n : Nat) (f : MachineSt → MachineSt) : (tl.onMachine n f).conv = tl.conv := rfl
@[simp] theorem Tile.onMachine_slots (n : Nat) (f : MachineSt → MachineSt) : (tl.onMachine n f).slots = tl.slots := rfl
@[simp] theorem Tile.onMachine_groups (n : Nat) (f : MachineSt → MachineSt) : (tl.onMachine n f).groups = tl.groups := rfl
@[simp] theorem Tile.onMachine_gov (n : Nat) (f : MachineSt → MachineSt) : (tl.onMachine n f).gov = tl.gov := rfl
@[simp] theorem Tile.onMachine_tables (n : Nat) (f : MachineSt → MachineSt) : (tl.onMachine n f).tables = tl.tables := rfl
@[simp] theorem Tile.onMachine_counting (n : Nat) (f : MachineSt → MachineSt) : (tl.onMachine n f).counting = tl.counting := rfl
@[simp] theorem Tile.onMachine_loopFree (n : Nat) (f : MachineSt → MachineSt) : (tl.onMachine n f).loopFree = tl.loopFree := rfl
@[simp] theorem Tile.onMachine_tableFree (n : Nat) (f : MachineSt → MachineSt) : (tl.onMachine n f).tableFree = tl.tableFree := rfl
@[simp] theorem Tile.onMachine_budgetAt (n : Nat) (f : MachineSt → MachineSt) : (tl.onMachine n f).budgetAt = tl.budgetAt := rfl
@[simp] theorem Tile.onMachine_pred (n : Nat) (f : MachineSt → MachineSt) : (tl.onMachine n f).pred = tl.pred := rfl
@[simp] theorem Tile.onMachine_programs (n : Nat) (f : MachineSt → MachineSt) : (tl.onMachine n f).programs = tl.programs := rfl
@[simp] theorem Tile.onMachine_engines (n : Nat) (f : MachineSt → MachineSt) : (tl.onMachine n f).engines = tl.engines := rfl
@[simp] theorem Tile.onMachine_trackers (n : Nat) (f : MachineSt → MachineSt) : (tl.onMachine n f).trackers = tl.trackers := rfl
@[simp] theorem Tile.onMachine_steppers (n : Nat) (f : MachineSt → MachineSt) : (tl.onMachine n f).steppers = tl.steppers := rfl
@[simp] theorem Tile.onMachine_fans (n : Nat) (f : MachineSt → MachineSt) : (tl.onMachine n f).fans = tl.fans := rfl
@[simp] theorem Tile.onMachine_supply (n : Nat) (f : MachineSt → MachineSt) : (tl.onMachine n f).supply = tl.supply := rfl
@[simp] theorem Tile.onMachine_monitors (n : Nat) (f : MachineSt → MachineSt) : (tl.onMachine n f).monitors = tl.monitors := rfl
@[simp] theorem Tile.onMachine_counters (n : Nat) (f : MachineSt → MachineSt) : (tl.onMachine n f).counters = tl.counters := rfl
@[simp] theorem Tile.onMachine_policies (n : Nat) (f : MachineSt → MachineSt) : (tl.onMachine n f).policies = tl.policies := rfl
@[simp] theorem Tile.onMachine_entropy (n : Nat) (f : MachineSt → MachineSt) : (tl.onMachine n f).entropy = tl.entropy := rfl
@[simp] theorem Tile.onMachine_flash (n : Nat) (f : MachineSt → MachineSt) : (tl.onMachine n f).flash = tl.flash := rfl
@[simp] theorem Tile.onMachine_images (n : Nat) (f : MachineSt → MachineSt) : (tl.onMachine n f).images = tl.images := rfl
@[simp] theorem Tile.onEngine_boot (n : Nat) (f : Engine → Engine) : (tl.onEngine n f).boot = tl.boot := rfl
@[simp] theorem Tile.onEngine_fabric (n : Nat) (f : Engine → Engine) : (tl.onEngine n f).fabric = tl.fabric := rfl
@[simp] theorem Tile.onEngine_points (n : Nat) (f : Engine → Engine) : (tl.onEngine n f).points = tl.points := rfl
@[simp] theorem Tile.onEngine_overrides (n : Nat) (f : Engine → Engine) : (tl.onEngine n f).overrides = tl.overrides := rfl
@[simp] theorem Tile.onEngine_claims (n : Nat) (f : Engine → Engine) : (tl.onEngine n f).claims = tl.claims := rfl
@[simp] theorem Tile.onEngine_events (n : Nat) (f : Engine → Engine) : (tl.onEngine n f).events = tl.events := rfl
@[simp] theorem Tile.onEngine_rings (n : Nat) (f : Engine → Engine) : (tl.onEngine n f).rings = tl.rings := rfl
@[simp] theorem Tile.onEngine_chans (n : Nat) (f : Engine → Engine) : (tl.onEngine n f).chans = tl.chans := rfl
@[simp] theorem Tile.onEngine_conv (n : Nat) (f : Engine → Engine) : (tl.onEngine n f).conv = tl.conv := rfl
@[simp] theorem Tile.onEngine_slots (n : Nat) (f : Engine → Engine) : (tl.onEngine n f).slots = tl.slots := rfl
@[simp] theorem Tile.onEngine_groups (n : Nat) (f : Engine → Engine) : (tl.onEngine n f).groups = tl.groups := rfl
@[simp] theorem Tile.onEngine_gov (n : Nat) (f : Engine → Engine) : (tl.onEngine n f).gov = tl.gov := rfl
@[simp] theorem Tile.onEngine_tables (n : Nat) (f : Engine → Engine) : (tl.onEngine n f).tables = tl.tables := rfl
@[simp] theorem Tile.onEngine_machines (n : Nat) (f : Engine → Engine) : (tl.onEngine n f).machines = tl.machines := rfl
@[simp] theorem Tile.onEngine_counting (n : Nat) (f : Engine → Engine) : (tl.onEngine n f).counting = tl.counting := rfl
@[simp] theorem Tile.onEngine_loopFree (n : Nat) (f : Engine → Engine) : (tl.onEngine n f).loopFree = tl.loopFree := rfl
@[simp] theorem Tile.onEngine_tableFree (n : Nat) (f : Engine → Engine) : (tl.onEngine n f).tableFree = tl.tableFree := rfl
@[simp] theorem Tile.onEngine_budgetAt (n : Nat) (f : Engine → Engine) : (tl.onEngine n f).budgetAt = tl.budgetAt := rfl
@[simp] theorem Tile.onEngine_pred (n : Nat) (f : Engine → Engine) : (tl.onEngine n f).pred = tl.pred := rfl
@[simp] theorem Tile.onEngine_programs (n : Nat) (f : Engine → Engine) : (tl.onEngine n f).programs = tl.programs := rfl
@[simp] theorem Tile.onEngine_trackers (n : Nat) (f : Engine → Engine) : (tl.onEngine n f).trackers = tl.trackers := rfl
@[simp] theorem Tile.onEngine_steppers (n : Nat) (f : Engine → Engine) : (tl.onEngine n f).steppers = tl.steppers := rfl
@[simp] theorem Tile.onEngine_fans (n : Nat) (f : Engine → Engine) : (tl.onEngine n f).fans = tl.fans := rfl
@[simp] theorem Tile.onEngine_supply (n : Nat) (f : Engine → Engine) : (tl.onEngine n f).supply = tl.supply := rfl
@[simp] theorem Tile.onEngine_monitors (n : Nat) (f : Engine → Engine) : (tl.onEngine n f).monitors = tl.monitors := rfl
@[simp] theorem Tile.onEngine_counters (n : Nat) (f : Engine → Engine) : (tl.onEngine n f).counters = tl.counters := rfl
@[simp] theorem Tile.onEngine_policies (n : Nat) (f : Engine → Engine) : (tl.onEngine n f).policies = tl.policies := rfl
@[simp] theorem Tile.onEngine_entropy (n : Nat) (f : Engine → Engine) : (tl.onEngine n f).entropy = tl.entropy := rfl
@[simp] theorem Tile.onEngine_flash (n : Nat) (f : Engine → Engine) : (tl.onEngine n f).flash = tl.flash := rfl
@[simp] theorem Tile.onEngine_images (n : Nat) (f : Engine → Engine) : (tl.onEngine n f).images = tl.images := rfl
@[simp] theorem Tile.onTracker_boot (n : Nat) (f : Tracker → Tracker) : (tl.onTracker n f).boot = tl.boot := rfl
@[simp] theorem Tile.onTracker_fabric (n : Nat) (f : Tracker → Tracker) : (tl.onTracker n f).fabric = tl.fabric := rfl
@[simp] theorem Tile.onTracker_points (n : Nat) (f : Tracker → Tracker) : (tl.onTracker n f).points = tl.points := rfl
@[simp] theorem Tile.onTracker_overrides (n : Nat) (f : Tracker → Tracker) : (tl.onTracker n f).overrides = tl.overrides := rfl
@[simp] theorem Tile.onTracker_claims (n : Nat) (f : Tracker → Tracker) : (tl.onTracker n f).claims = tl.claims := rfl
@[simp] theorem Tile.onTracker_events (n : Nat) (f : Tracker → Tracker) : (tl.onTracker n f).events = tl.events := rfl
@[simp] theorem Tile.onTracker_rings (n : Nat) (f : Tracker → Tracker) : (tl.onTracker n f).rings = tl.rings := rfl
@[simp] theorem Tile.onTracker_chans (n : Nat) (f : Tracker → Tracker) : (tl.onTracker n f).chans = tl.chans := rfl
@[simp] theorem Tile.onTracker_conv (n : Nat) (f : Tracker → Tracker) : (tl.onTracker n f).conv = tl.conv := rfl
@[simp] theorem Tile.onTracker_slots (n : Nat) (f : Tracker → Tracker) : (tl.onTracker n f).slots = tl.slots := rfl
@[simp] theorem Tile.onTracker_groups (n : Nat) (f : Tracker → Tracker) : (tl.onTracker n f).groups = tl.groups := rfl
@[simp] theorem Tile.onTracker_gov (n : Nat) (f : Tracker → Tracker) : (tl.onTracker n f).gov = tl.gov := rfl
@[simp] theorem Tile.onTracker_tables (n : Nat) (f : Tracker → Tracker) : (tl.onTracker n f).tables = tl.tables := rfl
@[simp] theorem Tile.onTracker_machines (n : Nat) (f : Tracker → Tracker) : (tl.onTracker n f).machines = tl.machines := rfl
@[simp] theorem Tile.onTracker_counting (n : Nat) (f : Tracker → Tracker) : (tl.onTracker n f).counting = tl.counting := rfl
@[simp] theorem Tile.onTracker_loopFree (n : Nat) (f : Tracker → Tracker) : (tl.onTracker n f).loopFree = tl.loopFree := rfl
@[simp] theorem Tile.onTracker_tableFree (n : Nat) (f : Tracker → Tracker) : (tl.onTracker n f).tableFree = tl.tableFree := rfl
@[simp] theorem Tile.onTracker_budgetAt (n : Nat) (f : Tracker → Tracker) : (tl.onTracker n f).budgetAt = tl.budgetAt := rfl
@[simp] theorem Tile.onTracker_pred (n : Nat) (f : Tracker → Tracker) : (tl.onTracker n f).pred = tl.pred := rfl
@[simp] theorem Tile.onTracker_programs (n : Nat) (f : Tracker → Tracker) : (tl.onTracker n f).programs = tl.programs := rfl
@[simp] theorem Tile.onTracker_engines (n : Nat) (f : Tracker → Tracker) : (tl.onTracker n f).engines = tl.engines := rfl
@[simp] theorem Tile.onTracker_steppers (n : Nat) (f : Tracker → Tracker) : (tl.onTracker n f).steppers = tl.steppers := rfl
@[simp] theorem Tile.onTracker_fans (n : Nat) (f : Tracker → Tracker) : (tl.onTracker n f).fans = tl.fans := rfl
@[simp] theorem Tile.onTracker_supply (n : Nat) (f : Tracker → Tracker) : (tl.onTracker n f).supply = tl.supply := rfl
@[simp] theorem Tile.onTracker_monitors (n : Nat) (f : Tracker → Tracker) : (tl.onTracker n f).monitors = tl.monitors := rfl
@[simp] theorem Tile.onTracker_counters (n : Nat) (f : Tracker → Tracker) : (tl.onTracker n f).counters = tl.counters := rfl
@[simp] theorem Tile.onTracker_policies (n : Nat) (f : Tracker → Tracker) : (tl.onTracker n f).policies = tl.policies := rfl
@[simp] theorem Tile.onTracker_entropy (n : Nat) (f : Tracker → Tracker) : (tl.onTracker n f).entropy = tl.entropy := rfl
@[simp] theorem Tile.onTracker_flash (n : Nat) (f : Tracker → Tracker) : (tl.onTracker n f).flash = tl.flash := rfl
@[simp] theorem Tile.onTracker_images (n : Nat) (f : Tracker → Tracker) : (tl.onTracker n f).images = tl.images := rfl
@[simp] theorem Tile.onStepper_boot (n : Nat) (f : Stepper → Stepper) : (tl.onStepper n f).boot = tl.boot := rfl
@[simp] theorem Tile.onStepper_fabric (n : Nat) (f : Stepper → Stepper) : (tl.onStepper n f).fabric = tl.fabric := rfl
@[simp] theorem Tile.onStepper_points (n : Nat) (f : Stepper → Stepper) : (tl.onStepper n f).points = tl.points := rfl
@[simp] theorem Tile.onStepper_overrides (n : Nat) (f : Stepper → Stepper) : (tl.onStepper n f).overrides = tl.overrides := rfl
@[simp] theorem Tile.onStepper_claims (n : Nat) (f : Stepper → Stepper) : (tl.onStepper n f).claims = tl.claims := rfl
@[simp] theorem Tile.onStepper_events (n : Nat) (f : Stepper → Stepper) : (tl.onStepper n f).events = tl.events := rfl
@[simp] theorem Tile.onStepper_rings (n : Nat) (f : Stepper → Stepper) : (tl.onStepper n f).rings = tl.rings := rfl
@[simp] theorem Tile.onStepper_chans (n : Nat) (f : Stepper → Stepper) : (tl.onStepper n f).chans = tl.chans := rfl
@[simp] theorem Tile.onStepper_conv (n : Nat) (f : Stepper → Stepper) : (tl.onStepper n f).conv = tl.conv := rfl
@[simp] theorem Tile.onStepper_slots (n : Nat) (f : Stepper → Stepper) : (tl.onStepper n f).slots = tl.slots := rfl
@[simp] theorem Tile.onStepper_groups (n : Nat) (f : Stepper → Stepper) : (tl.onStepper n f).groups = tl.groups := rfl
@[simp] theorem Tile.onStepper_gov (n : Nat) (f : Stepper → Stepper) : (tl.onStepper n f).gov = tl.gov := rfl
@[simp] theorem Tile.onStepper_tables (n : Nat) (f : Stepper → Stepper) : (tl.onStepper n f).tables = tl.tables := rfl
@[simp] theorem Tile.onStepper_machines (n : Nat) (f : Stepper → Stepper) : (tl.onStepper n f).machines = tl.machines := rfl
@[simp] theorem Tile.onStepper_counting (n : Nat) (f : Stepper → Stepper) : (tl.onStepper n f).counting = tl.counting := rfl
@[simp] theorem Tile.onStepper_loopFree (n : Nat) (f : Stepper → Stepper) : (tl.onStepper n f).loopFree = tl.loopFree := rfl
@[simp] theorem Tile.onStepper_tableFree (n : Nat) (f : Stepper → Stepper) : (tl.onStepper n f).tableFree = tl.tableFree := rfl
@[simp] theorem Tile.onStepper_budgetAt (n : Nat) (f : Stepper → Stepper) : (tl.onStepper n f).budgetAt = tl.budgetAt := rfl
@[simp] theorem Tile.onStepper_pred (n : Nat) (f : Stepper → Stepper) : (tl.onStepper n f).pred = tl.pred := rfl
@[simp] theorem Tile.onStepper_programs (n : Nat) (f : Stepper → Stepper) : (tl.onStepper n f).programs = tl.programs := rfl
@[simp] theorem Tile.onStepper_engines (n : Nat) (f : Stepper → Stepper) : (tl.onStepper n f).engines = tl.engines := rfl
@[simp] theorem Tile.onStepper_trackers (n : Nat) (f : Stepper → Stepper) : (tl.onStepper n f).trackers = tl.trackers := rfl
@[simp] theorem Tile.onStepper_fans (n : Nat) (f : Stepper → Stepper) : (tl.onStepper n f).fans = tl.fans := rfl
@[simp] theorem Tile.onStepper_supply (n : Nat) (f : Stepper → Stepper) : (tl.onStepper n f).supply = tl.supply := rfl
@[simp] theorem Tile.onStepper_monitors (n : Nat) (f : Stepper → Stepper) : (tl.onStepper n f).monitors = tl.monitors := rfl
@[simp] theorem Tile.onStepper_counters (n : Nat) (f : Stepper → Stepper) : (tl.onStepper n f).counters = tl.counters := rfl
@[simp] theorem Tile.onStepper_policies (n : Nat) (f : Stepper → Stepper) : (tl.onStepper n f).policies = tl.policies := rfl
@[simp] theorem Tile.onStepper_entropy (n : Nat) (f : Stepper → Stepper) : (tl.onStepper n f).entropy = tl.entropy := rfl
@[simp] theorem Tile.onStepper_flash (n : Nat) (f : Stepper → Stepper) : (tl.onStepper n f).flash = tl.flash := rfl
@[simp] theorem Tile.onStepper_images (n : Nat) (f : Stepper → Stepper) : (tl.onStepper n f).images = tl.images := rfl
@[simp] theorem Tile.onFan_boot (n : Nat) (f : Fan → Fan) : (tl.onFan n f).boot = tl.boot := rfl
@[simp] theorem Tile.onFan_fabric (n : Nat) (f : Fan → Fan) : (tl.onFan n f).fabric = tl.fabric := rfl
@[simp] theorem Tile.onFan_points (n : Nat) (f : Fan → Fan) : (tl.onFan n f).points = tl.points := rfl
@[simp] theorem Tile.onFan_overrides (n : Nat) (f : Fan → Fan) : (tl.onFan n f).overrides = tl.overrides := rfl
@[simp] theorem Tile.onFan_claims (n : Nat) (f : Fan → Fan) : (tl.onFan n f).claims = tl.claims := rfl
@[simp] theorem Tile.onFan_events (n : Nat) (f : Fan → Fan) : (tl.onFan n f).events = tl.events := rfl
@[simp] theorem Tile.onFan_rings (n : Nat) (f : Fan → Fan) : (tl.onFan n f).rings = tl.rings := rfl
@[simp] theorem Tile.onFan_chans (n : Nat) (f : Fan → Fan) : (tl.onFan n f).chans = tl.chans := rfl
@[simp] theorem Tile.onFan_conv (n : Nat) (f : Fan → Fan) : (tl.onFan n f).conv = tl.conv := rfl
@[simp] theorem Tile.onFan_slots (n : Nat) (f : Fan → Fan) : (tl.onFan n f).slots = tl.slots := rfl
@[simp] theorem Tile.onFan_groups (n : Nat) (f : Fan → Fan) : (tl.onFan n f).groups = tl.groups := rfl
@[simp] theorem Tile.onFan_gov (n : Nat) (f : Fan → Fan) : (tl.onFan n f).gov = tl.gov := rfl
@[simp] theorem Tile.onFan_tables (n : Nat) (f : Fan → Fan) : (tl.onFan n f).tables = tl.tables := rfl
@[simp] theorem Tile.onFan_machines (n : Nat) (f : Fan → Fan) : (tl.onFan n f).machines = tl.machines := rfl
@[simp] theorem Tile.onFan_counting (n : Nat) (f : Fan → Fan) : (tl.onFan n f).counting = tl.counting := rfl
@[simp] theorem Tile.onFan_loopFree (n : Nat) (f : Fan → Fan) : (tl.onFan n f).loopFree = tl.loopFree := rfl
@[simp] theorem Tile.onFan_tableFree (n : Nat) (f : Fan → Fan) : (tl.onFan n f).tableFree = tl.tableFree := rfl
@[simp] theorem Tile.onFan_budgetAt (n : Nat) (f : Fan → Fan) : (tl.onFan n f).budgetAt = tl.budgetAt := rfl
@[simp] theorem Tile.onFan_pred (n : Nat) (f : Fan → Fan) : (tl.onFan n f).pred = tl.pred := rfl
@[simp] theorem Tile.onFan_programs (n : Nat) (f : Fan → Fan) : (tl.onFan n f).programs = tl.programs := rfl
@[simp] theorem Tile.onFan_engines (n : Nat) (f : Fan → Fan) : (tl.onFan n f).engines = tl.engines := rfl
@[simp] theorem Tile.onFan_trackers (n : Nat) (f : Fan → Fan) : (tl.onFan n f).trackers = tl.trackers := rfl
@[simp] theorem Tile.onFan_steppers (n : Nat) (f : Fan → Fan) : (tl.onFan n f).steppers = tl.steppers := rfl
@[simp] theorem Tile.onFan_supply (n : Nat) (f : Fan → Fan) : (tl.onFan n f).supply = tl.supply := rfl
@[simp] theorem Tile.onFan_monitors (n : Nat) (f : Fan → Fan) : (tl.onFan n f).monitors = tl.monitors := rfl
@[simp] theorem Tile.onFan_counters (n : Nat) (f : Fan → Fan) : (tl.onFan n f).counters = tl.counters := rfl
@[simp] theorem Tile.onFan_policies (n : Nat) (f : Fan → Fan) : (tl.onFan n f).policies = tl.policies := rfl
@[simp] theorem Tile.onFan_entropy (n : Nat) (f : Fan → Fan) : (tl.onFan n f).entropy = tl.entropy := rfl
@[simp] theorem Tile.onFan_flash (n : Nat) (f : Fan → Fan) : (tl.onFan n f).flash = tl.flash := rfl
@[simp] theorem Tile.onFan_images (n : Nat) (f : Fan → Fan) : (tl.onFan n f).images = tl.images := rfl

/-! Bytes that cross a port change nothing of the package but the bandwidth counters of its lead tile (R504). -/

@[simp] theorem countPort_ident (src at_ received sent : Nat) : (countPort src at_ received sent p).ident = p.ident := by
  unfold countPort; split <;> rfl
@[simp] theorem countPort_now (src at_ received sent : Nat) : (countPort src at_ received sent p).now = p.now := by
  unfold countPort; split <;> rfl
@[simp] theorem countPort_inReset (src at_ received sent : Nat) : (countPort src at_ received sent p).inReset = p.inReset := by
  unfold countPort; split <;> rfl
@[simp] theorem countPort_resetCause (src at_ received sent : Nat) : (countPort src at_ received sent p).resetCause = p.resetCause := by
  unfold countPort; split <;> rfl
@[simp] theorem countPort_straps (src at_ received sent : Nat) : (countPort src at_ received sent p).straps = p.straps := by
  unfold countPort; split <;> rfl
@[simp] theorem countPort_everReleased (src at_ received sent : Nat) : (countPort src at_ received sent p).everReleased = p.everReleased := by
  unfold countPort; split <;> rfl
@[simp] theorem countPort_sh (src at_ received sent : Nat) : (countPort src at_ received sent p).sh = p.sh := by
  unfold countPort; split <;> rfl
@[simp] theorem countPort_freeCtr (src at_ received sent : Nat) : (countPort src at_ received sent p).freeCtr = p.freeCtr := by
  unfold countPort; split <;> rfl

@[simp] theorem rsOf_countPort (src at_ received sent : Nat) (b : RsPort) : rsOf (countPort src at_ received sent p) b = rsOf p b := by
  cases b <;> simp only [rsOf, countPort_sh]

@[simp] theorem hostCrosses_hp (received sent : Nat) : (hostCrosses received sent s).hp = s.hp := by unfold hostCrosses; split <;> rfl
@[simp] theorem hostCrosses_pending (received sent : Nat) : (hostCrosses received sent s).pending = s.pending := by
  unfold hostCrosses; split <;> rfl
@[simp] theorem hostCrosses_now (received sent : Nat) : (hostCrosses received sent s).pkg.now = s.pkg.now := by
  unfold hostCrosses; split
  · exact countPort_now _ _ _ _ _
  · rfl
@[simp] theorem hostCrosses_sh (received sent : Nat) : (hostCrosses received sent s).pkg.sh = s.pkg.sh := by
  unfold hostCrosses; split
  · exact countPort_sh _ _ _ _ _
  · rfl
@[simp] theorem hostAnswers_hostCrosses (received sent : Nat) : hostAnswers (hostCrosses received sent s) = hostAnswers s := by
  unfold hostCrosses; split
  · simp only [hostAnswers, awake, isFar, onPkg_pkg, countPort_sh, countPort_inReset, countPort_straps]
  · rfl

end Sys2Proof.Machine
end

