-- ==== Sys2Proof/Laws/Deliver.lean ====
section
/-!
SUPPORT. What the shared operations can do: the delivery of completions, the step of a meaning, a command at its target, and the
arrival of work at a tile.
-/

namespace Sys2Proof.Machine

/-- A fold keeps what each of its steps keeps. -/
theorem foldl_keeps {α β γ : Type} (g : β → γ) (f : β → α → β) (h : ∀ b a, g (f b a) = g b) (l : List α) (b : β) :
    g (l.foldl f b) = g b := by
  induction l generalizing b with
  | nil => rfl
  | cons a r ih => rw [List.foldl_cons, ih, h]

@[simp] theorem onTiles_outbox (f : Nat → Tile → Tile) (p : Pkg) : (onTiles f p).outbox = p.outbox := by
  unfold onTiles
  exact foldl_keeps (fun q : Pkg => q.outbox) _ (fun q t => onTile_outbox q t (f t)) _ p

@[simp] theorem onTiles_sh (f : Nat → Tile → Tile) (p : Pkg) : (onTiles f p).sh = p.sh := by
  unfold onTiles
  exact foldl_keeps (fun q : Pkg => q.sh) _ (fun q t => onTile_sh q t (f t)) _ p

@[simp] theorem countDiscarded_outbox (t : Nat) (p : Pkg) : (countDiscarded t p).outbox = p.outbox := rfl

@[simp] theorem countSvcDropped_outbox (p : Pkg) : (countSvcDropped p).outbox = p.outbox := rfl

/-- A late reply counts in one tile, or nowhere. -/
@[simp] theorem countLate_outbox (c : Completion) (p : Pkg) : (countLate c p).outbox = p.outbox := by
  unfold countLate
  split <;> simp

/-- The lines of the tether and of the service port leave the outbox alone. -/
@[simp] theorem countPort_outbox (src at_ received sent : Nat) (p : Pkg) : (countPort src at_ received sent p).outbox = p.outbox := by
  unfold countPort; split <;> rfl

@[simp] theorem departFrame_outbox (at_ : Nat) (f : SentFrame) (p : Pkg) : (departFrame at_ f p).outbox = p.outbox :=
  countPort_outbox _ _ _ _ _

@[simp] theorem runLine_outbox (fuel : Nat) (p : Pkg) : (runLine fuel p).outbox = p.outbox := by
  induction fuel generalizing p with
  | zero => rfl
  | succ n ih =>
    unfold runLine
    split
    · rfl
    · split
      · rfl
      · rw [ih, departFrame_outbox]

@[simp] theorem catchLine_outbox (p : Pkg) : (catchLine p).outbox = p.outbox := runLine_outbox _ _

@[simp] theorem lineFrame_outbox (f : SentFrame) (p : Pkg) : (lineFrame f p).outbox = p.outbox := by
  unfold lineFrame
  rw [catchLine_outbox]
  exact catchLine_outbox p

@[simp] theorem sendReply_outbox (cls : BitVec 2) (id : Nat) (rep : FabReply) (p : Pkg) : (sendReply cls id rep p).outbox = p.outbox := by
  unfold sendReply forAll
  exact foldl_keeps (fun q : Pkg => q.outbox) _ (fun q f => lineFrame_outbox f q) _ p

@[simp] theorem catchService_outbox (p : Pkg) : (catchService p).outbox = p.outbox := by
  unfold catchService
  dsimp only
  generalize (if p.sh.driven = true then Service.leave p.now p.sh.service.tx p.sh.service else p.sh.service) = s1
  split
  · rfl
  · rw [countPort_outbox]; rfl

@[simp] theorem postService_outbox (c : Completion) (tag : BitVec 16) (p : Pkg) : (postService c tag p).outbox = p.outbox := by
  unfold postService
  dsimp only
  rw [catchService_outbox]
  split <;> simp

@[simp] theorem freeFlights_outbox (t : Nat) (f : Work → Bool) (p : Pkg) : (freeFlights t f p).outbox = p.outbox := rfl

@[simp] theorem freeCommand_outbox (src : Source) (p : Pkg) : (freeCommand src p).outbox = p.outbox := by
  unfold freeCommand
  exact foldl_keeps (fun q : Pkg => q.outbox) _ (fun q t => by split <;> simp) _ p

@[simp] theorem noteMachine_outbox (t m : Nat) (st : Byte) (p : Pkg) : (noteMachine t m st p).outbox = p.outbox := by
  unfold noteMachine
  split <;> simp

@[simp] theorem replyFar_outbox (id : Nat) (final : Bool) (rep : FabReply) (p : Pkg) :
    (replyFar id final rep p).outbox = p.outbox := by
  unfold replyFar
  split <;> split <;> simp

/-- One completion leaves the rest of the outbox alone. -/
@[simp] theorem deliver_outbox (s : State) (c : Completion) : (deliver s c).pkg.outbox = s.pkg.outbox := by
  unfold deliver
  cases c.src <;> dsimp only <;> repeat' split
  all_goals simp

/-- One completion leaves the queue alone. -/
@[simp] theorem deliver_pending (s : State) (c : Completion) : (deliver s c).pending = s.pending := by
  unfold deliver
  cases c.src <;> dsimp only <;> repeat' split
  all_goals rfl

/-- All that a completion can do to the host port: nothing, or to join the completion ring. -/
theorem deliver_hp (s : State) (c : Completion) :
    (deliver s c).hp = s.hp ∨ ∃ tag, (deliver s c).hp = s.hp.complete c tag := by
  unfold deliver
  cases c.src <;> dsimp only <;> repeat' split
  all_goals first | exact .inl rfl | exact .inr ⟨_, rfl⟩

/-- Nothing is on its way once every completion has been delivered. -/
@[simp] theorem drain_outbox (s : State) : (drain s).pkg.outbox = [] := by
  unfold drain
  exact foldl_keeps (fun q : State => q.pkg.outbox) _ deliver_outbox _ _

@[simp] theorem drain_pending (s : State) : (drain s).pending = s.pending := by
  unfold drain
  exact foldl_keeps (fun q : State => q.pending) _ deliver_pending _ _

/-- With nothing to deliver, the machine is as the meaning left it. -/
theorem drain_nil (s : State) (h : s.pkg.outbox = []) : drain s = { s with pkg := { s.pkg with outbox := [] } } := by
  simp [drain, h]

/-- What each completion keeps of the host port, the delivery of all keeps. -/
theorem drain_hp (P : HostPort → Prop) (h : ∀ hp c tag, P hp → P (hp.complete c tag)) (s : State) (hs : P s.hp) :
    P (drain s).hp := by
  unfold drain
  generalize s.pkg.outbox = l
  have hs' : P ({ s with pkg := { s.pkg with outbox := [] } } : State).hp := hs
  generalize ({ s with pkg := { s.pkg with outbox := [] } } : State) = q at hs'
  induction l generalizing q with
  | nil => exact hs'
  | cons c r ih =>
    apply ih
    rcases deliver_hp q c with e | ⟨tag, e⟩ <;> rw [e]
    · exact hs'
    · exact h _ _ _ hs'

/-- The step of a meaning on the package is the next state that its completions leave. -/
theorem lift_next (f : Pkg → Pkg) (s : State) : lift f s = .next (drain { s with pkg := f (clearLine s.pkg) }) := rfl

/-- All that the step of an event on a tile can be. -/
theorem liftTile_cases (t : TileId) (f : Nat → Pkg → Pkg) (s : State) :
    (t.toNat < s.pkg.n ∧ liftTile t f s = lift (f t.toNat) s) ∨ (s.pkg.n ≤ t.toNat ∧ liftTile t f s = .fault (.absentTile t.toNat)) := by
  by_cases h : t.toNat < s.pkg.n
  · exact .inl ⟨h, if_pos h⟩
  · exact .inr ⟨by omega, if_neg h⟩

/-- All that a command can do at its target: nothing in reset or darkroom, the way to the other package, a refusal by its shared
checks, or its own effect. -/
theorem command_cases (i : Instr) (f : Nat → Pkg → Pkg) (p : Pkg) :
    command i f p = p ∨ ∃ c op pl, commandParts i = some (c, op, pl) ∧
      (command i f p = farCommand c op pl p
        ∨ (∃ t st, command i f p = finish c op st (errorTile p t st) (noteError t st p))
        ∨ (∃ named, localOf p c.tile.toNat = some named ∧ targetError p c op pl named = none
            ∧ command i f p = f (servingTile p op named) p)) := by
  unfold command
  cases h : commandParts i with
  | none => exact .inl rfl
  | some x =>
    obtain ⟨c, op, pl⟩ := x
    dsimp only
    split
    · exact .inl rfl
    · split
      · exact .inr ⟨c, op, pl, rfl, .inl rfl⟩
      · rename_i named hn
        split
        · exact .inr ⟨c, op, pl, rfl, .inr (.inl ⟨_, _, rfl⟩)⟩
        · rename_i ht
          exact .inr ⟨c, op, pl, rfl, .inr (.inr ⟨named, hn, ht, rfl⟩)⟩

/-- A command that passes its shared checks has its own effect. -/
theorem command_runs (i : Instr) (f : Nat → Pkg → Pkg) (p : Pkg) (c : Ctx) (op : Byte) (pl : List Byte) (named : Nat)
    (hi : commandParts i = some (c, op, pl)) (ha : awake p = true) (hl : localOf p c.tile.toNat = some named)
    (ht : targetError p c op pl named = none) : command i f p = f (servingTile p op named) p := by
  simp [command, hi, ha, hl, ht]

/-- All that the arrival of work can do (R37): it is served, with an entry or in class 0 without one (R39), joins the queue of its
class, or is refused and counted. -/
theorem arrive_cases (w : Work) (t cls limit : Nat) (p : Pkg) :
    ((arrive w t cls limit p).2 = .served ∧ ((freePart (p.tile t).fabric.flights cls).isSome ∨ cls = 0))
      ∨ ((arrive w t cls limit p).2 = .delayed ∧ (arrive w t cls limit p).1.tile t =
          { p.tile t with fabric := { (p.tile t).fabric with
              queue := (p.tile t).fabric.queue ++ [{ work := w, cls := cls, limit := limit, order := (p.tile t).fabric.nextOrder }]
              nextOrder := (p.tile t).fabric.nextOrder + 1 } })
      ∨ ((arrive w t cls limit p).2 = .refused ∧ (arrive w t cls limit p).1 = countRefused cls p) := by
  unfold arrive
  dsimp only
  split
  · rename_i h; exact .inl ⟨rfl, .inl (by simp [h])⟩
  · split
    · rename_i h; exact .inl ⟨rfl, .inr (by simpa using h)⟩
    · split
      · exact .inr (.inl ⟨rfl, by simp⟩)
      · exact .inr (.inr ⟨rfl, rfl⟩)

/-- A completion that is posted is in the ring, or waits behind those that are held (R94). -/
theorem post_cases (pkt : List Byte) (r : HpRings) :
    (r.held = [] ∧ r.compUsed + pkt.length ≤ 65536 ∧ r.post pkt = r.write pkt)
      ∨ (r.post pkt = { r with held := r.held ++ [pkt] }) := by
  unfold HpRings.post
  split
  · rename_i h
    simp only [HpRings.posts, Bool.and_eq_true, List.isEmpty_iff, HpRings.fits, decide_eq_true_eq] at h
    exact .inl ⟨h.1, h.2, rfl⟩
  · exact .inr rfl

end Sys2Proof.Machine
end

