-- ==== Sys2Proof/Laws/Runs.lean ====
section
/-!
SUPPORT. How the meaning of a row becomes the step: of a command that its target performs, of an event on a tile of the variant, of
an event on the whole package.
-/

namespace Sys2Proof.Machine

/-- A command that its target performs has its own effect there. -/
theorem performs_runs {i : Instr} {f : Nat → Pkg → Pkg} {s : State} {t : Nat} (h : performs i s.start t = true) :
    lift (command i f) s = .next (s.after (f t s.start)) := by
  unfold performs at h
  cases hi : commandParts i with
  | none => simp [hi] at h
  | some x =>
    obtain ⟨c, op, pl⟩ := x
    simp only [hi, Bool.and_eq_true] at h
    obtain ⟨ha, h⟩ := h
    cases hl : localOf s.start c.tile.toNat with
    | none => simp [hl] at h
    | some named =>
      simp only [hl, Bool.and_eq_true, beq_iff_eq] at h
      have e : command i f (clearLine s.pkg) = f (servingTile s.start op named) s.start :=
        command_runs i f s.start c op pl named hi ha hl h.1
      rw [lift_next, e, h.2]
      rfl

/-- An event on a tile of the variant has its effect there. -/
theorem tile_runs {tile : TileId} {f : Nat → Pkg → Pkg} {s : State} (h : tile.toNat < s.pkg.n) :
    liftTile tile f s = .next (s.after (f tile.toNat s.start)) := if_pos h

/-- An event on the package has its effect. -/
theorem package_runs (f : Pkg → Pkg) (s : State) : lift f s = .next (s.after (f s.start)) := rfl

/-- An event on the whole machine has its effect. -/
theorem machine_runs (f : State → State) (s : State) : liftAll f s = .next (drain (f s.begun)) := rfl

/-- What a step finds is the package before it, but for the lines of the tether and of the service port: their frames, and the bytes
of the bandwidth counters (R420, R449, R504). -/
def linesOnly (p q : Pkg) : Prop :=
  { q with tiles := [], sh := { q.sh with service := {}, tether := {} } } = { p with tiles := [], sh := { p.sh with service := {}, tether := {} } }
    ∧ ∀ t, { q.tile t with counters := { (q.tile t).counters with ctrs := [] } } = { p.tile t with counters := { (p.tile t).counters with ctrs := [] } }

theorem linesOnly_refl (p : Pkg) : linesOnly p p := ⟨rfl, fun _ => rfl⟩
theorem linesOnly.trans {a b c : Pkg} (h : linesOnly a b) (k : linesOnly b c) : linesOnly a c :=
  ⟨k.1.trans h.1, fun t => (k.2 t).trans (h.2 t)⟩

theorem linesOnly_countPort (src at_ received sent : Nat) (p : Pkg) : linesOnly p (countPort src at_ received sent p) := by
  unfold countPort
  split
  · exact linesOnly_refl _
  · refine ⟨rfl, fun t => ?_⟩
    by_cases e : t = p.lead
    · subst e; rw [onTile_tile]
    · rw [onTile_tile_ne _ _ e]

theorem countPort_boot (src at_ received sent u : Nat) (p : Pkg) : ((countPort src at_ received sent p).tile u).boot = (p.tile u).boot := by
  unfold countPort
  split
  · rfl
  · by_cases e : u = p.lead
    · subst e; rw [onTile_tile]
    · rw [onTile_tile_ne _ _ e]

@[simp] theorem online_countPort (src at_ received sent u : Nat) (p : Pkg) : online (countPort src at_ received sent p) u = online p u := by
  unfold online Pkg.n
  rw [countPort_boot]
  have : (countPort src at_ received sent p).ident = p.ident := by unfold countPort; split <;> rfl
  rw [this]

theorem linesOnly_departFrame (at_ : Nat) (f : SentFrame) (p : Pkg) : linesOnly p (departFrame at_ f p) := by
  unfold departFrame
  refine linesOnly.trans ?_ (linesOnly_countPort _ _ _ _ _)
  exact ⟨rfl, fun _ => rfl⟩

theorem linesOnly_runLine (fuel : Nat) (p : Pkg) : linesOnly p (runLine fuel p) := by
  induction fuel generalizing p with
  | zero => exact linesOnly_refl _
  | succ n ih =>
    unfold runLine
    split
    · exact linesOnly_refl _
    · split
      · exact linesOnly_refl _
      · exact (linesOnly_departFrame _ _ _).trans (ih _)

theorem linesOnly_catchService (p : Pkg) : linesOnly p (catchService p) := by
  unfold catchService
  dsimp only
  generalize (if p.sh.driven = true then Service.leave p.now p.sh.service.tx p.sh.service else p.sh.service) = s1
  split
  · exact ⟨rfl, fun _ => rfl⟩
  · refine linesOnly.trans ?_ (linesOnly_countPort _ _ _ _ _)
    exact ⟨rfl, fun _ => rfl⟩

theorem start_lines (s : State) : linesOnly s.pkg s.start := by
  unfold State.start clearLine catchLine
  refine linesOnly.trans ?_ (linesOnly_catchService _)
  refine linesOnly.trans ?_ (linesOnly_runLine _ _)
  exact ⟨rfl, fun _ => rfl⟩

/-- What a step finds has the variant, the time, the lead and the outbox of the state before it. -/
theorem start_ident (s : State) : s.start.ident = s.pkg.ident := by have h := congrArg Pkg.ident (start_lines s).1; exact h
theorem start_n (s : State) : s.start.n = s.pkg.n := congrArg (fun i : Ident => i.variant.tiles) (start_ident s)
theorem start_now (s : State) : s.start.now = s.pkg.now := by have h := congrArg Pkg.now (start_lines s).1; exact h
theorem start_inReset (s : State) : s.start.inReset = s.pkg.inReset := by have h := congrArg Pkg.inReset (start_lines s).1; exact h
theorem start_straps (s : State) : s.start.straps = s.pkg.straps := by have h := congrArg Pkg.straps (start_lines s).1; exact h
theorem start_outbox (s : State) : s.start.outbox = s.pkg.outbox := by have h := congrArg Pkg.outbox (start_lines s).1; exact h
theorem start_lead (s : State) : s.start.lead = s.pkg.lead := by
  have h := congrArg (fun p : Pkg => p.sh.lead) (start_lines s).1; exact h

end Sys2Proof.Machine
end

