-- ==== Sys2Proof/Laws/Frames.lean ====
section
/-!
SUPPORT. What the delivery of completions, a raise and a snooped write leave as it was.
-/

namespace Sys2Proof.Machine

/-- The relations of frames are reflexive and transitive. -/
theorem sameTile_refl (a : Tile) : sameTile a a := ⟨rfl, fun _ => rfl⟩
theorem sameTile.trans {a b c : Tile} (h : sameTile a b) (k : sameTile b c) : sameTile a c :=
  ⟨h.1.trans k.1, fun m => (h.2 m).trans (k.2 m)⟩
theorem samePkg_refl (p : Pkg) : samePkg p p := ⟨rfl, fun _ => sameTile_refl _⟩
theorem samePkg.trans {a b c : Pkg} (h : samePkg a b) (k : samePkg b c) : samePkg a c :=
  ⟨k.1.trans h.1, fun t => (h.2 t).trans (k.2 t)⟩

theorem samePkg_onTile (t : Nat) (f : Tile → Tile) (h : ∀ tl, sameTile tl (f tl)) (p : Pkg) : samePkg p (onTile t f p) := by
  refine ⟨rfl, fun u => ?_⟩
  by_cases e : u = t
  · subst e; rw [onTile_tile]; exact h _
  · rw [onTile_tile_ne _ _ e]; exact sameTile_refl _


theorem samePkg_countDiscarded (t : Nat) (p : Pkg) : samePkg p (countDiscarded t p) := by
  unfold countDiscarded
  refine samePkg_onTile t _ ?_ p
  exact fun _ => ⟨rfl, fun _ => rfl⟩

theorem samePkg_countLate (c : Completion) (p : Pkg) : samePkg p (countLate c p) := by
  unfold countLate
  split
  · exact samePkg_countDiscarded _ _
  · exact samePkg_refl _

theorem samePkg_countSvcDropped (p : Pkg) : samePkg p (countSvcDropped p) := by
  unfold countSvcDropped
  refine samePkg_onTile _ _ ?_ p
  exact fun _ => ⟨rfl, fun _ => rfl⟩

/-- What the service port has yet to send and end, taken out. -/
def Service.settled (x : Service) : Service := { x with tags := [], orphans := [], tx := [], lineFree := 0, line := [] }

theorem samePkg_onService (f : Service → Service) (p : Pkg) (h : ∀ x : Service, (f x).settled = x.settled) :
    samePkg p (onService f p) := by
  refine ⟨?_, fun _ => sameTile_refl _⟩
  have e := h p.sh.service
  unfold Service.settled at e
  unfold onService onShared Pkg.settled Shared.settled
  simp only [e]

theorem mapVals_mapVals {α : Type} (f g : Nat → α → α) (h : ∀ k a, f k (g k a) = f k a) (t : Tbl α) :
    (t.mapVals g).mapVals f = t.mapVals f := by
  unfold Tbl.mapVals
  rw [List.map_map]
  exact List.map_congr_left (fun a _ => by simp only [Function.comp, h])

/-- Bytes at a port change the windows under way and nothing else. -/
theorem samePkg_countPort (src at_ received sent : Nat) (p : Pkg) : samePkg p (countPort src at_ received sent p) := by
  unfold countPort
  split
  · exact samePkg_refl _
  · refine samePkg_onTile _ _ ?_ p
    intro tl
    refine ⟨?_, fun _ => rfl⟩
    unfold Tile.settled
    dsimp only
    rw [mapVals_mapVals]
    intro k c
    split <;> rfl

/-- A frame that leaves changes the line of the tether, the counter of its session and the windows under way. -/
theorem samePkg_departFrame (at_ : Nat) (f : SentFrame) (p : Pkg) : samePkg p (departFrame at_ f p) := by
  unfold departFrame
  refine samePkg.trans ?_ (samePkg_countPort _ _ _ _ _)
  exact ⟨rfl, fun _ => sameTile_refl _⟩

theorem samePkg_runLine (fuel : Nat) (p : Pkg) : samePkg p (runLine fuel p) := by
  induction fuel generalizing p with
  | zero => exact samePkg_refl _
  | succ n ih =>
    unfold runLine
    split
    · exact samePkg_refl _
    · split
      · exact samePkg_refl _
      · exact (samePkg_departFrame _ _ _).trans (ih _)

theorem samePkg_lineFrame (f : SentFrame) (p : Pkg) : samePkg p (lineFrame f p) := by
  unfold lineFrame catchLine
  dsimp only
  refine samePkg.trans ?_ (samePkg_runLine _ _)
  refine (samePkg_runLine p.sh.tether.queue.length p).trans ?_
  exact ⟨rfl, fun _ => sameTile_refl _⟩

theorem settled_leave (now : Nat) (l : List (Bool × List Byte)) (s : Service) : (Service.leave now l s).settled = s.settled := by
  induction l generalizing s with
  | nil => simp only [Service.leave, Service.settled]
  | cons x xs ih =>
    unfold Service.leave
    split
    · rw [ih]; simp only [Service.settled]
    · simp only [Service.settled]

theorem samePkg_catchService (p : Pkg) : samePkg p (catchService p) := by
  unfold catchService
  dsimp only
  have h : ∀ s1 : Service, s1.settled = p.sh.service.settled → samePkg p (onService (fun _ => s1) p) := by
    intro s1 e
    refine ⟨?_, fun _ => sameTile_refl _⟩
    unfold Service.settled at e
    unfold onService onShared Pkg.settled Shared.settled
    simp only [e]
  have k := h (if p.sh.driven = true then Service.leave p.now p.sh.service.tx p.sh.service else p.sh.service)
    (by split <;> first | exact settled_leave _ _ _ | rfl)
  generalize (if p.sh.driven = true then Service.leave p.now p.sh.service.tx p.sh.service else p.sh.service) = s1 at k ⊢
  split
  · exact k
  · exact k.trans (samePkg_countPort _ _ _ _ _)

/-- What a step finds differs from the state before it in what the lines have done since. -/
theorem samePkg_start (s : State) : samePkg s.pkg s.start := by
  unfold State.start clearLine
  refine samePkg.trans ?_ (samePkg_catchService _)
  refine samePkg.trans ?_ (samePkg_runLine _ _)
  exact ⟨rfl, fun _ => sameTile_refl _⟩

theorem samePkg_postService (c : Completion) (tag : BitVec 16) (p : Pkg) : samePkg p (postService c tag p) := by
  unfold postService
  dsimp only
  refine (samePkg_catchService p).trans (samePkg.trans ?_ (samePkg_catchService _))
  have h := samePkg_onService (fun s =>
    let ends := c.final && !c.untagged
    let s1 := { s with tags := if ends then s.tags.filter (fun o => o.tag != tag) else s.tags
                       orphans := if ends then s.orphans.filter (· != tag) else s.orphans }
    if !s.attached || (catchService p).sh.service.full c || (s.orphans.contains tag && !c.untagged) then s1
    else { s1 with tx := s1.tx ++ [(c.untagged, [0xA5, 0x5A] ++ replyPacket c tag)]
                   lineFree := Nat.max s1.lineFree (catchService p).now }) (catchService p) (by intro x; dsimp only; split <;> rfl)
  split
  · exact h.trans (samePkg_countSvcDropped _)
  · exact h

theorem sameTile_admitOne (tl : Tile) : sameTile tl (admitOne tl) := by
  unfold admitOne
  split
  · exact sameTile_refl _
  · exact ⟨rfl, fun _ => rfl⟩

theorem sameTile_admits (l : List Nat) (tl : Tile) : sameTile tl (l.foldl (fun a _ => admitOne a) tl) := by
  induction l generalizing tl with
  | nil => exact sameTile_refl _
  | cons a r ih => exact (sameTile_admitOne tl).trans (ih _)

theorem samePkg_freeFlights (t : Nat) (f : Work → Bool) (p : Pkg) : samePkg p (freeFlights t f p) := by
  unfold freeFlights
  exact samePkg_onTile t _ (fun tl => sameTile.trans (b := { tl with fabric := { tl.fabric with flights := tl.fabric.flights.filter (fun x => !f x.work) } })
    ⟨rfl, fun _ => rfl⟩ (sameTile_admits _ _)) p

theorem samePkg_foldl {α : Type} (f : Pkg → α → Pkg) (h : ∀ p a, samePkg p (f p a)) (l : List α) (p : Pkg) :
    samePkg p (l.foldl f p) := by
  induction l generalizing p with
  | nil => exact samePkg_refl _
  | cons a r ih => exact (h p a).trans (ih _)

theorem samePkg_freeCommand (src : Source) (p : Pkg) : samePkg p (freeCommand src p) := by
  unfold freeCommand
  refine samePkg_foldl _ (fun q t => ?_) _ p
  split
  · exact samePkg_freeFlights _ _ _
  · exact samePkg_refl _

theorem samePkg_onTiles (f : Nat → Tile → Tile) (h : ∀ t tl, sameTile tl (f t tl)) (p : Pkg) : samePkg p (onTiles f p) := by
  unfold onTiles
  exact samePkg_foldl _ (fun q t => samePkg_onTile t _ (h t) q) _ p

theorem sameTile_onMachine (m : Nat) (tl : Tile) : sameTile tl (tl.onMachine m (fun x => { x with refused := true })) := by
  refine ⟨rfl, fun k => ?_⟩
  by_cases e : k = m
  · subst e
    simp only [Tile.onMachine, Tile.machine, Tbl.modify, Tbl.getD_set]
  · simp only [Tile.onMachine, Tile.machine, Tbl.modify, Tbl.getD_set_ne _ _ _ e]

theorem samePkg_noteMachine (t m : Nat) (st : Byte) (p : Pkg) : samePkg p (noteMachine t m st p) := by
  unfold noteMachine
  split
  · exact samePkg_refl _
  · exact samePkg_onTile t _ (sameTile_onMachine m) p

theorem samePkg_replyFar (id : Nat) (final : Bool) (rep : FabReply) (p : Pkg) : samePkg p (replyFar id final rep p) := by
  have h : ∀ (cls : BitVec 2), samePkg p (if linkOpen p.sh.tether && p.sh.tether.serving.contains id then sendReply cls id rep p else p) := by
    intro cls; split
    · exact samePkg_foldl _ (fun q f => samePkg_lineFrame f q) _ p
    · exact samePkg_refl _
  unfold replyFar
  dsimp only
  split
  · refine (h _).trans (samePkg.trans (samePkg_onTiles _ ?_ _) ⟨rfl, fun _ => sameTile_refl _⟩)
    exact fun _ _ => ⟨rfl, fun _ => rfl⟩
  · exact h _

theorem onlyCompletes_refl (s : State) : onlyCompletes s s := ⟨rfl, samePkg_refl _, rfl⟩
theorem onlyCompletes.trans {a b c : State} (h : onlyCompletes a b) (k : onlyCompletes b c) : onlyCompletes a c :=
  ⟨k.1.trans h.1, h.2.1.trans k.2.1, k.2.2.trans h.2.2⟩
theorem onlyCompletes_pkg (s : State) (p : Pkg) (h : samePkg s.pkg p) : onlyCompletes s { s with pkg := p } := ⟨rfl, h, rfl⟩

theorem settled_post (pkt : List Byte) (h : HostPort) (tags : List OutTag) :
    ({ h with rings := h.rings.post pkt, tags := tags } : HostPort).settled = h.settled := by
  unfold HpRings.post
  split <;> rfl

theorem onlyCompletes_deliver (s : State) (c : Completion) : onlyCompletes s (deliver s c) := by
  unfold deliver
  have k : ∀ s1 : State, onlyCompletes s s1 →
      onlyCompletes s (if c.final && !c.untagged then { s1 with pkg := freeCommand c.src s1.pkg } else s1) := by
    intro s1 h; split
    · exact h.trans (onlyCompletes_pkg _ _ (samePkg_freeCommand _ _))
    · exact h
  dsimp only
  apply k
  cases c.src with
  | host tag era =>
    dsimp only
    split
    · exact onlyCompletes_pkg _ _ (samePkg_countLate _ _)
    · split
      · exact ⟨settled_post _ _ _, samePkg_refl _, rfl⟩
      · exact onlyCompletes_refl _
  | service tag era =>
    dsimp only
    split
    · exact onlyCompletes_pkg _ _ (samePkg_countLate _ _)
    · split
      · exact onlyCompletes_refl _
      · exact onlyCompletes_pkg _ _ (samePkg_postService _ _ _)
  | machine t m => exact onlyCompletes_pkg _ _ (samePkg_noteMachine _ _ _ _)
  | far id => exact onlyCompletes_pkg _ _ (samePkg_replyFar _ _ _ _)

/-- The delivery of completions touches nothing else. -/
theorem onlyCompletes_drain (s : State) : onlyCompletes s (drain s) := by
  unfold drain
  generalize s.pkg.outbox = l
  have h : onlyCompletes s { s with pkg := { s.pkg with outbox := [] } } := ⟨rfl, ⟨rfl, fun _ => sameTile_refl _⟩, rfl⟩
  refine h.trans ?_
  generalize ({ s with pkg := { s.pkg with outbox := [] } } : State) = q
  induction l generalizing q with
  | nil => exact onlyCompletes_refl _
  | cons c r ih => exact (onlyCompletes_deliver q c).trans (ih _)


/-- A tile but for what a raise or a snooped write touches: its rings and events, the requests it issues, and what its machines have
seen of events. -/
def Tile.quiet (tl : Tile) : Tile :=
  { tl with fabric := { tl.fabric with out := [], nextId := 0 }, machines := [], rings := {}, events := {} }

def quietTile (a b : Tile) : Prop :=
  a.quiet = b.quiet ∧ ∀ m, { a.machine m with since := 0 } = { b.machine m with since := 0 }

/-- All that a raise or a snooped write on tile `t` can do. -/
def notes (t : Nat) (p q : Pkg) : Prop :=
  { q with tiles := [] } = { p with tiles := [] } ∧ (∀ u, u ≠ t → q.tile u = p.tile u) ∧ quietTile (p.tile t) (q.tile t)

theorem quietTile_refl (a : Tile) : quietTile a a := ⟨rfl, fun _ => rfl⟩
theorem quietTile.trans {a b c : Tile} (h : quietTile a b) (k : quietTile b c) : quietTile a c :=
  ⟨h.1.trans k.1, fun m => (h.2 m).trans (k.2 m)⟩
theorem notes_refl (t : Nat) (p : Pkg) : notes t p p := ⟨rfl, fun _ _ => rfl, quietTile_refl _⟩
theorem notes.trans {t : Nat} {a b c : Pkg} (h : notes t a b) (k : notes t b c) : notes t a c :=
  ⟨k.1.trans h.1, fun u e => (k.2.1 u e).trans (h.2.1 u e), h.2.2.trans k.2.2⟩
theorem notes_onTile (t : Nat) (f : Tile → Tile) (p : Pkg) (h : quietTile (p.tile t) (f (p.tile t))) : notes t p (onTile t f p) := by
  refine ⟨rfl, fun u e => onTile_tile_ne _ _ e, ?_⟩
  rw [onTile_tile]; exact h

theorem notes_writeEntry (t i : Nat) (b : BitVec 64) (us : Nat) (p : Pkg) : notes t p (writeEntry t i b us p).1.1 := by
  unfold writeEntry
  split
  · exact notes_refl _ _
  · refine notes_onTile t _ p ⟨?_, fun _ => rfl⟩
    simp only [Tile.quiet]

theorem notes_onRing (t i : Nat) (f : Ring → Ring) (p : Pkg) : notes t p (onRing t i f p) := by
  unfold onRing
  split
  · exact notes_refl _ _
  · exact notes_onTile t _ p ⟨rfl, fun _ => rfl⟩

theorem notes_putEntry (t i us : Nat) (value : Word) (kind : Nat) (p : Pkg) : notes t p (putEntry t i us value kind p).1.1 := by
  unfold putEntry
  split
  · exact notes_refl _ _
  · rename_i r _
    have h1 : notes t p (if (r.anchor || us - r.lastUs > 0xFFFFFF) = true then writeEntry t i (anchorBits us 0) us p
        else ((p, true), [])).1.1 := by
      split
      · exact notes_writeEntry _ _ _ _ _
      · exact notes_refl _ _
    dsimp only
    generalize (if (r.anchor || us - r.lastUs > 0xFFFFFF) = true then writeEntry t i (anchorBits us 0) us p
        else ((p, true), [])) = w at h1 ⊢
    generalize (if (r.anchor || us - r.lastUs > 0xFFFFFF) = true then 0 else us - r.lastUs) = d
    have h2 := h1.trans (notes_writeEntry t i (entryBits value d kind) us w.1.1)
    split
    · exact h2.trans (notes_onRing _ _ _ _)
    · exact h2

theorem notes_issue (t dest cls : Nat) (w : Purpose) (op : FabricOp) (limit : Nat) (p : Pkg) :
    notes t p (issue t dest cls w op limit p) := by
  unfold issue
  refine notes_onTile t _ p ?_
  exact ⟨rfl, fun _ => rfl⟩

theorem notes_recordPoint (t i : Nat) (x : Rec) (at_ : Nat) (p : Pkg) : notes t p (recordPoint t i x at_ p).1 := by
  unfold recordPoint
  dsimp only
  split
  · exact (notes_putEntry _ _ _ _ _ _).trans (notes_onRing _ _ _ _)
  · exact notes_putEntry _ _ _ _ _ _

theorem notes_fireEventRing (t i : Nat) (p : Pkg) : notes t p (fireEventRing t i p).1 := by
  unfold fireEventRing
  split
  · exact notes_refl _ _
  · split
    · exact notes_recordPoint _ _ _ _ _
    · refine notes.trans ?_ (notes_issue _ _ _ _ _ _ _)
      refine notes_onTile t _ p ?_
      exact ⟨rfl, fun _ => rfl⟩

theorem notes_snoopRing (conv : Word → Int) (t i : Nat) (k : Key) (p : Pkg) : notes t p (snoopRing conv t i k p).1 := by
  unfold snoopRing
  split
  · exact notes_refl _ _
  · dsimp only
    repeat' split
    all_goals first
      | exact notes_recordPoint _ _ _ _ _
      | exact notes_refl _ _

theorem Tbl.find?_mapVals {α : Type} (f : Nat → α → α) (k : Nat) : ∀ t : Tbl α, (t.mapVals f).find? k = (t.find? k).map (f k) := by
  intro t
  induction t with
  | nil => rfl
  | cons c r ih =>
    obtain ⟨j, v⟩ := c
    simp only [Tbl.mapVals, List.map_cons, Tbl.find?]
    split
    · subst_vars; rfl
    · exact ih

theorem quietTile_markEvent (now ev : Nat) (tl : Tile) : quietTile tl (markEvent now ev tl) := by
  refine ⟨rfl, fun m => ?_⟩
  unfold markEvent Tile.machine Tbl.getD
  dsimp only
  rw [Tbl.find?_mapVals]
  cases tl.machines.find? m <;> rfl

theorem notes_foldl {α : Type} (t : Nat) (f : Pkg → α → Pkg) (h : ∀ p a, notes t p (f p a)) (l : List α) (p : Pkg) :
    notes t p (l.foldl f p) := by
  induction l generalizing p with
  | nil => exact notes_refl _ _
  | cons a r ih => exact (h p a).trans (ih _)

theorem notes_foldl₂ {α β : Type} (t : Nat) (f : Pkg × β → α → Pkg × β) (h : ∀ p a, notes t p.1 (f p a).1) (l : List α) (p : Pkg × β) :
    notes t p.1 (l.foldl f p).1 := by
  induction l generalizing p with
  | nil => exact notes_refl _ _
  | cons a r ih => exact (h p a).trans (ih _)

theorem notes_raiseAux (fuel t ev detail : Nat) (p : Pkg) : notes t p (raiseAux fuel t ev detail p) := by
  induction fuel generalizing ev detail p with
  | zero => exact notes_refl _ _
  | succ n ih =>
    unfold raiseAux
    dsimp only
    refine notes.trans ?_ (notes_foldl t _ (fun q i => ih _ _ q) _ _)
    refine notes.trans ?_ (notes_foldl₂ t _ ?_ _ _)
    rotate_left
    · exact fun q i => notes_fireEventRing _ _ _
    refine notes.trans ?_ (notes_foldl₂ t _ ?_ _ _)
    rotate_left
    · exact fun q i => notes_snoopRing _ _ _ _ _
    have h1 : notes t p (onTile t (markEvent p.now ev) p) := notes_onTile t _ p (quietTile_markEvent _ _ _)
    split
    · dsimp only
      split
      · exact (h1.trans (notes_putEntry _ _ _ _ _ _)).trans (notes_onTile t _ _ ⟨rfl, fun _ => rfl⟩)
      · exact h1.trans (notes_putEntry _ _ _ _ _ _)
    · exact h1

/-- A raise touches the rings and events of its tile only. -/
theorem notes_raiseWith (t ev detail : Nat) (p : Pkg) : notes t p (raiseWith t ev detail p) := notes_raiseAux _ _ _ _ _
theorem notes_raise (t ev : Nat) (p : Pkg) : notes t p (raise t ev p) := notes_raiseAux _ _ _ _ _

/-- A snooped write touches the rings and events of its tile only. -/
theorem notes_snoop (t : Nat) (k : Key) (p : Pkg) : notes t p (snoop t k p) := by
  unfold snoop snoopWith
  refine notes_foldl t _ (fun q i => ?_) _ p
  exact (notes_snoopRing _ _ _ _ _).trans (notes_foldl t _ (fun q i => notes_raiseWith _ _ _ _) _ _)

end Sys2Proof.Machine
end

