-- ==== Sys2Proof/Laws/PerInstr.lean ====
section
/-!
SUPPORT. What every row is as syntax: one that carries a command carries an opcode of the tables (R116 to R129), and one that does
not is an event or a transaction.
-/

namespace Sys2Proof.Laws.Carried

/-- A row that carries a command carries an opcode of the tables. -/
def Statement (i : Instr) : Prop :=
  ∀ c op pl, commandParts i = some (c, op, pl) → knownOp op = true

theorem nop (c : Ctx) : Statement (.nop c) := by intro c op pl h; injection h with h; injection h with _ h; injection h with h _; subst h; rfl
theorem identify (c : Ctx) : Statement (.identify c) := by intro c op pl h; injection h with h; injection h with _ h; injection h with h _; subst h; rfl
theorem tileState (c : Ctx) (action : Byte) (ei : Byte) (rsv : BitVec 16) : Statement (.tileState c action ei rsv) := by intro c op pl h; injection h with h; injection h with _ h; injection h with h _; subst h; rfl
theorem leadHandover (c : Ctx) : Statement (.leadHandover c) := by intro c op pl h; injection h with h; injection h with _ h; injection h with h _; subst h; rfl
theorem health (c : Ctx) : Statement (.health c) := by intro c op pl h; injection h with h; injection h with _ h; injection h with h _; subst h; rfl
theorem timeSet (c : Ctx) (secs : Word) : Statement (.timeSet c secs) := by intro c op pl h; injection h with h; injection h with _ h; injection h with h _; subst h; rfl
theorem governor (c : Ctx) (ceil : BitVec 16) (floor : BitVec 16) (slack : BitVec 16) (flags : Byte) (rsv : Byte) : Statement (.governor c ceil floor slack flags rsv) := by intro c op pl h; injection h with h; injection h with _ h; injection h with h _; subst h; rfl
theorem safelightLoad (c : Ctx) (first : Byte) (count : Byte) (rsv : BitVec 16) (entries : List (BitVec 128)) : Statement (.safelightLoad c first count rsv entries) := by intro c op pl h; injection h with h; injection h with _ h; injection h with h _; subst h; rfl
theorem permitConfig (c : Ctx) (permit : Byte) (enable : Byte) (pred : BitVec 16) : Statement (.permitConfig c permit enable pred) := by intro c op pl h; injection h with h; injection h with _ h; injection h with h _; subst h; rfl
theorem pointRead (c : Ctx) (h : Handle) : Statement (.pointRead c h) := by intro c op pl h; injection h with h; injection h with _ h; injection h with h _; subst h; rfl
theorem pointWrite (c : Ctx) (h : Handle) (v : Word) (ei : Byte) (rsv : BitVec 24) : Statement (.pointWrite c h v ei rsv) := by intro c op pl h; injection h with h; injection h with _ h; injection h with h _; subst h; rfl
theorem pointReadMulti (c : Ctx) (hs : List Handle) : Statement (.pointReadMulti c hs) := by intro c op pl h; injection h with h; injection h with _ h; injection h with h _; subst h; rfl
theorem pointWriteMulti (c : Ctx) (ei : Byte) (rsv : BitVec 24) (pairs : List (Handle × Word)) : Statement (.pointWriteMulti c ei rsv pairs) := by intro c op pl h; injection h with h; injection h with _ h; injection h with h _; subst h; rfl
theorem pointOverride (c : Ctx) (h : Handle) (v : Word) (ei : Byte) (rsv : BitVec 24) : Statement (.pointOverride c h v ei rsv) := by intro c op pl h; injection h with h; injection h with _ h; injection h with h _; subst h; rfl
theorem pointRelease (c : Ctx) (h : Handle) (ei : Byte) (rsv : BitVec 24) : Statement (.pointRelease c h ei rsv) := by intro c op pl h; injection h with h; injection h with _ h; injection h with h _; subst h; rfl
theorem channelConfig (c : Ctx) (ch : Byte) (ei : Byte) (rsv : BitVec 16) (rec : BitVec 256) : Statement (.channelConfig c ch ei rsv rec) := by intro c op pl h; injection h with h; injection h with _ h; injection h with h _; subst h; rfl
theorem channelStatus (c : Ctx) (ch : Byte) (rsv : BitVec 24) : Statement (.channelStatus c ch rsv) := by intro c op pl h; injection h with h; injection h with _ h; injection h with h _; subst h; rfl
theorem channelClear (c : Ctx) (ch : Byte) (ei : Byte) (mask : BitVec 16) : Statement (.channelClear c ch ei mask) := by intro c op pl h; injection h with h; injection h with _ h; injection h with h _; subst h; rfl
theorem seqConfig (c : Ctx) (adc : Byte) (seq : Byte) (count : Byte) (rsv : Byte) (entries : List (BitVec 64)) : Statement (.seqConfig c adc seq count rsv entries) := by intro c op pl h; injection h with h; injection h with _ h; injection h with h _; subst h; rfl
theorem seqStart (c : Ctx) (adc : Byte) (seq : Byte) (mode : Byte) (trig : Byte) : Statement (.seqStart c adc seq mode trig) := by intro c op pl h; injection h with h; injection h with _ h; injection h with h _; subst h; rfl
theorem seqStatus (c : Ctx) (adc : Byte) (rsv : BitVec 24) : Statement (.seqStatus c adc rsv) := by intro c op pl h; injection h with h; injection h with _ h; injection h with h _; subst h; rfl
theorem refSelect (c : Ctx) (adc : Byte) (ref : Byte) (rsv : BitVec 16) : Statement (.refSelect c adc ref rsv) := by intro c op pl h; injection h with h; injection h with _ h; injection h with h _; subst h; rfl
theorem loopWrite (c : Ctx) (slot : BitVec 16) (ei : Byte) (rsv : Byte) (desc : BitVec 512) : Statement (.loopWrite c slot ei rsv desc) := by intro c op pl h; injection h with h; injection h with _ h; injection h with h _; subst h; rfl
theorem loopRead (c : Ctx) (slot : BitVec 16) (rsv : BitVec 16) : Statement (.loopRead c slot rsv) := by intro c op pl h; injection h with h; injection h with _ h; injection h with h _; subst h; rfl
theorem loopMode (c : Ctx) (slot : BitVec 16) (mode : Byte) (ei : Byte) (man : Word) : Statement (.loopMode c slot mode ei man) := by intro c op pl h; injection h with h; injection h with _ h; injection h with h _; subst h; rfl
theorem loopClearFlags (c : Ctx) (slot : BitVec 16) (mask : Byte) (ei : Byte) : Statement (.loopClearFlags c slot mask ei) := by intro c op pl h; injection h with h; injection h with _ h; injection h with h _; subst h; rfl
theorem rateGroupConfig (c : Ctx) (group : Byte) (enable : Byte) (rsv : BitVec 16) (n : Word) : Statement (.rateGroupConfig c group enable rsv n) := by intro c op pl h; injection h with h; injection h with _ h; injection h with h _; subst h; rfl
theorem tableLoad (c : Ctx) (kind : Byte) (rsv : Byte) (idx : BitVec 16) (off : Word) (chunk : List Byte) : Statement (.tableLoad c kind rsv idx off chunk) := by intro c op pl h; injection h with h; injection h with _ h; injection h with h _; subst h; rfl
theorem tableCommit (c : Ctx) (kind : Byte) (rsv : Byte) (idx : BitVec 16) (len : Word) (crc : Word) : Statement (.tableCommit c kind rsv idx len crc) := by intro c op pl h; injection h with h; injection h with _ h; injection h with h _; subst h; rfl
theorem tableRead (c : Ctx) (kind : Byte) (copy : Byte) (idx : BitVec 16) (off : Word) (len : Word) : Statement (.tableRead c kind copy idx off len) := by intro c op pl h; injection h with h; injection h with _ h; injection h with h _; subst h; rfl
theorem machineControl (c : Ctx) (m : BitVec 16) (action : Byte) (ei : Byte) : Statement (.machineControl c m action ei) := by intro c op pl h; injection h with h; injection h with _ h; injection h with h _; subst h; rfl
theorem modelLoad (c : Ctx) (part : Byte) (rsv : Byte) (first : BitVec 16) (count : BitVec 16) (rsv2 : BitVec 16) (recs : List Byte) : Statement (.modelLoad c part rsv first count rsv2 recs) := by intro c op pl h; injection h with h; injection h with _ h; injection h with h _; subst h; rfl
theorem modelRead (c : Ctx) (part : Byte) (rsv : Byte) (first : BitVec 16) (count : BitVec 16) (rsv2 : BitVec 16) : Statement (.modelRead c part rsv first count rsv2) := by intro c op pl h; injection h with h; injection h with _ h; injection h with h _; subst h; rfl
theorem identControl (c : Ctx) (node : BitVec 16) (action : Byte) (rsv : Byte) (lambda : Word) : Statement (.identControl c node action rsv lambda) := by intro c op pl h; injection h with h; injection h with _ h; injection h with h _; subst h; rfl
theorem planConfig (c : Ctx) (rec : BitVec 256) : Statement (.planConfig c rec) := by intro c op pl h; injection h with h; injection h with _ h; injection h with h _; subst h; rfl
theorem planStatus (c : Ctx) (zone : BitVec 16) (rsv : BitVec 16) : Statement (.planStatus c zone rsv) := by intro c op pl h; injection h with h; injection h with _ h; injection h with h _; subst h; rfl
theorem planFix (c : Ctx) (plan : Word) : Statement (.planFix c plan) := by intro c op pl h; injection h with h; injection h with _ h; injection h with h _; subst h; rfl
theorem planVeto (c : Ctx) (plan : Word) : Statement (.planVeto c plan) := by intro c op pl h; injection h with h; injection h with _ h; injection h with h _; subst h; rfl
theorem capacityConfig (c : Ctx) (zone : BitVec 16) (prio : Byte) (weight : Byte) : Statement (.capacityConfig c zone prio weight) := by intro c op pl h; injection h with h; injection h with _ h; injection h with h _; subst h; rfl
theorem profileLoad (c : Ctx) (program : Byte) (count : Byte) (rsv : BitVec 16) (instrs : List Word) : Statement (.profileLoad c program count rsv instrs) := by intro c op pl h; injection h with h; injection h with _ h; injection h with h _; subst h; rfl
theorem profileFire (c : Ctx) (engine : Byte) (program : Byte) (ei : Byte) (rsv : Byte) (param : Word) : Statement (.profileFire c engine program ei rsv param) := by intro c op pl h; injection h with h; injection h with _ h; injection h with h _; subst h; rfl
theorem profileCancel (c : Ctx) (engine : Byte) (ei : Byte) (rsv : BitVec 16) : Statement (.profileCancel c engine ei rsv) := by intro c op pl h; injection h with h; injection h with _ h; injection h with h _; subst h; rfl
theorem profileStatus (c : Ctx) (engine : Byte) (rsv : BitVec 24) : Statement (.profileStatus c engine rsv) := by intro c op pl h; injection h with h; injection h with _ h; injection h with h _; subst h; rfl
theorem angleConfig (c : Ctx) (tracker : Byte) (ei : Byte) (rsv : BitVec 16) (rec : BitVec 128) : Statement (.angleConfig c tracker ei rsv rec) := by intro c op pl h; injection h with h; injection h with _ h; injection h with h _; subst h; rfl
theorem angleSchedule (c : Ctx) (tracker : Byte) (count : Byte) (rsv : BitVec 16) (entries : List Word) : Statement (.angleSchedule c tracker count rsv entries) := by intro c op pl h; injection h with h; injection h with _ h; injection h with h _; subst h; rfl
theorem stepperConfig (c : Ctx) (unit : Byte) (ei : Byte) (rsv : BitVec 16) (rec : BitVec 256) : Statement (.stepperConfig c unit ei rsv rec) := by intro c op pl h; injection h with h; injection h with _ h; injection h with h _; subst h; rfl
theorem stepperMove (c : Ctx) (unit : Byte) (ei : Byte) (rsv : BitVec 16) (target : Word) : Statement (.stepperMove c unit ei rsv target) := by intro c op pl h; injection h with h; injection h with _ h; injection h with h _; subst h; rfl
theorem stepperStop (c : Ctx) (unit : Byte) (ei : Byte) (rsv : BitVec 16) : Statement (.stepperStop c unit ei rsv) := by intro c op pl h; injection h with h; injection h with _ h; injection h with h _; subst h; rfl
theorem stepperHome (c : Ctx) (unit : Byte) (ei : Byte) (dir : Byte) (rsv : Byte) : Statement (.stepperHome c unit ei dir rsv) := by intro c op pl h; injection h with h; injection h with _ h; injection h with h _; subst h; rfl
theorem fanConfig (c : Ctx) (unit : Byte) (ei : Byte) (rsv : BitVec 16) (rec : BitVec 256) : Statement (.fanConfig c unit ei rsv rec) := by intro c op pl h; injection h with h; injection h with _ h; injection h with h _; subst h; rfl
theorem fanStatus (c : Ctx) (unit : Byte) (rsv : BitVec 24) : Statement (.fanStatus c unit rsv) := by intro c op pl h; injection h with h; injection h with _ h; injection h with h _; subst h; rfl
theorem fanBaseline (c : Ctx) (unit : Byte) (ei : Byte) (rsv : BitVec 16) : Statement (.fanBaseline c unit ei rsv) := by intro c op pl h; injection h with h; injection h with _ h; injection h with h _; subst h; rfl
theorem ringConfig (c : Ctx) (id : Word) (desc : BitVec 128) : Statement (.ringConfig c id desc) := by intro c op pl h; injection h with h; injection h with _ h; injection h with h _; subst h; rfl
theorem ringRead (c : Ctx) (id : Word) (cursor : Word) (limit : Word) : Statement (.ringRead c id cursor limit) := by intro c op pl h; injection h with h; injection h with _ h; injection h with h _; subst h; rfl
theorem ringReset (c : Ctx) (id : Word) : Statement (.ringReset c id) := by intro c op pl h; injection h with h; injection h with _ h; injection h with h _; subst h; rfl
theorem eventMask (c : Ctx) (word : Byte) (rsv : BitVec 24) (mask : Word) : Statement (.eventMask c word rsv mask) := by intro c op pl h; injection h with h; injection h with _ h; injection h with h _; subst h; rfl
theorem eventRead (c : Ctx) : Statement (.eventRead c) := by intro c op pl h; injection h with h; injection h with _ h; injection h with h _; subst h; rfl
theorem busConfig (c : Ctx) (port : Byte) (rsv : BitVec 24) (rec : BitVec 224) : Statement (.busConfig c port rsv rec) := by intro c op pl h; injection h with h; injection h with _ h; injection h with h _; subst h; rfl
theorem busSend (c : Ctx) (port : Byte) (rsv : Byte) (len : BitVec 16) (frame : List Byte) : Statement (.busSend c port rsv len frame) := by intro c op pl h; injection h with h; injection h with _ h; injection h with h _; subst h; rfl
theorem busMapLoad (c : Ctx) (port : Byte) (list : Byte) (first : BitVec 16) (entries : List Byte) : Statement (.busMapLoad c port list first entries) := by intro c op pl h; injection h with h; injection h with _ h; injection h with h _; subst h; rfl
theorem busStatus (c : Ctx) (port : Byte) (rsv : BitVec 24) : Statement (.busStatus c port rsv) := by intro c op pl h; injection h with h; injection h with _ h; injection h with h _; subst h; rfl
theorem tetherConfig (c : Ctx) (rec : BitVec 128) : Statement (.tetherConfig c rec) := by intro c op pl h; injection h with h; injection h with _ h; injection h with h _; subst h; rfl
theorem tetherPair (c : Ctx) (action : Byte) (rsv : BitVec 24) : Statement (.tetherPair c action rsv) := by intro c op pl h; injection h with h; injection h with _ h; injection h with h _; subst h; rfl
theorem tetherStatus (c : Ctx) : Statement (.tetherStatus c) := by intro c op pl h; injection h with h; injection h with _ h; injection h with h _; subst h; rfl
theorem panelUpdate (c : Ctx) (wave : Byte) (rsv : BitVec 24) (states : BitVec 64) : Statement (.panelUpdate c wave rsv states) := by intro c op pl h; injection h with h; injection h with _ h; injection h with h _; subst h; rfl
theorem panelConfig (c : Ctx) (rec : BitVec 128) : Statement (.panelConfig c rec) := by intro c op pl h; injection h with h; injection h with _ h; injection h with h _; subst h; rfl
theorem keyConfig (c : Ctx) (rec : BitVec 64) : Statement (.keyConfig c rec) := by intro c op pl h; injection h with h; injection h with _ h; injection h with h _; subst h; rfl
theorem counterConfig (c : Ctx) (n : Byte) (mode : Byte) (src : Byte) (sel : Byte) (window : Word) : Statement (.counterConfig c n mode src sel window) := by intro c op pl h; injection h with h; injection h with _ h; injection h with h _; subst h; rfl
theorem counterRead (c : Ctx) (n : Byte) (rsv : BitVec 24) : Statement (.counterRead c n rsv) := by intro c op pl h; injection h with h; injection h with _ h; injection h with h _; subst h; rfl
theorem loupeConfig (c : Ctx) (k : Byte) (src : Byte) (rsv : BitVec 16) : Statement (.loupeConfig c k src rsv) := by intro c op pl h; injection h with h; injection h with _ h; injection h with h _; subst h; rfl
theorem loupeRead (c : Ctx) (first : BitVec 16) (count : BitVec 16) : Statement (.loupeRead c first count) := by intro c op pl h; injection h with h; injection h with _ h; injection h with h _; subst h; rfl
theorem policyLoad (c : Ctx) (port : Byte) (rsv : Byte) (epoch : BitVec 16) (rules : List Byte) : Statement (.policyLoad c port rsv epoch rules) := by intro c op pl h; injection h with h; injection h with _ h; injection h with h _; subst h; rfl
theorem policyRead (c : Ctx) (port : Byte) (rsv : BitVec 24) : Statement (.policyRead c port rsv) := by intro c op pl h; injection h with h; injection h with _ h; injection h with h _; subst h; rfl
theorem ownerLock (c : Ctx) (set : Byte) (rsv : BitVec 24) : Statement (.ownerLock c set rsv) := by intro c op pl h; injection h with h; injection h with _ h; injection h with h _; subst h; rfl
theorem entropyRead (c : Ctx) (bytes : BitVec 16) (rsv : BitVec 16) : Statement (.entropyRead c bytes rsv) := by intro c op pl h; injection h with h; injection h with _ h; injection h with h _; subst h; rfl
theorem updateBegin (c : Ctx) (len : Word) (hdr : List Byte) : Statement (.updateBegin c len hdr) := by intro c op pl h; injection h with h; injection h with _ h; injection h with h _; subst h; rfl
theorem updateData (c : Ctx) (off : Word) (data : List Byte) : Statement (.updateData c off data) := by intro c op pl h; injection h with h; injection h with _ h; injection h with h _; subst h; rfl
theorem updateEnd (c : Ctx) (crc : Word) : Statement (.updateEnd c crc) := by intro c op pl h; injection h with h; injection h with _ h; injection h with h _; subst h; rfl
theorem activate (c : Ctx) (conf : Byte) (rsv : Byte) (window : BitVec 16) : Statement (.activate c conf rsv window) := by intro c op pl h; injection h with h; injection h with _ h; injection h with h _; subst h; rfl
theorem fix (c : Ctx) : Statement (.fix c) := by intro c op pl h; injection h with h; injection h with _ h; injection h with h _; subst h; rfl
theorem updateStatus (c : Ctx) : Statement (.updateStatus c) := by intro c op pl h; injection h with h; injection h with _ h; injection h with h _; subst h; rfl
theorem selfTest (c : Ctx) (mask : Word) : Statement (.selfTest c mask) := by intro c op pl h; injection h with h; injection h with _ h; injection h with h _; subst h; rfl
theorem fabricProbe (c : Ctx) (dest : Byte) (repeats : Byte) (rsv : BitVec 16) : Statement (.fabricProbe c dest repeats rsv) := by intro c op pl h; injection h with h; injection h with _ h; injection h with h _; subst h; rfl
theorem poll (len : Nat) : Statement (.poll len) := by intro c op pl h; injection h
theorem subProd (v : Word) : Statement (.subProd v) := by intro c op pl h; injection h
theorem compCons (v : Word) : Statement (.compCons v) := by intro c op pl h; injection h
theorem dummy (v : Word) : Statement (.dummy v) := by intro c op pl h; injection h
theorem hpRingReset (v : Word) : Statement (.hpRingReset v) := by intro c op pl h; injection h
theorem bulkRelease (v : Word) : Statement (.bulkRelease v) := by intro c op pl h; injection h
theorem hostPortWrite (addr : BitVec 24) (data : List Byte) : Statement (.hostPortWrite addr data) := by intro c op pl h; injection h
theorem hpInvalidCommand (cmd : Byte) : Statement (.hpInvalidCommand cmd) := by intro c op pl h; injection h
theorem hpBrokenByte (isWrite : Bool) (addr : BitVec 24) (data : List Byte) : Statement (.hpBrokenByte isWrite addr data) := by intro c op pl h; injection h
theorem packetTake : Statement (.packetTake) := by intro c op pl h; injection h
theorem contactSheetRefresh : Statement (.contactSheetRefresh) := by intro c op pl h; injection h
theorem hostAbsent : Statement (.hostAbsent) := by intro c op pl h; injection h
theorem bulkTimeout (b : BitVec 4) : Statement (.bulkTimeout b) := by intro c op pl h; injection h
theorem handoverBusQuiet : Statement (.handoverBusQuiet) := by intro c op pl h; injection h
theorem handoverMirrorComplete : Statement (.handoverMirrorComplete) := by intro c op pl h; injection h
theorem handoverCsTimeout : Statement (.handoverCsTimeout) := by intro c op pl h; injection h
theorem leadTakeover : Statement (.leadTakeover) := by intro c op pl h; injection h
theorem leadBootTimeout : Statement (.leadBootTimeout) := by intro c op pl h; injection h
theorem fabricRequest (r : FabricReq) : Statement (.fabricRequest r) := by intro c op pl h; injection h
theorem fabricReply (tile : TileId) (id : Nat) : Statement (.fabricReply tile id) := by intro c op pl h; injection h
theorem admissionTimeout (tile : TileId) (id : Nat) : Statement (.admissionTimeout tile id) := by intro c op pl h; injection h
theorem bridgeParityError (rx : TileId) (tx : TileId) (failedRepeats : Nat) : Statement (.bridgeParityError rx tx failedRepeats) := by intro c op pl h; injection h
theorem offlineMark (tile : TileId) : Statement (.offlineMark tile) := by intro c op pl h; injection h
theorem incarnationAnnounce (tile : TileId) (announcer : TileId) : Statement (.incarnationAnnounce tile announcer) := by intro c op pl h; injection h
theorem tileFault (tile : TileId) (code : Word) : Statement (.tileFault tile code) := by intro c op pl h; injection h
theorem tileRestart (tile : TileId) : Statement (.tileRestart tile) := by intro c op pl h; injection h
theorem bootComplete (tile : TileId) (ok : Bool) : Statement (.bootComplete tile ok) := by intro c op pl h; injection h
theorem rateGroupBoundary (tile : TileId) (group : BitVec 3) : Statement (.rateGroupBoundary tile group) := by intro c op pl h; injection h
theorem remoteReadTimeout (tile : TileId) (group : BitVec 3) : Statement (.remoteReadTimeout tile group) := by intro c op pl h; injection h
theorem slotEvaluation (tile : TileId) (slot : BitVec 9) : Statement (.slotEvaluation tile slot) := by intro c op pl h; injection h
theorem machineEvaluation (tile : TileId) (machine : Byte) : Statement (.machineEvaluation tile machine) := by intro c op pl h; injection h
theorem governorWindow (tile : TileId) : Statement (.governorWindow tile) := by intro c op pl h; injection h
theorem vcoreSettled (tile : TileId) : Statement (.vcoreSettled tile) := by intro c op pl h; injection h
theorem tmrTick (tile : TileId) (vioMv : Word) (vholdMv : Word) (vhvMv : Word) : Statement (.tmrTick tile vioMv vholdMv vhvMv) := by intro c op pl h; injection h
theorem calendarMinute (tile : TileId) : Statement (.calendarMinute tile) := by intro c op pl h; injection h
theorem flashWriteComplete (tile : TileId) : Statement (.flashWriteComplete tile) := by intro c op pl h; injection h
theorem comparatorEdge (tile : TileId) (pin : BitVec 5) (pinUv : Int) : Statement (.comparatorEdge tile pin pinUv) := by intro c op pl h; injection h
theorem inputFilterExpiry (tile : TileId) (ch : BitVec 5) : Statement (.inputFilterExpiry tile ch) := by intro c op pl h; injection h
theorem isolationOpen (tile : TileId) (ch : BitVec 5) : Statement (.isolationOpen tile ch) := by intro c op pl h; injection h
theorem isolationClose (tile : TileId) (ch : BitVec 5) : Statement (.isolationClose tile ch) := by intro c op pl h; injection h
theorem vhvThreshold (tile : TileId) (low : Bool) : Statement (.vhvThreshold tile low) := by intro c op pl h; injection h
theorem blankingEnd (tile : TileId) (ch : BitVec 5) : Statement (.blankingEnd tile ch) := by intro c op pl h; injection h
theorem limitTrip (tile : TileId) (ch : BitVec 5) : Statement (.limitTrip tile ch) := by intro c op pl h; injection h
theorem budgetTrip (tile : TileId) (group : BitVec 2) (amps : List Int) : Statement (.budgetTrip tile group amps) := by intro c op pl h; injection h
theorem thermalBudget (meas : List Meas) : Statement (.thermalBudget meas) := by intro c op pl h; injection h
theorem channelRetry (tile : TileId) (ch : BitVec 5) : Statement (.channelRetry tile ch) := by intro c op pl h; injection h
theorem channelAttemptReset (tile : TileId) (ch : BitVec 5) : Statement (.channelAttemptReset tile ch) := by intro c op pl h; injection h
theorem openLoad (tile : TileId) (ch : BitVec 5) : Statement (.openLoad tile ch) := by intro c op pl h; injection h
theorem gateFault (tile : TileId) (ch : BitVec 5) : Statement (.gateFault tile ch) := by intro c op pl h; injection h
theorem holdLimitExpiry (tile : TileId) (ch : BitVec 5) : Statement (.holdLimitExpiry tile ch) := by intro c op pl h; injection h
theorem seqTrigger (tile : TileId) (adc : Bool) (src : Byte) : Statement (.seqTrigger tile adc src) := by intro c op pl h; injection h
theorem urgentTrigger (tile : TileId) (adc : Bool) (src : Byte) : Statement (.urgentTrigger tile adc src) := by intro c op pl h; injection h
theorem seqEntryResult (tile : TileId) (adc : Bool) (input : ConvInput) : Statement (.seqEntryResult tile adc input) := by intro c op pl h; injection h
theorem refSettled (tile : TileId) (ref : BitVec 2) : Statement (.refSettled tile ref) := by intro c op pl h; injection h
theorem referenceLost (tile : TileId) (ref : BitVec 2) : Statement (.referenceLost tile ref) := by intro c op pl h; injection h
theorem instructionTimeEnd (tile : TileId) (engine : BitVec 3) : Statement (.instructionTimeEnd tile engine) := by intro c op pl h; injection h
theorem chopOffTime (tile : TileId) (engine : BitVec 3) : Statement (.chopOffTime tile engine) := by intro c op pl h; injection h
theorem detectSample (tile : TileId) (engine : BitVec 3) (code : BitVec 14) : Statement (.detectSample tile engine code) := by intro c op pl h; injection h
theorem detectWindowEnd (tile : TileId) (engine : BitVec 3) : Statement (.detectWindowEnd tile engine) := by intro c op pl h; injection h
theorem shutterEnd (tile : TileId) (engine : BitVec 3) : Statement (.shutterEnd tile engine) := by intro c op pl h; injection h
theorem toothWindowClose (tile : TileId) (tracker : BitVec 1) : Statement (.toothWindowClose tile tracker) := by intro c op pl h; injection h
theorem angleFiringDue (tile : TileId) (tracker : BitVec 1) : Statement (.angleFiringDue tile tracker) := by intro c op pl h; injection h
theorem stepDue (tile : TileId) (unit : BitVec 2) : Statement (.stepDue tile unit) := by intro c op pl h; injection h
theorem dwellEnd (tile : TileId) (unit : BitVec 2) : Statement (.dwellEnd tile unit) := by intro c op pl h; injection h
theorem homeStep (tile : TileId) (unit : BitVec 2) : Statement (.homeStep tile unit) := by intro c op pl h; injection h
theorem holdTimeEnd (tile : TileId) (unit : BitVec 2) : Statement (.holdTimeEnd tile unit) := by intro c op pl h; injection h
theorem tachSpeedUpdate (tile : TileId) (unit : BitVec 2) : Statement (.tachSpeedUpdate tile unit) := by intro c op pl h; injection h
theorem tachLostTimeout (tile : TileId) (unit : BitVec 2) : Statement (.tachLostTimeout tile unit) := by intro c op pl h; injection h
theorem startWindowEnd (tile : TileId) (unit : BitVec 2) : Statement (.startWindowEnd tile unit) := by intro c op pl h; injection h
theorem backoffEnd (tile : TileId) (unit : BitVec 2) : Statement (.backoffEnd tile unit) := by intro c op pl h; injection h
theorem tachLossSecond (tile : TileId) (unit : BitVec 2) : Statement (.tachLossSecond tile unit) := by intro c op pl h; injection h
theorem fanAttemptReset (tile : TileId) (unit : BitVec 2) : Statement (.fanAttemptReset tile unit) := by intro c op pl h; injection h
theorem baselineLevelEnd (tile : TileId) (unit : BitVec 2) : Statement (.baselineLevelEnd tile unit) := by intro c op pl h; injection h
theorem ageingSample (tile : TileId) (unit : BitVec 2) : Statement (.ageingSample tile unit) := by intro c op pl h; injection h
theorem liveStep (tile : TileId) : Statement (.liveStep tile) := by intro c op pl h; injection h
theorem planningBoundary : Statement (.planningBoundary) := by intro c op pl h; injection h
theorem bracketComplete : Statement (.bracketComplete) := by intro c op pl h; injection h
theorem adviceMessage (tile : TileId) (msg : BitVec 224) : Statement (.adviceMessage tile msg) := by intro c op pl h; injection h
theorem adviceExpiry (tile : TileId) : Statement (.adviceExpiry tile) := by intro c op pl h; injection h
theorem rateOfRiseSample (tile : TileId) : Statement (.rateOfRiseSample tile) := by intro c op pl h; injection h
theorem permitEvaluation : Statement (.permitEvaluation) := by intro c op pl h; injection h
theorem copyStaleTimeout (h : Handle) : Statement (.copyStaleTimeout h) := by intro c op pl h; injection h
theorem permitPulse (permit : BitVec 2) : Statement (.permitPulse permit) := by intro c op pl h; injection h
theorem ringPeriodTrigger (tile : TileId) (ring : BitVec 15) : Statement (.ringPeriodTrigger tile ring) := by intro c op pl h; injection h
theorem ringSourceTimeout (tile : TileId) (ring : BitVec 15) : Statement (.ringSourceTimeout tile ring) := by intro c op pl h; injection h
theorem counterWindow (tile : TileId) (n : BitVec 3) (received : Nat) (sent : Nat) : Statement (.counterWindow tile n received sent) := by intro c op pl h; injection h
theorem counterWrap (tile : TileId) (n : BitVec 3) : Statement (.counterWrap tile n) := by intro c op pl h; injection h
theorem dieTemperature (tile : TileId) (t0 : Word) (t1 : Word) (t2 : Word) (t3 : Word) : Statement (.dieTemperature tile t0 t1 t2 t3) := by intro c op pl h; injection h
theorem powerFailWarning (tile : TileId) (active : Bool) : Statement (.powerFailWarning tile active) := by intro c op pl h; injection h
theorem stopBath (tile : TileId) (active : Bool) : Statement (.stopBath tile active) := by intro c op pl h; injection h
theorem brownOut : Statement (.brownOut) := by intro c op pl h; injection h
theorem vcc11Low : Statement (.vcc11Low) := by intro c op pl h; injection h
theorem vanaLow : Statement (.vanaLow) := by intro c op pl h; injection h
theorem vholdCharge (tile : TileId) (charged : Bool) : Statement (.vholdCharge tile charged) := by intro c op pl h; injection h
theorem vrtcLoss : Statement (.vrtcLoss) := by intro c op pl h; injection h
theorem holdupPageDone (tile : TileId) : Statement (.holdupPageDone tile) := by intro c op pl h; injection h
theorem resetN : Statement (.resetN) := by intro c op pl h; injection h
theorem resetRelease (straps : BitVec 4) (powerUp : Bool) : Statement (.resetRelease straps powerUp) := by intro c op pl h; injection h
theorem coreRegulatorFault (tile : TileId) : Statement (.coreRegulatorFault tile) := by intro c op pl h; injection h
theorem tapInstruction (tile : TileId) (instr : TapInstr) : Statement (.tapInstruction tile instr) := by intro c op pl h; injection h
theorem darkroomCheck (csHigh : Bool) : Statement (.darkroomCheck csHigh) := by intro c op pl h; injection h
theorem darkroomWake (source : WakeSource) : Statement (.darkroomWake source) := by intro c op pl h; injection h
theorem darkroomResume : Statement (.darkroomResume) := by intro c op pl h; injection h
theorem entropyCondition (tile : TileId) (samples : BitVec 1024) : Statement (.entropyCondition tile samples) := by intro c op pl h; injection h
theorem entropyHealthFailure (tile : TileId) : Statement (.entropyHealthFailure tile) := by intro c op pl h; injection h
theorem entropyWaitExpiry (tile : TileId) : Statement (.entropyWaitExpiry tile) := by intro c op pl h; injection h
theorem policySwitch : Statement (.policySwitch) := by intro c op pl h; injection h
theorem hello (f : TFrame) : Statement (.hello f) := by intro c op pl h; injection h
theorem idle (f : TFrame) : Statement (.idle f) := by intro c op pl h; injection h
theorem time (f : TFrame) : Statement (.time f) := by intro c op pl h; injection h
theorem close (f : TFrame) : Statement (.close f) := by intro c op pl h; injection h
theorem tetherRequest (f : TFrame) (req : Option FabricReq) : Statement (.tetherRequest f req) := by intro c op pl h; injection h
theorem tetherReply (f : TFrame) (id : Nat) (reply : Option FabReply) : Statement (.tetherReply f id reply) := by intro c op pl h; injection h
theorem announce (f : TFrame) : Statement (.announce f) := by intro c op pl h; injection h
theorem pair (f : TFrame) : Statement (.pair f) := by intro c op pl h; injection h
theorem pairTimeout : Statement (.pairTimeout) := by intro c op pl h; injection h
theorem helloTimer : Statement (.helloTimer) := by intro c op pl h; injection h
theorem idleTimer : Statement (.idleTimer) := by intro c op pl h; injection h
theorem timeTimer : Statement (.timeTimer) := by intro c op pl h; injection h
theorem tetherSuspect : Statement (.tetherSuspect) := by intro c op pl h; injection h
theorem tetherLost : Statement (.tetherLost) := by intro c op pl h; injection h
theorem resyncComplete : Statement (.resyncComplete) := by intro c op pl h; injection h
theorem busStart (port : BusPort) : Statement (.busStart port) := by intro c op pl h; injection h
theorem modbusRequest (port : RsPort) (frame : List Byte) : Statement (.modbusRequest port frame) := by intro c op pl h; injection h
theorem serverWaitExpiry (port : RsPort) : Statement (.serverWaitExpiry port) := by intro c op pl h; injection h
theorem pollItemDue (port : RsPort) (item : BitVec 9) : Statement (.pollItemDue port item) := by intro c op pl h; injection h
theorem modbusSilence (port : RsPort) : Statement (.modbusSilence port) := by intro c op pl h; injection h
theorem modbusResponse (port : RsPort) (frame : List Byte) : Statement (.modbusResponse port frame) := by intro c op pl h; injection h
theorem responseTimeout (port : RsPort) : Statement (.responseTimeout port) := by intro c op pl h; injection h
theorem mstpDataFrame (port : RsPort) (ftype dst src : Byte) (rest : MstpRest) : Statement (.mstpDataFrame port ftype dst src rest) := by intro c op pl h; injection h
theorem mstpToken (port : RsPort) (frame : MstpFrame) : Statement (.mstpToken port frame) := by intro c op pl h; injection h
theorem mstpControlFrame (port : RsPort) (ftype dst src : Byte) (rest : MstpRest) : Statement (.mstpControlFrame port ftype dst src rest) := by intro c op pl h; injection h
theorem replyPostponed (port : RsPort) : Statement (.replyPostponed port) := by intro c op pl h; injection h
theorem t1sFrame (frame : List Byte) (fcs : Word) : Statement (.t1sFrame frame fcs) := by intro c op pl h; injection h
theorem t1sCollision : Statement (.t1sCollision) := by intro c op pl h; injection h
theorem beaconTimeout : Statement (.beaconTimeout) := by intro c op pl h; injection h
theorem jabber : Statement (.jabber) := by intro c op pl h; injection h
theorem busFrameSent (port : BusPort) : Statement (.busFrameSent port) := by intro c op pl h; injection h
theorem svcDetN (level : Bool) : Statement (.svcDetN level) := by intro c op pl h; injection h
theorem serviceBaudLock (baud : Nat) : Statement (.serviceBaudLock baud) := by intro c op pl h; injection h
theorem serviceUnlockTimeout : Statement (.serviceUnlockTimeout) := by intro c op pl h; injection h
theorem servicePacket (packet : List Byte) : Statement (.servicePacket packet) := by intro c op pl h; injection h
theorem serviceGapTimeout : Statement (.serviceGapTimeout) := by intro c op pl h; injection h
theorem negativeErase : Statement (.negativeErase) := by intro c op pl h; injection h
theorem activationNextTile : Statement (.activationNextTile) := by intro c op pl h; injection h
theorem handoverRetry : Statement (.handoverRetry) := by intro c op pl h; injection h
theorem healthWindowEnd : Statement (.healthWindowEnd) := by intro c op pl h; injection h
theorem panelPhase : Statement (.panelPhase) := by intro c op pl h; injection h
theorem crackCheck (milliohms : Nat) : Statement (.crackCheck milliohms) := by intro c op pl h; injection h
theorem panelRailsPresent : Statement (.panelRailsPresent) := by intro c op pl h; injection h
theorem panelRailsCollapse : Statement (.panelRailsCollapse) := by intro c op pl h; injection h
theorem keyScan (pressed : BitVec 16) : Statement (.keyScan pressed) := by intro c op pl h; injection h
theorem keyInterrupt : Statement (.keyInterrupt) := by intro c op pl h; injection h
theorem stuckKey (key : BitVec 4) : Statement (.stuckKey key) := by intro c op pl h; injection h
theorem encoderEdge (enc : Bool) (inputB : Bool) (level : Bool) : Statement (.encoderEdge enc inputB level) := by intro c op pl h; injection h
theorem encoderSettle (enc : Bool) (inputB : Bool) : Statement (.encoderSettle enc inputB) := by intro c op pl h; injection h
theorem selfTestComplete (tile : TileId) (failMask : Word) : Statement (.selfTestComplete tile failMask) := by intro c op pl h; injection h
theorem tokenRegeneration (port : RsPort) : Statement (.tokenRegeneration port) := by intro c op pl h; injection h
theorem rxErr (port : RsPort) : Statement (.rxErr port) := by intro c op pl h; injection h
theorem beacon : Statement (.beacon) := by intro c op pl h; injection h
theorem dischargeSwitchRelease : Statement (.dischargeSwitchRelease) := by intro c op pl h; injection h

end Sys2Proof.Laws.Carried
end

