-- ==== Sys2Proof/Tests/Slice0.lean ====
section
/-!
SUPPORT. Tests: for each statement that has hypotheses, a theorem `witness_<Name>` lists concrete states and operands that meet them,
clause by clause in the statement's order and at the boundary values of the ranges; `smoke_…` shows an ill-formed row refused by
each check of `Instr.wf`; `test_…` runs one step, with the result taken from the rule named.
-/

open Sys2Proof Sys2Proof.Machine

namespace Sys2Proof.Tests

set_option Elab.async false

/-- An LX8-8 in service: eight online tiles of incarnation 1 with charged hold-up, led by tile 0. -/
def up : State :=
  { pkg := { inReset := false, everReleased := true, sh := { driven := true }
             tiles := (List.range 8).map (fun t => (t, { boot := { state := .online, incarnation := 1 }, supply := { holdCharged := true } })) } }

def p0 : Pkg := up.pkg
def c0 : Ctx := { src := .host 1, tile := 0, cls := 2 }
/-- `up` with its package changed. -/
def upWith (f : Pkg → Pkg) : State := { up with pkg := f p0 }
def on (f : Tile → Tile) : Pkg := onTile 0 f p0
def sh (f : Shared → Shared) : Pkg := onShared f p0
/-- Tile 0 performs the command. -/
def pf (i : Instr) (p : Pkg := p0) : Bool := performs i p 0

/-- States and operands that meet the hypotheses of `Obligations.SystemCommandsRun`. -/
theorem witness_SystemCommandsRun : List.all (α := Bool)
  [pf (.nop c0), pf (.identify c0), pf (.tileState c0 0 0 0),
  performs (.tileState { c0 with tile := 7 } 1 1 0) p0 7 , performs (.tileState { c0 with tile := 7 } 2 0 0) p0 7,
  pf (.leadHandover c0) && online p0 (1 - p0.lead % 2) && p0.sh.handover.isNone, pf (.health c0), pf (.timeSet c0 0xFFFFFFFF),
  pf (.governor c0 0 0 0 1 0), pf (.governor c0 1000 600 250 0 0) && govOk 1000 600 250, govOk 1000 1000 100]
  id = true := by decide +kernel

/-- A permit table with one predicate: always low. -/
def pm1 : List Byte := [0x32, 16] ++ zeros 100
def withPermits : Pkg := onTile 0 (setActive 3 32 pm1) p0
/-- States and operands that meet the hypotheses of `Obligations.SetupCommandsRun`. -/
theorem witness_SetupCommandsRun : List.all (α := Bool)
  [pf (.safelightLoad c0 31 1 0 [0x10000]) && [0x10000].all safeEntryOk && (flashCheck [0] p0).1.isNone,
  pf (.safelightLoad c0 0 32 0 (List.replicate 32 0x3C0000)) && (List.replicate 32 0x3C0000).all safeEntryOk,
  pf (.permitConfig c0 3 1 15) withPermits && predDefined withPermits 15 && (flashCheck (onlinePair withPermits) withPermits).1.isNone,
  pf (.selfTest c0 31) && !((31 : Word).getLsbD 2 && permitActive p0),
  pf (.fabricProbe c0 7 255 0) && (localOf p0 7).isSome]
  id = true := by decide +kernel

def var (i : Nat) : Handle := BitVec.ofNat 32 (0x70000 + i)
def gov0 : Handle := 0
def overP : Pkg := on (fun tl => { tl with overrides := [handleKey (var 4095)] })
/-- States and operands that meet the hypotheses of `Obligations.PointCommandsRun`. -/
theorem witness_PointCommandsRun : List.all (α := Bool)
  [pf (.pointRead c0 (var 4095)) && (pointError p0 0 (var 4095)).isNone,
 pf (.pointWrite c0 (var 4095) 0xFFFFFFFF 1 0) && (writeError p0 0 c0 (var 4095)).isNone,
 pf (.pointReadMulti c0 [var 0, var 4095]) && ([var 0, var 4095].findSome? (pointError p0 0)).isNone,
 pf (.pointWriteMulti c0 0 0 [(var 0, 1), (var 4095, 2)]) && ([(var 0, (1 : Word)), (var 4095, 2)].findSome? (fun x => writeError p0 0 c0 x.1)).isNone,
 pf (.pointOverride c0 (var 4095) 5 0 0) && (pointError p0 0 (var 4095)).isNone && !notWritable p0 0 (handleKey (var 4095)),
 pf (.pointRelease c0 (var 4095) 0 0) overP && (pointError overP 0 (var 4095)).isNone && overridden (overP.tile 0) (handleKey (var 4095))]
  id = true := by decide +kernel

/-- States and operands that meet the hypotheses of `Obligations.ChannelCommandsRun`. -/
theorem witness_ChannelCommandsRun : List.all (α := Bool)
  [pf (.channelConfig c0 31 0 0 (chanCfgReset ||| 0x08)) && chanCfgOk (chanCfgReset ||| 0x08) && !ownerRuns (p0.tile 0) 31,
 pf (.channelStatus c0 31 0), pf (.channelStatus c0 0 0), pf (.channelClear c0 31 0 0x3FF) && bits (0x3FF : BitVec 16) 15 10 == 0]
  id = true := by decide +kernel

/-- States and operands that meet the hypotheses of `Obligations.ConverterCommandsRun`. -/
theorem witness_ConverterCommandsRun : List.all (α := Bool)
  [pf (.seqConfig c0 1 0 16 0 (List.replicate 16 0)) && (List.replicate 16 (0 : BitVec 64)).all (entryOk true false) && !((p0.tile 0).adc true).reg.busy,
 pf (.seqConfig c0 0 1 4 0 (List.replicate 4 0)) && (List.replicate 4 (0 : BitVec 64)).all (entryOk false true) && !((p0.tile 0).adc false).inj.busy,
 pf (.seqStart c0 1 0 3 0x9F) && triggerListed 0x9F, pf (.seqStart c0 0 1 1 0), pf (.seqStart c0 0 0 2 0), pf (.seqStart c0 1 1 3 0x01) && triggerListed 1,
 pf (.seqStatus c0 1 0), pf (.refSelect c0 1 2 0)]
  id = true := by decide +kernel

def tbl1 : List Byte := [0x30, 1, 0, 0, 1, 0, 0, 0] ++ [0, 0, 1, 0] ++ ([0x0E, 0, 0, 0] ++ le 4 0x00FFFFFF ++ zeros 8)
def slotDesc : BitVec 512 := slotDescReset
def withSlot (f : Slot → Slot) : Pkg := on (Tile.onSlot 511 f)
def moved : Pkg := withSlot (fun x => { x with pend := some { desc := slotDesc, write := none, mode := some c0 } })
def written : Pkg := withSlot (fun x => { x with pend := some { desc := slotDesc, write := some c0, mode := none } })
/-- States and operands that meet the hypotheses of `Obligations.LoopCommandsRun`. -/
theorem witness_LoopCommandsRun : List.all (α := Bool)
  [pf (.loopWrite c0 511 0 0 slotDesc) && (descError p0 0 511 slotDesc).isNone && !(addsSlot (p0.tile 0) 511 slotDesc && !loadOk (p0.tile 0) none (some (511, slotDesc))),
 pf (.loopRead c0 511 0),
 pf (.loopMode c0 511 3 0 0) && !byMachine c0 && ((p0.tile 0).slot 511).pend.isNone && !(addsSlot (p0.tile 0) 511 (withMode ((p0.tile 0).slot 511).desc 3 0)),
 pf (.loopMode c0 511 0 0 0) moved && ((moved.tile 0).slot 511).pend.any (fun w => w.write.isNone),
 pf (.loopMode c0 511 1 0 5) written && ((written.tile 0).slot 511).pend.any (fun w => w.write.isSome && (descError written 0 511 (withMode w.desc 1 5)).isNone && !addsSlot (written.tile 0) 511 (withMode w.desc 1 5)),
 pf (.loopClearFlags c0 511 0x7F 0),
 pf (.rateGroupConfig c0 7 0 0 1) (on (Tile.onGroup 7 (fun g => { g with n := 1 }))),
 pf (.rateGroupConfig c0 7 1 0 0x2000000) && orderOk ((p0.tile 0).onGroup 7 (fun x => { x with pend := none })) 7 0x2000000 && loadOk ((p0.tile 0).onGroup 7 (fun x => { x with pend := none })) (some (7, true, 0x2000000)) none,
 pf (.rateGroupConfig c0 7 0 0 1)]
  id = true := by decide +kernel

def withShadow : Pkg := on (fun tl => { tl with tables := { tl.tables with shadow := [(3 * 1024 + 32, tbl1)] } })
/-- States and operands that meet the hypotheses of `Obligations.TableCommandsRun`. -/
theorem witness_TableCommandsRun : List.all (α := Bool)
  [pf (.tableLoad c0 1 0 511 0 [1, 2, 3, 4]) && (tableNameError 1 511).isNone && (1 != 3 || formatTile 511 0) && shadowUsed (p0.tile 0) 1 511 + 4 ≤ 65536 && 4 ≤ kindMax 1,
 pf (.tableLoad c0 3 0 32 28 [0, 0, 0, 0]) withShadow && (tableNameError 3 32).isNone && formatTile 32 0 && 32 ≤ kindMax 3 && ((withShadow.tile 0).shadow? 3 32).isSome,
 pf (.tableCommit c0 1 0 511 0 0) && (tableNameError 1 511).isNone && (flashCheck ((tableTiles 0 1 511).filter (online p0)) p0).1.isNone,
 pf (.tableCommit c0 3 0 32 28 (crc32c tbl1)) withShadow && ((withShadow.tile 0).shadow? 3 32) == some tbl1 && tbl1.length == 28 && tableValid withShadow 0 3 32 tbl1
   && !claimConflict withShadow 0 3 32 tbl1 && (tableTiles 0 3 32).all (fun u => areaUsed withShadow u 3 32 + 28 ≤ kindArea 3) && (flashCheck ((tableTiles 0 3 32).filter (online withShadow)) withShadow).1.isNone,
 pf (.tableRead c0 3 1 32 24 4) withShadow, pf (.tableRead c0 3 0 32 0 28) (onTile 0 (setActive 3 32 tbl1) p0) && (onTile 0 (setActive 3 32 tbl1) p0 |>.tile 0 |>.table 3 32) == tbl1,
 pf (.machineControl c0 255 2 0) (on (fun tl => tl.onMachine 255 (fun x => { x with image := [1] })))]
  id = true := by decide +kernel

def node1 : BitVec 384 := (nodeRecReset &&& ~~~(0xFFFFFFFF#384 <<< 64)) ||| 0x3F800000 ||| (0x70000#384 <<< 64) ||| (1#384 <<< 96)
def withNode : Pkg := on (fun tl => { tl with pred := { tl.pred with nodes := [(127, { rc := node1 })], zones := [(255, { rc := zoneRecReset ||| (1#256 <<< 16) })] } })
def planRec1 : BitVec 256 := 5 ||| (60#256 <<< 16) ||| (10#256 <<< 32) ||| (2#256 <<< 48) ||| (1#256 <<< 224)
def plan1 : Plan := { id := 1, bracket := 0, supply := [], mask := 0, zones := [], start := 0, len := 0 }
def withPlan : Pkg := sh (fun x => { x with planner := { x.planner with record := some planRec1, latent := some plan1 } })
def withFixer : Pkg := onShared (fun x => { x with planner := { x.planner with fixers := [c0] } }) withPlan
/-- States and operands that meet the hypotheses of `Obligations.PredictorCommandsRun`. -/
theorem witness_PredictorCommandsRun : List.all (α := Bool)
  [pf (.modelLoad c0 0 0 127 1 0 (le 48 node1.toNat)) && (le 48 node1.toNat).length == partRec 0 * 1 && 127 + 1 ≤ partMax 0 && recordsOk p0 0 0 127 (le 48 node1.toNat),
 pf (.modelRead c0 0 0 127 1 0), pf (.identControl c0 127 1 0 0x3F7EB852) withNode && lambdaOk 0x3F7EB852 && nodeInUse ((withNode.tile 0).node 127) && nIdent node1 && nMeas node1 != noHandle,
 pf (.planConfig c0 planRec1) && planRecOk p0 planRec1, pf (.planStatus c0 0xFFFF 0), pf (.planStatus c0 255 0) withNode && zoneHosted (withNode.tile 0) 255,
 pf (.planFix c0 1) withPlan && planCoord withPlan == 0 && withPlan.sh.planner.latent.any (fun x => x.id == 1), pf (.planFix c0 1) withFixer && !withFixer.sh.planner.fixers.isEmpty, pf (.planVeto c0 1) withPlan && withPlan.sh.planner.fixers.isEmpty,
 pf (.capacityConfig c0 255 3 1) withNode && zoneHosted (withNode.tile 0) 255]
  id = true := by decide +kernel

def gateChan : Chan := { cfg := chanCfgReset ||| 0x18 }
def withGates (f : Tile → Tile) : Pkg := on (fun tl => f { tl with chans := [(0, gateChan), (1, gateChan), (2, gateChan), (3, gateChan), (30, gateChan), (31, { cfg := chanCfgReset ||| 0x10 })] })
def prog1 : List Word := [0x04000001, 0xFC000000]
def withProg (ph : EnginePhase) : Pkg := withGates (fun tl => { tl with programs := [(15, [0xFC000000])], engines := [(7, { phase := ph })] })
def trk1 : BitVec 128 := 31 ||| (1#128 <<< 9) ||| (360#128 <<< 16) ||| (3599#128 <<< 48)
/-- States and operands that meet the hypotheses of `Obligations.ProfileCommandsRun`. -/
theorem witness_ProfileCommandsRun : List.all (α := Bool)
  [pf (.profileLoad c0 15 64 0 (List.replicate 64 0xFC000000)) && programOk (List.replicate 64 0xFC000000) && !((List.range 8).any (fun e => ((p0.tile 0).engine e).phase == .running)),
 programOk prog1,
 pf (.profileFire c0 7 15 0 0 30) (withProg .idle) && fireHandleOk 7 15 && canFire ((withProg .idle).tile 0) 7 15 30,
 pf (.profileFire c0 7 15 0 0 30) (withProg .running) && canFire ((withProg .running).tile 0) 7 15 30,
 pf (.profileCancel c0 7 0 0), pf (.profileStatus c0 7 0),
 pf (.angleConfig c0 1 0 0 trk1) (withProg .idle) && trackerCfgOk ((withProg .idle).tile 0) trk1 && !tcEnable (((withProg .idle).tile 0).tracker 1).cfg,
 pf (.angleSchedule c0 1 8 0 (List.replicate 8 0x0F070E0F)) && (seEngine 0x0F070E0F, seProgram 0x0F070E0F, seAngle 0x0F070E0F) == (7, 15, 3599)]
  id = true := by decide +kernel

def step1 : BitVec 256 := (0xFFFF#256 <<< 32) ||| (1000#256 <<< 48)
def withStep (x : Stepper) : Pkg := withGates (fun tl => { tl with steppers := [(3, x)] })
def fanTach : BitVec 256 := (31#256 <<< 24) ||| (1#256 <<< 48) ||| (1#256 <<< 80) ||| (0x00FFFFFF#256 <<< 160)
def fan1 : Fan := { cfg := fanTach, state := .running, speed := 65536, goodSince := some 0 }
def withFan (x : Fan) : Pkg := on (fun tl => { tl with fans := [(3, x)] })
/-- States and operands that meet the hypotheses of `Obligations.MotionCommandsRun`. -/
theorem witness_MotionCommandsRun : List.all (α := Bool)
  [pf (.stepperConfig c0 3 0 0 (step1 ||| (1#256 <<< 8))) (withStep {}) && stepperRangeOk (step1 ||| (1#256 <<< 8)) && stepperCheckOk ((withStep {}).tile 0) 3 (step1 ||| (1#256 <<< 8)) && !(((withStep {}).tile 0).stepper 3).runs,
 pf (.stepperMove c0 3 0 0 0) (withStep { cfg := step1, state := .standstill }) && scMin step1 ≤ 0 && 0 ≤ scMax step1,
 pf (.stepperMove c0 3 0 0 0) (withStep { cfg := step1, state := .moving }), pf (.stepperStop c0 3 0 0) (withStep { cfg := step1, state := .moving }),
 pf (.stepperHome c0 3 0 1 0) (withStep { cfg := step1 ||| (2#256 <<< 16), state := .standstill }) && scHomeMode (step1 ||| (2#256 <<< 16)) == 2,
 pf (.fanConfig c0 3 0 0 fanCfgReset) (withFan {}) && fanRangeOk fanCfgReset && (fanSupplyError p0 fanCfgReset).isNone && !fcEnable fanCfgReset && !(((withFan {}).tile 0).fan 3).runs,
 pf (.fanStatus c0 3 0), (q16Word ((p0.tile 0).fan 3).speed p0).1 == 0,
 pf (.fanBaseline c0 3 0 0) (withFan fan1) && fan1.good && !fan1.suspended]
  id = true := by decide +kernel

def ringD (size stop : Nat) : BitVec 128 := BitVec.ofNat 128 (2 + 256 * stop + 65536 * size + 0x70000 * 2 ^ 32 + 86400000 * 2 ^ 64)
def ring1 : Ring := { desc := ringD 4 0, entries := [{ seq := 1, bits := 5, time := 9 }], nextSeq := 2 }
def withRing (r : Ring) : Pkg := on (fun tl => { tl with rings := { tl.rings with rings := [(32767, r)] } })
def far0 : Ctx := { c0 with src := .far 0, cls := 3 }
def bulk0 : Ctx := { c0 with cls := 3 }
def latched : Pkg := on (fun tl => { tl with fabric := { tl.fabric with
  flights := [{ work := .command (.ringRead bulk0 32767 1 8192), cls := 3, part := 3, order := 0, started := true, latch := some 2 }] } })
/-- States and operands that meet the hypotheses of `Obligations.RingCommandsRun`. -/
theorem witness_RingCommandsRun : List.all (α := Bool)
  [pf (.ringConfig c0 32767 0) && (ringIdError p0 0 32767).isNone && ringDescOk p0 0 32767 0 && (p0.tile 0).rings.kib == 8192 && ((p0.tile 0).ring? 32767).isNone,
 pf (.ringConfig c0 32767 0) (withRing ring1), pf (.ringConfig c0 32767 (ringD 4 0)) (withRing ring1) && ringDescOk (withRing ring1) 0 32767 (ringD 4 0),
 pf (.ringConfig c0 32767 (ringD 4 1)) (withRing ring1) && ringDescOk (withRing ring1) 0 32767 (ringD 4 1),
 pf (.ringConfig c0 32767 (ringD 16 0)) (withRing ring1) && (allocBlock 0 ((withRing ring1).tile 0) 32767 16).isSome,
 pf (.ringConfig c0 32767 (ringD 16 0)) && (allocBlock 0 (p0.tile 0) 32767 16).isSome,
 pf (.ringRead bulk0 32767 1 8192) (withRing { ring1 with entries := [] }) && (ringDelivery (freeOlder { ring1 with entries := [] } 1) 2 1 8192).1.isEmpty,
 pf (.ringRead far0 32767 1 8192) (withRing ring1) && !(ringDelivery (freeOlder ring1 1) 2 1 8192).1.isEmpty,
 pf (.ringRead bulk0 32767 0xFFFFFFFF 1) (withRing ring1) && !(ringDelivery ring1 2 0xFFFFFFFF 1).1.isEmpty && (freeBulk (setRing 0 32767 ring1 (withRing ring1))).isSome,
 pf (.ringRead bulk0 32767 1 8192) latched && ((latched.tile 0).ring? 32767).isNone && latchedSeq (latched.tile 0) (.command (.ringRead bulk0 32767 1 8192)) == some 2,
 pf (.ringReset c0 32767) (withRing ring1), pf (.eventMask c0 3 0 0xFFFFFFFF), pf (.eventRead c0)]
  id = true := by decide +kernel

def rs (mode : Nat) (addr : Nat) (baud : Nat) : BitVec 224 := BitVec.ofNat 224 (mode + baud * 2 ^ 32 + addr * 2 ^ 64 + (if mode == 1 then 127 * 2 ^ 72 + 1 * 2 ^ 80 else 0))
def withBus (r : RsState) : Pkg := sh (fun x => { x with bus1 := r })
def mstp : RsState := { cfg := rs 1 127 115200, mode := 1, running := true }
def t1sOn : T1sState := { cfg := 1, running := true }
def mapE : List Byte := [0, 0, 0, 0] ++ le 4 0x70000
/-- States and operands that meet the hypotheses of `Obligations.BusCommandsRun`. -/
theorem witness_BusCommandsRun : List.all (α := Bool)
  [pf (.busConfig c0 1 0 (rs 1 127 115200)) && rsCfgOk (rs 1 127 115200) && rsPortOf 1 == some .bus1, pf (.busConfig c0 0 0 (rs 3 0 1000000)) && rsCfgOk (rs 3 0 1000000),
 pf (.busConfig c0 2 0 1) && t1sCfgOk 1, pf (.busConfig c0 2 0 (BitVec.ofNat 224 (2 ^ 48 + 15 * 2 ^ 56))) && t1sCfgOk (BitVec.ofNat 224 (2 ^ 48 + 15 * 2 ^ 56)),
 pf (.busSend c0 1 0 2 [5, 9, 0, 0]) (withBus mstp) && ftExpecting == 5, pf (.busSend c0 1 0 503 ([6, 9] ++ zeros 502)) (withBus { mstp with queue := List.replicate 15 (c0, []) }) && ftNotExpecting == 6,
 pf (.busSend c0 1 0 2 [6, 9, 0, 0]) (withBus { mstp with reply := some (9, 0) }),
 pf (.busSend c0 2 0 14 (zeros 16)) (sh (fun x => { x with t1s := t1sOn })) && tcOn 1, pf (.busSend c0 2 0 1012 (zeros 1012)) (sh (fun x => { x with t1s := t1sOn })),
 pf (.busMapLoad c0 1 0 0 mapE) && !busTableFull 0 (editTable [] 0x20 8 0 mapE) && tableValid p0 p0.lead 3 1 (editTable [] 0x20 8 0 mapE) && !claimConflict p0 p0.lead 3 1 (editTable [] 0x20 8 0 mapE)
   && ((p0.tile 0).table 3 1).isEmpty && (flashCheck (onlinePair p0) p0).1.isNone,
 pf (.busStatus c0 1 0), pf (.busStatus c0 2 0)]
  id = true := by decide +kernel

def withTether (te : Tether) : Pkg :=
  { on (fun tl => { tl with entropy := { tl.entropy with ready := true, pool := zeros 32 } }) with straps := 8, sh := { p0.sh with tether := te } }
/-- States and operands that meet the hypotheses of `Obligations.TetherCommandsRun`. -/
theorem witness_TetherCommandsRun : List.all (α := Bool)
  [pf (.tetherConfig c0 (1 + 0x5A00)) (withTether {}) && tetherCfgOk (1 + 0x5A00) && !isFar (withTether {}) && hasTether (withTether {}) && (flashCheck (onlinePair (withTether {})) (withTether {})).1.isNone,
 pf (.tetherPair c0 0 0) (withTether {}) && sourceReady (withTether {}) && (withTether {}).sh.tether.pairing.isNone,
 pf (.tetherPair c0 1 0) (withTether { pairKey := some [] }) && sourceReady (withTether {}) && (flashCheck (onlinePair (withTether {})) (withTether {})).1.isNone, pf (.tetherStatus c0)]
  id = true := by decide +kernel

def wave1 : List Byte := [0x22, 2, 0, 0, 0, 0, 0, 0, 1, 2, 0, 0, 2, 1, 0, 0]
def withPanel (x : Panel) : Pkg := onTile 0 (setActive 3 31 wave1) (sh (fun y => { y with panel := x }))
def panelOn : Panel := { cfg := 3, rails := true }
def window1 : List Sample := [{ no := 0, bits := 1 }, { no := 1, bits := 2 }]
def withLoupe : Pkg := on (fun tl => { tl with counters := { tl.counters with held := window1, nextNo := 2 } })
/-- States and operands that meet the hypotheses of `Obligations.PanelCounterCommandsRun`. -/
theorem witness_PanelCounterCommandsRun : List.all (α := Bool)
  [pf (.panelUpdate c0 15 0 0) (withPanel panelOn) && !(waveTable (withPanel panelOn) 15).isEmpty && panelOn.enabled,
 pf (.panelConfig c0 7) && panelCfgOk 7, pf (.keyConfig c0 7) && keyCfgOk 7, pf (.counterConfig c0 7 1 1 6 0) && ctrCfgOk 8 0 1 1 6 0, pf (.counterConfig c0 0 2 0 2 1000000) && ctrCfgOk 8 0 2 0 2 1000000,
 pf (.counterRead c0 8 0), pf (.loupeConfig c0 20 0xFF 0), pf (.loupeRead bulk0 0 256) && (loupeSpan (p0.tile 0).counters 0 256).isEmpty,
 pf (.loupeRead far0 0 256) withLoupe && !(loupeSpan (withLoupe.tile 0).counters 0 256).isEmpty,
 pf (.loupeRead bulk0 1 1) withLoupe && !(loupeSpan (withLoupe.tile 0).counters 1 1).isEmpty && (freeBulk withLoupe).isSome]
  id = true := by decide +kernel

/-- States and operands that meet the hypotheses of `Obligations.PolicyCommandsRun`. -/
theorem witness_PolicyCommandsRun : List.all (α := Bool)
  [pf (.policyLoad c0 5 0 32768 (zeros 8)) && rulesOk 5 (zeros 8) && epochAhead 32768 ((p0.tile 0).policy 5).epoch && !ownerLocked p0 && (flashCheck (onlineTiles p0) p0).1.isNone,
 pf (.policyRead c0 5 0), pf (.ownerLock c0 0 0), pf (.ownerLock c0 1 0) && !ownerLocked p0,
 pf (.entropyRead c0 256 0) (withTether {}) && (((withTether {}).tile 0).entropy.ready)]
  id = true := by decide +kernel

def hdr1 : List Byte := le 4 0x4938584C ++ [1, 0, 1, 0, 0, 0, 0, 0, 0, 0, 0, 0] ++ zeros 20 ++ le 4 1024 ++ zeros 216
def withUpdate (u : Update) : Pkg := sh (fun x => { x with update := u })
def down1 : Update := { state := .downloading, length := 512, received := 508, image := zeros 508 }
def down2 : Update := { down1 with received := 512, image := zeros 512 }
def staged : Pkg := onTiles (fun _ tl => { tl with images := { tl.images with negState := .staged } }) p0
/-- States and operands that meet the hypotheses of `Obligations.UpdateCommandsRun`. -/
theorem witness_UpdateCommandsRun : List.all (α := Bool)
  [pf (.updateBegin c0 1024 hdr1) && updateReason p0 == 0 && !updateBusy p0 && headerForm hdr1 && ihLength hdr1 == 1024 && mapForm hdr1, hdr1.length == 256,
 (flashCheck ((List.range p0.n).filter (online p0)) p0).1.isNone, pf (.updateData c0 508 [1, 2, 3, 4]) (withUpdate down1),
 pf (.updateEnd c0 0) (withUpdate { down2 with writing := [(c0, 508, [7])] }),
 pf (.updateEnd c0 (crc32c (zeros 512))) (withUpdate down2) && down2.ending.isNone && down2.writing.isEmpty && !deniedNow (withUpdate down2) 0 0xC2 c0
   && (flashCheck ((List.range p0.n).filter (online p0)) (withUpdate down2)).1.isNone,
 pf (.activate c0 1 0 3600) staged && !anyTile staged (fun u tl => !online staged u || tl.images.negState != .staged) && !updateBusy staged && updateReason staged == 0,
 pf (.fix c0) (withUpdate { state := .window }), pf (.updateStatus c0)]
  id = true := by decide +kernel

/-- A packet with this opcode, flags, tag, TILE and CLASS byte, and payload (R97). -/
def packet (op flags : Byte) (tag : Nat) (tileClass : Byte) (pl : List Byte) : List Byte :=
  let body := [op, flags] ++ le 2 tag ++ le 2 pl.length ++ [tileClass, 0] ++ pl
  body ++ le 4 (crc32c body).toNat
def subWith (pkt : List Byte) (prod : Word) : State := { up with hp := { up.hp with rings := { up.hp.rings with subMem := memPut [] 0 pkt, subProd := prod } } }
def nopPacket : List Byte := packet 0x00 0 7 0x20 []
def taken (s : State) : State := onHpRings (fun r => { r with subCons := r.subCons + 12 }) s
/-- States and operands that meet the hypotheses of `Obligations.HostTransactionsRun`. -/
theorem witness_HostTransactionsRun : List.all (α := Bool)
  [hostAnswers up, !hostAnswers State.reset, subProdOk up.hp.rings 65536, compConsOk { up.hp.rings with compProd := 65536 } 65536,
 (writeRegister 0x120 0xFFFFFFFF).isSome, (writeRegister 0x108 0).isNone && !(hpWriteBytes [] 0x10FFF [1, 2]).2, !validCommand 0xFF]
  id = true := by decide +kernel

/-- States and operands that meet the hypotheses of `Obligations.HostEventsRun`. -/
theorem witness_HostEventsRun : List.all (α := Bool)
  [mayTake (subWith nopPacket 12), frames (pkLen nopPacket) 12 && (packetError (taken (subWith nopPacket 12)) false nopPacket).isNone
   && ringGet (subWith nopPacket 12).hp.rings.subMem 0 12 == nopPacket && (commandOf c0 (pkOp nopPacket) (pkPayload nopPacket)).isSome,
 mayTake (subWith nopPacket 8) && !frames (pkLen nopPacket) 8, online p0 p0.lead && !up.hp.absent,
 ((sh (fun x => { x with bulk := [(15, { data := [1], until_ := 5 })] })).sh.bulk.find? 15).isSome && up.hp.rings.held.all (fun y => bulkNamed y != some 15)]
  id = true := by decide +kernel

def hand (q : Option Nat) : Pkg := sh (fun x => { x with handover := some { ctx := some c0, startAt := 0, quietAt := q } })
def lost : Pkg := onTile 0 (fun tl => { tl with boot := { tl.boot with state := .restarting } }) (sh (fun x => { x with driven := false, leadLostAt := 5 }))
/-- States and operands that meet the hypotheses of `Obligations.LeadEventsRun`. -/
theorem witness_LeadEventsRun : List.all (α := Bool)
  [(hand none).sh.handover.isSome && !busSending (hand none), busSending (onRs .bus0 (fun r => { r with sending := some (none, []) }) (hand none)),
 online (hand (some 0)) (1 - (hand (some 0)).lead % 2), mayTakeOver { lost with now := 5 } && lost.sh.leadLostAt ≤ 5,
 awake lost && !lost.sh.driven && !online lost lost.lead && mayTakeOver (advanceTo 5 lost)]
  id = true := by decide +kernel

def req1 : FabricReq := { id := 0, origin := 0, tile := 1, cls := 2, inc := 1, purpose := .permitCopy, op := .probe }
def withOut (rep : Option FabReply) : Pkg := on (fun tl => { tl with fabric := { tl.fabric with out := [{ req := req1, sentAt := 0, limit := 9, reply := rep }] } })
def inState (st : TileState) : Pkg := onTile 7 (fun tl => { tl with boot := { tl.boot with state := st } }) p0
/-- States and operands that meet the hypotheses of `Obligations.FabricEventsRun`. -/
theorem witness_FabricEventsRun : List.all (α := Bool)
  [((withOut none).tile 0).fabric.out.any (fun o => o.req == req1 && o.reply.isNone) && !hasArrived (withOut none) req1 && localOf p0 1 == some 1 && (route (withOut none) 0 (meetingTile (withOut none) req1 1)).isSome && !testHolds (withOut none) 0 (meetingTile (withOut none) req1 1),
 ((withOut (some { status := 0, payload := [], tile := 1 })).tile 0).fabric.out.any (fun o => o.req.id == 0 && o.reply.isSome) && !testHolds (withOut none) 1 0,
 (on (fun tl => { tl with fabric := { tl.fabric with queue := [{ work := .request req1, cls := 3, limit := 9, order := 4 }] } }) |>.tile 0).fabric.queue.any (fun w => w.order == 4),
 (bridges p0.n 7).contains 3 && bridgeUp p0 7 3, ((onTile 7 (fun tl => { tl with boot := { tl.boot with marking := true } }) p0).tile 7).boot.marking,
 online p0 7 && online p0 0 && (p0.tile 7).fabric.learned.getD 0 0 != (p0.tile 0).boot.incarnation,
 (p0.tile 7).boot.state == .online, ((inState .restarting).tile 7).boot.state == .restarting, ((inState .holding).tile 7).boot.state == .holding && awake p0]
  id = true := by decide +kernel

def grp (g : Group) (f : Tile → Tile := id) : Pkg := onTile 7 (fun tl => f (tl.onGroup 7 (fun _ => g))) p0
def running : Group := { enabled := true, n := 1, working := true }
def dueSlot : Pkg := grp running (Tile.onSlot 511 (fun x => { x with desc := (slotDescReset ^^^ 0x3000) ||| 0x706, due := true }))
def dueMachine : Pkg := grp running (Tile.onMachine 255 (fun x => { x with image := [0x40, 1, 1, 7], due := true }))
/-- States and operands that meet the hypotheses of `Obligations.LoopEventsRun`. -/
theorem witness_LoopEventsRun : List.all (α := Bool)
  [(boundaryDue (grp running) 7 7) == some 0 && online (grp running) 7 && (((boundarySteps 7 (grp running)).tile 7).group 7).enabled && (((boundarySteps 7 (grp running)).tile 7).group 7).latchDoneAt.isNone,
 ((grp { running with awaited := [5] }).tile 7).group 7 |>.awaited |> (· == [5]), slotReady dueSlot 7 511, !slotReady (grp running (Tile.onSlot 511 (fun x => { x with late := true }))) 7 511,
 machineReady dueMachine 7 255 && !((dueMachine.tile 7).machine 255).late, (((grp running (Tile.onMachine 255 (fun x => { x with late := true }))).tile 7).machine 255).late,
   !asleep p0, online p0 7, ((on (fun tl => { tl with gov := { tl.gov with settling := true } })).tile 0).gov.settling, !p0.inReset,
 (sh (fun x => { x with rtc := { secs := 59 } })).sh.rtc.secs.toNat % 60 != 0, p0.sh.rtc.sub == 0 && p0.sh.rtc.secs == 0, !(p0.tile 7).supply.stopBath]
  id = true := by decide +kernel

def withChan (f : Chan → Chan) : Pkg := onTile 7 (Tile.onChan 31 f) p0
def drv : Chan := { cfg := chanCfgReset ||| 0x09 ||| (1#256 <<< 56) ||| (5#256 <<< 80), out := .run, drive := { cmd := 24000 } }
def ch7 (p : Pkg) : Chan := (p.tile 7).chan 31
/-- States and operands that meet the hypotheses of `Obligations.ChannelEventsRun`. -/
theorem witness_ChannelEventsRun : List.all (α := Bool)
  [(ch7 p0).drive.cmp != true, (ch7 (withChan (fun x => { x with cfg := chanCfgReset ||| 0x10, out := .run }))).mode == 0x10 && senses (ch7 (withChan (fun x => { x with cfg := chanCfgReset ||| 0x10, out := .run }))),
 !(ch7 p0).prot.isolated, (ch7 (withChan (fun x => { x with prot := { x.prot with isolated := true } }))).prot.isolated, !(p0.tile 7).supply.vhvLow,
 stageOn drv, effMode { drv with prot := { drv.prot with tripped := true } } != 0, retryTicks drv != 0, stageOn { drv with prot := { drv.prot with attempts := 255 } },
 stageOn drv && padOf 0 ((withChan (fun _ => drv)).tile 7) 31 == .current 24000 && 1000 < padCommand drv, effMode { gateChan with out := .run } == 0x18,
 drv.prot.attempts != 1 && stageOn { drv with prot := { drv.prot with attempts := 255 } },
 (let x : Chan := { drv with prot := { drv.prot with tripped := true } }
  let q := advanceTo (x.prot.tripAt + retryTicks x) (withChan (fun _ => x))
  !x.prot.faults.getLsbD fLatched && effMode x != 0 && retryTicks x != 0 && !thermalDefers q 7 31),
 !gateChan.prot.isolated && !gateChan.prot.vhvOff, ({ drv with out := .hold } : Chan).out == .hold, !p0.inReset]
  id = true := by decide +kernel

def seqE : BitVec 64 := 0
def adcIn (a : Adc) : Pkg := onTile 7 (fun tl => { tl with conv := { tl.conv with b := a, settled := 7 } }) p0
def armed : Adc := { reg := { entries := [seqE], mode := 3, trig := 0x9F, state := .armed } }
def inject : Adc := { inj := { entries := [seqE], mode := 3, trig := 1, state := .armed } }
def overlapped : Adc := { ended := [{ inj := true, idx := 31, entry := seqE, ref := 2, began := 0, last := 40 }] }
def runs : Adc := { reg := { entries := [seqE], mode := 2, state := .running } }
def eng (x : Engine) (p : Pkg := p0) : Pkg := onTile 7 (fun tl => { tl with engines := [(7, x)] }) p
def chopping : Engine := { phase := .running, program := 0, gateA := false, run := { chop := true, endAt := 10000000, toff := 100 } }
def win : Window := { askedAt := 0, endAt := 100000, rate := 0, depth := 10, gain := 0, opened := true }
def windowed : Engine := { phase := .running, program := 0, run := { window := some win } }
def trk (x : Tracker) : Pkg := onTile 7 (fun tl => { tl with trackers := [(1, x)] }) p0
/-- States and operands that meet the hypotheses of `Obligations.EngineEventsRun`. -/
theorem witness_EngineEventsRun : List.all (α := Bool)
  [(let p1 := catchUp 7 (adcIn armed).now (adcIn armed)
    online p1 7 && ((p1.tile 7).adc true).reg.state == .armed && ((p1.tile 7).adc true).reg.trig == 0x9F),
   online (adcIn overlapped) 7 && !(((adcIn overlapped).tile 7).adc true).ended.isEmpty,
   (((adcIn inject).tile 7).adc true).inj.mode == 3 && (((adcIn inject).tile 7).adc true).inj.state != .stopped && (((adcIn inject).tile 7).adc true).inj.trig == 1,
   online (adcIn runs) 7 && runs.ended.isEmpty && runs.busy && !runs.reg.entries.isEmpty && runs.reg.entry == seqE,
   (3 : BitVec 2) != 0 && !p0.inReset && (2 : BitVec 2) != 0 && (2 : BitVec 2) != 3,
   (((eng chopping).tile 7).engine 7).phase == .running,
   (let p := eng chopping
    let d := Nat.max (chopping.run.tOff + chopping.run.toff) (chopping.run.tOn + 20 * usTicks)
    d < chopping.run.endAt && !chopping.gateA && chopping.run.chop && !chopCmp (advanceTo d p) 7 7),
   windowed.phase == .running && windowed.run.window == some win && win.opened && (sampleDue 0 win).2 ≤ win.endAt,
   ({ phase := .shutter } : Engine).phase == .shutter && (((eng { phase := .shutter }).tile 7).engine 7).phase == .shutter,
   online p0 7 && (((trk { state := .sync }).tile 7).tracker 1).state == .sync,
   firstFiring (((trk { firings := [{ at_ := 9, engine := 7, program := 15 }, { at_ := 3, engine := 0, program := 0 }] }).tile 7).tracker 1).firings == some 3]
  id = true := by decide +kernel

def stp (x : Stepper) : Pkg := onTile 7 (fun tl => { tl with steppers := [(3, x)] }) p0
def fanP (x : Fan) : Pkg := onTile 7 (fun tl => { tl with fans := [(3, x)] }) p0
def fanR : Fan := { cfg := fanTach, state := .running, edges := [100, 50], goodSince := some 0, attempts := 1 }
/-- States and operands that meet the hypotheses of `Obligations.MotionEventsRun`. -/
theorem witness_MotionEventsRun : List.all (α := Bool)
  [(((stp { state := .moving }).tile 7).stepper 3).state == .moving, (((stp { state := .dwell }).tile 7).stepper 3).state == .dwell,
   (((stp { state := .homing }).tile 7).stepper 3).state == .homing,
   (let x := ((stp { state := .standstill, holdAt := some 5 }).tile 7).stepper 3; x.holdAt == some 5 && x.state == .standstill),
   fanLive (fanP fanR) 7 3 && fanR.samples.isEmpty,
   fanLive (fanP { fanR with samples := [(0, 0, none, none)] }) 7 3 && p0.now == 0,
   fcTach fanR.cfg == some 31 && (tachLostDue fanR).isSome,
   fanLive (fanP { fanR with state := .starting }) 7 3, fanLive (fanP { fanR with state := .backoff }) 7 3,
   fanLive (fanP { fanR with state := .openLoop }) 7 3, fanLive (fanP { fanR with lostAt := some 1 }) 7 3,
   fanR.goodSince == some 0 && fanR.state == .running && fanR.attempts != 0 && !fanR.suspended,
   fanLive (fanP { fanR with state := .baseline, capture := some { ctx := c0 } }) 7 3]
  id = true := by decide +kernel

def at7 (f : Tile → Tile) : Pkg := onTile 7 f p0
def planOn : Pkg := sh (fun x => { x with planner := { x.planner with record := some (5 ||| (60#256 <<< 16) ||| (10#256 <<< 32) ||| (2#256 <<< 48) ||| (1#256 <<< 56)) } })
def br1 : Plan := { id := 1, bracket := 0, supply := [], mask := 0, zones := [], start := 0, len := 0 }
def evald : Eval := { n := 0, civil := 0, brackets := [br1], nodes := [(7, [])], zones := [], setpoints := [], sums := [] }
def ringP : Ring := { desc := BitVec.ofNat 128 (2 + 65536 * 4 + 0x70000 * 2 ^ 32 + 86400000 * 2 ^ 64) }
def withEnt (e : Entropy) : Pkg := at7 (fun tl => { tl with entropy := e })
def withAdvice : Pkg := on (fun tl => { tl with fabric := { tl.fabric with
  out := [{ req := { id := 0, origin := 0, tile := 7, cls := 1, inc := 1, purpose := .advice, op := .advice 5 }, sentAt := 0, limit := 9 }] } })
/-- Samples that alternate pass the health tests; samples that are all 0 fail them. -/
def alternating : BitVec 1024 := BitVec.ofNat 1024 (2 ^ 1024 / 3)
/-- States and operands that meet the hypotheses of `Obligations.PredictorEventsRun`. -/
theorem witness_PredictorEventsRun : List.all (α := Bool)
  [(((at7 (fun tl => { tl with counters := { tl.counters with tests := [(c0, 31)] } })).tile 7).counters.tests.head?).isSome, online p0 7,
   awake planOn && prEnable (planRec planOn) && online planOn (planCoord planOn),
   evald.brackets[evald.done.length]? == some br1 && evald.nodes.all (fun n => online p0 n.1) && online p0 (planCoord p0) && evald.done.length + 1 == evald.brackets.length,
   (adviceOut p0 7 0).isNone && online p0 7, (adviceOut withAdvice 7 5).isSome && awake withAdvice,
   adviceLapse { latent := some (1, 9), fixedUntil := some 5 } == some 5, adviceLapse { latent := some (1, 5), fixedUntil := some 9 } == some 5,
   ringP.trigger == 2 && ringP.param != 0 && ((at7 (fun tl => { tl with rings := { tl.rings with rings := [(32767, ringP)] } })).tile 7 |>.ring? 32767) == some ringP,
   ([{ ring := 32767, at_ := 0, limit := 9 }] : List RingWait).any (fun w => w.ring == 32767 && w.got.isNone),
   (((at7 (fun tl => { tl with counters := { tl.counters with ctrs := [(7, { mode := 2 })] } })).tile 7).ctr 7).mode == 2,
   ((at7 (fun tl => { tl with counters := { tl.counters with carries := [(7, true)] } })).tile 7).counters.carries.any (fun y => y.1 == 7),
   awake p0 && !(p0.tile 7).entropy.failed && (p0.tile 7).boot.state != .offline && !(p0.tile 7).entropy.started && !(healthTests (p0.tile 7).entropy alternating).2.2,
   ((withEnt { started := true }).tile 7).entropy.started && !(healthTests { started := true } alternating).2.2, (healthTests (p0.tile 7).entropy 0).2.2,
   ([{ ctx := c0, bytes := 256, until_ := 5 }] : List EntropyWait).length == 1,
   !(sh (fun x => { x with policyPend := [{ port := 5, policy := {}, at_ := 4, ctx := c0 }] })).sh.policyPend.isEmpty]
  id = true := by decide +kernel

/-- States and operands that meet the hypotheses of `Obligations.SupplyEventsRun`. -/
theorem witness_SupplyEventsRun : List.all (α := Bool)
  [awake p0 && online p0 7 && online p0 p0.lead,
   ((sh (fun x => { x with permits := { x.permits with copyAt := [(0xFFFFFF, 5)] } })).sh.permits.copyAt.find? (bits (0x00FFFFFF : Handle) 23 0)) == some 5,
   ((sh (fun x => { x with permits := { x.permits with permits := [(3, { permitted := true })] } })).sh.permits.permits.getD 3 Permit.reset).permitted,
   !(p0.tile 7).supply.powerFail, !(p0.tile 7).supply.stopBath, (p0.tile 7).supply.holdCharged,
   ((at7 (fun tl => { tl with supply := { tl.supply with holdup := true } })).tile 7).supply.holdup]
  id = true := by decide +kernel

def downSt : State := { up with pkg := { p0 with inReset := true } }
def dark (w : Bool) : Pkg := sh (fun x => { x with dark := { x.dark with dark := true, waking := w } })
def darkAsked : Pkg := on (fun tl => { tl with points := tl.points.set (key 7 4095) { value := 65536, time := 1, q := .good } })
/-- States and operands that meet the hypotheses of `Obligations.ResetEventsRun`. -/
theorem witness_ResetEventsRun : List.all (α := Bool)
  [!up.begun.pkg.inReset, downSt.begun.pkg.inReset && State.reset.begun.pkg.inReset, tapForces .highz && !tapForces .bypass,
   tapForces ((onTile 7 (fun tl => { tl with boot := { tl.boot with tap := .extest } }) p0).tile 7).boot.tap,
   (dark false).sh.dark.dark && !(dark false).sh.dark.waking && !(dark false).inReset && mayWake .key (dark false) && mayWake .rtc (dark false)
     && mayWake .hostCs (dark false),
   (dark true).sh.dark.waking && !(dark true).inReset && mayWake .key (dark true),
   darkTaken true (advanceToMultiple secTicks darkAsked) && !darkTaken false (advanceToMultiple secTicks darkAsked)]
  id = true := by decide +kernel

def sk : List Byte := List.replicate 32 7
def linkP (st : LinkState) (far : Bool := false) (f : Tether → Tether := id) : Pkg :=
  { on (fun tl => { tl with entropy := { tl.entropy with ready := true, pool := zeros 512 } }) with
    straps := if far then 9 else 8
    sh := { p0.sh with tether := f { state := st, pairKey := some sk, session := { key := sk } } } }
/-- A sound frame of this type to package `p`, tagged with the key of its type. -/
def frameTo (p : Pkg) (ft : Byte) (pl : List Byte) : TFrame :=
  { sound := true, cls := 0, seq := 0, payload := pl, tag := frameTag (frameKey p.sh.tether ft) (!isFar p) 0 ft 0 pl }
def okFrame (p : Pkg) (ft : Byte) (len : Bool) (pl : List Byte) : Bool := frameVerdict p ft len (frameTo p ft pl) == .valid 0
def reqF : FabricReq := { id := 5, origin := 0, tile := 8, cls := 1, inc := 0, purpose := .permitCopy, op := .probe }
/-- States and operands that meet the hypotheses of `Obligations.TetherEventsRun`. -/
theorem witness_TetherEventsRun : List.all (α := Bool)
  [tetherRuns (linkP .up) && hasTether (linkP .up) && isFar (linkP .up true) && linkOpen (linkP .up).sh.tether,
   okFrame (linkP .handshake) ftHello ((zeros 28).length == 28) (zeros 28) && !linkOpen (linkP .handshake).sh.tether,
   okFrame (linkP .up) ftIdle ([] : List Byte).isEmpty [], okFrame (linkP .up) ftTime ((zeros 24).length == 24) (zeros 24),
   okFrame (linkP .suspect true) ftClose (([1, 0, 0, 0] : List Byte).length == 4) [1, 0, 0, 0],
   okFrame (linkP .up) ftRequest true [] && !(linkP .up).sh.tether.serving.contains reqF.id && reqF.op != .unpair,
   okFrame (linkP .up) ftReply true [] && (linkP .up false (fun te => { te with requests := [(5, reqF)] })).sh.tether.requests.any (fun x => x.1 == 5),
   okFrame (linkP .rejoining) ftAnnounce ((zeros 8).length == 8) (zeros 8) && linkOpen (linkP .rejoining).sh.tether,
   okFrame (linkP .down true (fun te => { te with pairKey := none })) ftPair ((zeros 32).length == 32) (zeros 32),
   sourceReady (linkP .down true) && (flashCheck [(linkP .down true).lead] (linkP .down true)).1.isNone,
   okFrame (linkP .down false (fun te => { te with pairKey := none, pairing := some { priv := sk, pub := sk, ctx := none, startAt := 0 } })) ftPair true (zeros 32),
   mayGreet (linkP .down) && (linkP .down).sh.tether.session.helloAt.isNone, mayGreet (linkP .down false (fun te => { te with session := { te.session with helloAt := some 3 } })),
   !isFar (linkP .up) && (linkP .up).sh.tether.silent.isNone, (linkP .up).sh.tether.state == .up && awake (linkP .up),
   (linkP .rejoining false (fun te => { te with session := { te.session with announced := true } })).sh.tether.session.resync.isEmpty]
  id = true := by decide +kernel

def item1 : List Byte := [1, 6, 0, 0, 0, 0, 2, 0, 100, 0, 0, 0] ++ le 4 0x70000 ++ zeros 16
def list1 : List Byte := [0x21, 0, 1, 0] ++ zeros 12 ++ item1
def rsP (r : RsState) : Pkg := onTile 0 (setActive 3 3 list1) (sh (fun x => { x with bus1 := r }))
def client : RsState := { cfg := 3, mode := 3, running := true }
def poll1 : Polling := { item := 0, bytes := item1 }
def crcFrame (b : List Byte) : List Byte := b ++ le 2 (modbusCrc b)
def mst : RsState := { cfg := BitVec.ofNat 224 (1 + 127 * 2 ^ 64), mode := 1, running := true }
def waits9 : RsState := { mst with mstp := { phase := .waiting 9, until_ := some 1000 } }
/-- A sound frame from station 9 to station 127. -/
def mstpTo (ft : Byte) (data : List Byte) : MstpFrame :=
  { ftype := ft, dst := 127, src := 9, headerCrc := headerCrc (mstpHeader ft 127 9 data.length), data := data, dataCrc := dataCrc data }
/-- States and operands that meet the hypotheses of `Obligations.BusEventsRun`. -/
theorem witness_BusEventsRun : List.all (α := Bool)
  [busAwake (rsP {}), ({ cfg := 3, mode := 3 } : RsState).mode != 0, !(rsP { mode := 3 }).sh.bus1.running,
   tcOn (1 : BitVec 224) && !(sh (fun x => { x with t1s := { cfg := 1 } })).sh.t1s.running,
   crcRight (crcFrame [9, 3, 0, 0, 0, 1]) && !wasCut (rsP {}) (rsTicks 2 8) && leAt (crcFrame [9, 3, 0, 0, 0, 1]) 0 1 == rcAddress (BitVec.ofNat 224 (9 * 2 ^ 64)),
   crcRight (crcFrame [0, 6, 0, 0]) && leAt (crcFrame [0, 6, 0, 0]) 0 1 == 0,
   (portTable (rsP client) 1 .bus1) == list1 && plItem list1 0 == item1 && 0 < plCount list1 && piServer item1 != 0,
   piWrites item1 && piOnChange item1 && ({ client with seen := [(0, (1, .good))] }.seen.find? 0).any (fun x => x != sourceNow (rsP client) item1),
   !(piWrites item1 && piOnChange item1 && (client.seen.find? 0).any (fun x => x != sourceNow (rsP client) item1)),
   client.sending.isNone && client.polling.isNone, poll1.asking.isNone && poll1.deadline.isNone,
   rsListens (rsP { client with polling := some { poll1 with deadline := some 4 } }) .bus1 3 && crcRight (crcFrame [1, 0x86, 2]),
   rsListens (rsP mst) .bus1 1 && rcAddress mst.cfg == 127 && (127 : Byte).toNat == rcAddress mst.cfg,
   rsListens (busDue (rsP mst)) .bus1 1 && nodeFree (rsOf (busDue (rsP mst)) .bus1),
   ftExpecting == 5 && ftNotExpecting == 6 && [ftExpecting, ftNotExpecting, ftToken, ftPoll, ftTestRequest].all (fun ft =>
     frameSound (mstpTo ft [1, 2]) && frameSound (mstpTo ft []) && !wasCut (busDue (rsP mst)) (rsTicks mst.cfg (frameChars (mstpTo ft [1, 2])))),
   (mstpTo ftToken []).dst.toNat == rcAddress mst.cfg, rsListens (busDue (rsP waits9)) .bus1 1 && (rsOf (busDue (rsP waits9)) .bus1).mstp.phase == .waiting 9,
   (rsP { mst with reply := some (5, 9) }).sh.bus1.reply == some (5, 9) && rsListens (rsP { mst with reply := some (5, 9) }) .bus1 1,
   rsListens (rsP mst) .bus1 1 && mst.mstp.phase == .idle, mst.sending.isNone && mst.mode != 0 && mst.running,
   (rsP { mst with sending := some (some c0, [5, 9]) }).sh.bus1.sending.isSome,
   (let r : RsState := { client with sending := some (none, [1]), polling := some poll1 }; r.sending.isSome && r.polling == some poll1)]
  id = true := by decide +kernel

def t1 (r : T1sState) : Pkg := sh (fun x => { x with t1s := r })
def t1run : T1sState := { cfg := 1 ||| (3#224 <<< 8) ||| (5#224 <<< 16), running := true }
def ethF : List Byte := List.replicate 6 0xFF ++ zeros 54
def svc (v : Service) : Pkg := sh (fun x => { x with service := v })
def svcUp : Service := { attached := true, baud := some 115200 }
/-- States and operands that meet the hypotheses of `Obligations.T1sServiceEventsRun`. -/
theorem witness_T1sServiceEventsRun : List.all (α := Bool)
  [busAwake (t1 t1run) && 60 ≤ ethF.length && ethF.length ≤ 1514 && !wasCut (t1 t1run) (t1sTicks 64), (t1sMatch { t1run with cfg := 0xFFFFFFFF } ethF).isSome,
   !(tcPlca ({ t1run with cfg := 1 } : T1sState).cfg), followsPlca t1run, ({ t1run with sending := some (c0, zeros 14), collisions := 15 } : T1sState).sending.isSome,
   serviceWorks (svc { attached := true }) && ({ attached := true } : Service).baud.isNone, !(svc {}).sh.service.attached, serviceWorks (svc svcUp) && svcUp.baud != none,
   pkLen nopPacket % 4 == 0 && pkLen nopPacket ≤ 1016 && nopPacket.length == 12 + pkLen nopPacket
     && (packetError (onPkg (onService (fun v => { v with lastAt := 0 })) { up with pkg := svc svcUp }) true nopPacket).isNone]
  id = true := by decide +kernel

def pan (x : Panel) : Pkg := sh (fun y => { y with panel := x })
def waveB : List Byte := [0x22, 2, 0, 0, 0, 0, 0, 0, 1, 2, 0, 0, 2, 1, 0, 0]
def keyP (k : Keys) : Pkg := sh (fun y => { y with keys := k })
/-- States and operands that meet the hypotheses of `Obligations.PanelUpdateEventsRun`. -/
theorem witness_PanelUpdateEventsRun : List.all (α := Bool)
  [panelServed (pan {}), readyToStart { waiting := some (c0, 0, 15, true) }, !readyToStart { running := some (c0, 0, waveB, 0, 5) } && 0 + 1 < wvPhases waveB,
   wvPhases waveB ≤ 1 + 1 && !({} : Panel).stopAtPhase,
   (let x : Panel := { waiting := some (c0, 0, 15, true), running := some (c0, 0, waveB, 0, phaseTicks) }; panelServed (pan x) && readyToStart x && x.startAt ≤ phaseTicks),
   panelOn.crackEn && (pan { panelOn with waiting := some (c0, 0, 15, false) }).sh.panel.waiting.isSome && online p0 0,
   !(pan {}).sh.panel.rails, (pan { rails := true }).sh.panel.rails, (pan {}).sh.panel.running.isNone, bit (keyP { cfg := 7 }).sh.keys.cfg 0,
   bit (keyP { accepted := 0x8000 }).sh.keys.accepted 15, encOn { cfg := 7 } true, encOn { cfg := 7 } false,
   (let x := encOf (keyP { cfg := 7, enc1 := { rawB := true } }).sh.keys true; x.rawB != x.b),
   (withUpdate { erasing := some (c0, hdr1) }).sh.update.erasing.isSome,
   updateBusy (withUpdate { state := .activating, order := [7] }) && (withUpdate { state := .activating, order := [7] }).sh.handover.isNone,
   (withUpdate { retryAt := some 4 }).sh.update.retryAt == some 4, (withUpdate { state := .window }).sh.update.state == .window]
  id = true := by decide +kernel

/-- The outcome is a next state. -/
def answers (o : Host.Outcome State Fault Refusal) : Bool :=
  match o with
  | .next _ => true
  | _ => false
/-- States and operands that meet the hypotheses of `Obligations.QueueHeadRuns`. -/
theorem witness_QueueHeadRuns : List.all (α := Bool)
  [({ up with pending := [.nop c0, .fix c0] } : State).pending == [.nop c0, .fix c0],
   up.pending.isEmpty && (nextBulk up).isNone && (nextStart up).isNone]
  id = true := by decide +kernel

def small : State := upWith (fun p => { p with ident := { p.ident with variant := .lx82 } })
/-- States and operands that meet the hypotheses of `Obligations.OnlyAbsentTilesStop`. -/
theorem witness_OnlyAbsentTilesStop : List.all (α := Bool)
  [tilePresent (.fix c0) small && tilePresent (.offlineMark 1) small, rowTile (.offlineMark 2) == some 2 && small.pkg.n == 2, rowTile (.bootComplete 7 true) == some 7]
  id = true := by decide +kernel

/-- States and operands that meet the hypotheses of `Obligations.CommandsSleepInReset`. -/
theorem witness_CommandsSleepInReset : List.all (α := Bool)
  [(commandParts (.nop c0)).isSome && !awake State.reset.pkg && answers (exec (.nop c0) State.reset)]
  id = true := by decide +kernel

def cFar : Ctx := { c0 with tile := 8 }
def farP (n : Nat) (st : LinkState) : Pkg := sh (fun x => { x with tether := { x.tether with state := st, status := { x.tether.status with farSeen := true, farTiles := n } } })
/-- States and operands that meet the hypotheses of `Obligations.FarCommandsCross`. -/
theorem witness_FarCommandsCross : List.all (α := Bool)
  [awake p0 && (localOf p0 8).isNone && !farPresent p0 8, farPresent (farP 8 .lost) 15 && !linkOpen (farP 8 .lost).sh.tether, !farPresent (farP 2 .up) 10,
   farPresent (farP 2 .rejoining) 9 && !pureRead 0x00 [], farPresent (farP 2 .rejoining) 8 && linkOpen (farP 2 .rejoining).sh.tether && pureRead 0x01 [],
   farPresent (farP 2 .suspect) 8 && linkOpen (farP 2 .suspect).sh.tether, (commandParts (.nop cFar)).isSome]
  id = true := by decide +kernel

def h0 : Handle := 0x70000
def denied : Pkg := on (fun tl => { tl with policies := [(0, { epoch := 2, commands := 0, rules := [] })] })
def stopped : Pkg := onTile 7 (fun tl => { tl with boot := { tl.boot with state := .offline } }) p0
/-- States and operands that meet the hypotheses of `Obligations.SharedChecksRefuse`. -/
theorem witness_SharedChecksRefuse : List.all (α := Bool)
  [awake p0 && localOf p0 7 == some 7 && servingTile p0 0x00 7 == 7 && !classAdmitted 0x00 0, classAdmitted 0x00 2 && targetAdmitted 0x00 7,
   classAdmitted 0x03 2 && !targetAdmitted 0x03 2 && (localOf p0 2).isSome, !online stopped 7 && !actsOnStopped 0x00 [], actsOnStopped 0x02 [2, 0, 0, 0] && !cutOff p0 7,
   eiOf 0x11 (le 4 0x70000 ++ le 4 0 ++ [2, 0, 0, 0]) == 2 && (p0.tile 7).boot.incarnation == 1, !lengthOk 0x00 [0] && lengthOk 0x00 [],
   eiOf 0x02 [0, 1, 0, 0] == 1 && lengthOk 0x02 [0, 1, 0, 0] && !reservedOk 0x02 [0, 1, 0, 1],
   reservedOk 0x00 [] && !pureRead 0x00 [] && policyMoved denied 0 c0 0x00 []]
  id = true := by decide +kernel

/-- States and operands that meet the hypotheses of `Obligations.RefusedCommandsHaveNoEffect`. -/
theorem witness_RefusedCommandsHaveNoEffect : List.all (α := Bool)
  [targetError p0 { c0 with cls := 0 } 0x00 [] 0 == some stBadParam && stBadParam != stPolicyChanged && answers (exec (.nop { c0 with cls := 0 }) up),
   targetError p0 c0 0x08 [4, 0, 0, 0, 0] 0 == some stBadLength]
  id = true := by decide +kernel

/-- States and operands that meet the hypotheses of `Obligations.PureReadsChangeNothing`. -/
theorem witness_PureReadsChangeNothing : List.all (α := Bool)
  [answers (exec (.identify c0) up), answers (exec (.pointRead c0 (BitVec.ofNat 32 31)) up), answers (exec (.pointRead c0 (BitVec.ofNat 32 36)) up),
   (List.range up.pkg.n).any (performs (.nop c0) up.start), answers (exec (.governor c0 0 0 0 1 0) up), answers (exec (.tileState c0 0 0 0) up)]
  id = true := by decide +kernel

/-- States and operands that meet the hypotheses of `Obligations.UnitCommandsKeepTheRest`. -/
theorem witness_UnitCommandsKeepTheRest : List.all (α := Bool)
  [pf (.fix c0) up.start && answers (exec (.fix c0) up), pf (.loopClearFlags c0 511 0 0) up.start, pf (.pointRelease c0 h0 0 0) up.start,
   pf (.channelConfig c0 31 0 0 0) up.start, pf (.stepperStop c0 3 0 0) up.start, pf (.selfTest c0 4) up.start,
   pf (.loopMode c0 511 0 0 0) up.start, pf (.machineControl c0 255 2 0) up.start, pf (.tableCommit c0 3 0 48 0 0) up.start,
   pf (.policyLoad c0 5 0 32768 (zeros 8)) up.start, pf (.permitConfig c0 3 0 15) up.start, pf (.updateEnd c0 0) up.start,
   pf (.tetherPair c0 1 0) up.start, pf (.planVeto c0 1) up.start, pf (.ringConfig c0 7 0) up.start]
  id = true := by decide +kernel

/-- States and operands that meet the hypotheses of `Obligations.TileEventsKeepTheRest`. -/
theorem witness_TileEventsKeepTheRest : List.all (α := Bool)
  [answers (exec (.limitTrip 7 31) up), answers (exec (.vhvThreshold 7 true) up), answers (exec (.budgetTrip 0 3 []) up),
   answers (exec (.governorWindow 7) up), answers (exec (.counterWrap 0 7) up), answers (exec (.entropyHealthFailure 0) up),
   answers (exec (.dieTemperature 7 0 0 0 0) up), answers (exec (.adviceExpiry 0) up)]
  id = true := by decide +kernel

/-- States and operands that meet the hypotheses of `Obligations.UnitEventsKeepTheRest`. -/
theorem witness_UnitEventsKeepTheRest : List.all (α := Bool)
  [answers (exec .jabber up), answers (exec .panelPhase up), answers (exec (.svcDetN false) up), answers (exec .policySwitch up),
   answers (exec .tetherLost up), answers (exec .planningBoundary up), answers (exec (.permitPulse 3) up), answers (exec (.thermalBudget []) up)]
  id = true := by decide +kernel

/-- States and operands that meet the hypotheses of `Obligations.HostPortIsKept`. -/
theorem witness_HostPortIsKept : List.all (α := Bool)
  [answers (exec (.subProd 4) up), answers (exec (.hpInvalidCommand 0) up), answers (exec (.beacon) up)]
  id = true := by decide +kernel

/-- States and operands that meet the hypotheses of `Obligations.HostWritesReadBack`. -/
theorem witness_HostWritesReadBack : List.all (α := Bool)
  [up.sound && hostAnswers up.begun, (([1, 2, 3] : List Byte).length ≤ 65536), (writeRegister 0x1000 0).isNone && (writeRegister 0x10FFC 0).isNone && (writeRegister 0 0).isNone]
  id = true := by decide +kernel

/-- States and operands that meet the hypotheses of `Obligations.BadRegisterWritesAreCounted`. -/
theorem witness_BadRegisterWritesAreCounted : List.all (α := Bool)
  [hostAnswers up.begun, decide ((2 : Word).toNat % 4 ≠ 0), decide (65536 < ((65540 : Word) - up.hp.rings.subCons).toNat),
   decide ((up.hp.rings.compProd - up.hp.rings.compCons).toNat < ((4 : Word) - up.hp.rings.compCons).toNat),
   decide ((3 : Word).toNat < 4 ∧ 15 < (16 : Word).toNat ∧ 1 < (2 : Word).toNat ∧ 0xFFFF < (0x10000 : Word).toNat)]
  id = true := by decide +kernel

def pkOk (pkt : List Byte) : Bool := mayTake (subWith pkt 12) && frames (pkLen pkt) 12
  && ringGet (subWith pkt 12).hp.rings.subMem 0 12 == pkt
def badCrc : List Byte := packet 0x00 0 7 0x20 [] |>.set 11 0x55
def crcOk (pkt : List Byte) : Bool := (crc32c (pkt.take (8 + pkLen pkt))).toNat == leAt pkt (8 + pkLen pkt) 4
def dup : State := { subWith nopPacket 12 with hp := { (subWith nopPacket 12).hp with tags := [{ tag := 7, opcode := 0, tile := 0, order := 0, ordered := false }] } }
/-- States and operands that meet the hypotheses of `Obligations.PacketChecksAnswer`. -/
theorem witness_PacketChecksAnswer : List.all (α := Bool)
  [pkOk nopPacket && crcOk nopPacket, pkOk badCrc && !crcOk badCrc, dup.hp.tags.any (fun o => o.tag == pkTag nopPacket),
   (List.replicate 4096 ({ tag := 0, opcode := 0, tile := 0, order := 0, ordered := false } : OutTag)).length == 4096 && pkTag nopPacket == 7,
   pkReserved (packet 0x00 2 7 0x20 []) && crcOk (packet 0x00 2 7 0x20 []), pkClass (packet 0x00 0 7 0 []) == 0, !namable p0 (pkTile (packet 0x00 0 7 0x28 [])),
   !pkReserved nopPacket && pkClass nopPacket != 0 && namable p0 (pkTile nopPacket), !knownOp 0x09, knownOp 0xC0 && !mayIssue false 0xC0, mayIssue false 0xC4 && mayIssue false 0x00,
   !lengthOk 0x01 [0, 0, 0, 0], lengthOk 0x00 [] && !allowedAt denied 0 (.host 7) 0x00 []]
  id = true := by decide +kernel

/-- States and operands that meet the hypotheses of `Obligations.RefreshedSheetIsConsistent`. -/
theorem witness_RefreshedSheetIsConsistent : List.all (α := Bool)
  [hostAnswers up.begun && up.pkg.outbox.isEmpty && up.hp.generation.toNat % 2 == 0]
  id = true := by decide +kernel

/-- States and operands that meet the hypotheses of `Obligations.ObjectNumbersAreChecked`. -/
theorem witness_ObjectNumbersAreChecked : List.all (α := Bool)
  [pf (.permitConfig c0 4 0 0), pf (.channelConfig c0 32 0 0 0), pf (.channelStatus c0 32 0), pf (.channelClear c0 32 0 0), pf (.seqConfig c0 2 0 0 0 []),
   pf (.seqStart c0 2 0 0 0), pf (.seqStatus c0 2 0), pf (.refSelect c0 2 0 0), pf (.loopWrite c0 512 0 0 0), pf (.loopRead c0 512 0), pf (.loopMode c0 512 0 0 0),
   pf (.loopClearFlags c0 512 0 0), pf (.rateGroupConfig c0 8 0 0 0), pf (.machineControl c0 256 0 0), pf (.identControl c0 128 0 0 0), pf (.capacityConfig c0 256 0 0),
   pf (.profileLoad c0 16 0 0 []), pf (.profileFire c0 8 0 0 0 0), pf (.profileFire c0 0 16 0 0 0), pf (.profileCancel c0 8 0 0), pf (.profileStatus c0 8 0),
   pf (.angleConfig c0 2 0 0 0), pf (.angleSchedule c0 2 0 0 []), pf (.stepperConfig c0 4 0 0 0), pf (.stepperMove c0 4 0 0 0), pf (.stepperStop c0 4 0 0),
   pf (.stepperHome c0 4 0 0 0), pf (.fanConfig c0 4 0 0 0), pf (.fanStatus c0 4 0), pf (.fanBaseline c0 4 0 0), pf (.busConfig c0 3 0 0), pf (.busSend c0 3 0 0 []),
   pf (.busStatus c0 3 0), pf (.counterConfig c0 8 0 0 0 0), pf (.counterRead c0 9 0), pf (.policyLoad c0 6 0 0 (zeros 8)), pf (.policyRead c0 6 0)]
  id = true := by decide +kernel

/-- States and operands that meet the hypotheses of `Obligations.RingResetEmptiesTheRing`. -/
theorem witness_RingResetEmptiesTheRing : List.all (α := Bool)
  [pf (.ringReset c0 32767) (withRing ring1), (ringIdError (withRing ring1) 0 32767).isNone && ((withRing ring1).tile 0).ring? 32767 == some ring1, 1 < ring1.cap,
   ((withRing ring1).tile 0).rings.queued == 0]
  id = true := by decide +kernel

/-- States and operands that meet the hypotheses of `Obligations.EventReadClearsWhatItReturns`. -/
theorem witness_EventReadClearsWhatItReturns : List.all (α := Bool)
  [pf (.eventRead c0), awake denied && localOf denied c0.tile.toNat == some 0 && servingTile denied 0x74 0 == 0 && targetError denied c0 0x74 [] 0 == some stPolicyChanged]
  id = true := by decide +kernel

def masked : Pkg := onTile 0 (fun tl => { tl with events := { tl.events with masked := 1 <<< 127 } }) p0
/-- States and operands that meet the hypotheses of `Obligations.EventMaskHidesTheEvent`. -/
theorem witness_EventMaskHidesTheEvent : List.all (α := Bool)
  [pf (.eventMask c0 3 0 0x80000000), (masked.tile 0).events.masked.getLsbD 127 && (onlineRings masked 0 (fun r => r.trigger == 3 && bits r.param 6 0 == 127)).isEmpty && online masked 0 && (snoopers masked 0 (key 13 127)).isEmpty]
  id = true := by decide +kernel

def full : List Flight := (List.range 256).map (fun k => { work := .command (.nop c0), cls := 3, part := 3, order := k })
def fullP (q : Nat) : Pkg := on (fun tl => { tl with fabric := { tl.fabric with flights := full, queue := (List.range q).map (fun k => { work := .command (.nop c0), cls := 3, limit := 0, order := k }) } })
def allFull : Pkg := on (fun tl => { tl with fabric := { tl.fabric with flights := [0, 1, 2, 3].flatMap (fun k =>
  (List.range (partSize k)).map (fun i => { work := .command (.nop c0), cls := k, part := k, order := i })) } })
def outcome (p : Pkg) : Admission := (arrive (.command (.nop c0)) 0 3 0 p).2
/-- States and operands that meet the hypotheses of `Obligations.EntriesStayInTheirPartitions`. -/
theorem witness_EntriesStayInTheirPartitions : List.all (α := Bool)
  [outcome p0 == .served, outcome (fullP 63) == .delayed, outcome (fullP 64) == .refused, [0, 1, 2, 3].all (fun k => partUsed full k ≤ partSize k), (arrive (.command (.nop c0)) 0 0 0 (fullP 0)).2 == .served,
   (arrive (.command (.nop c0)) 0 0 0 allFull).2 == .served && [0, 1, 2, 3].all (fun k => partUsed (allFull.tile 0).fabric.flights k == partSize k)]
  id = true := by decide +kernel

def outSlot (d : BitVec 512) : Slot := { desc := d }
/-- States and operands that meet the hypotheses of `Obligations.LoopOutputsStayInTheirLimits`. -/
theorem witness_LoopOutputsStayInTheirLimits : List.all (α := Bool)
  [dOutLo slotDescReset ≤ dOutHi slotDescReset && dGain slotDescReset == 0xFFFF && dLaw slotDescReset == 0, dLaw (slotDescReset ||| 8) == 8 && dGain (slotDescReset ||| 8) == 0xFFFF]
  id = true := by decide +kernel

/-- States and operands that meet the hypotheses of `Obligations.PointWritesAreReadBack`. -/
theorem witness_PointWritesAreReadBack : List.all (α := Bool)
  [[(0x7 : Nat), 0xB, 0xC].all (fun k => keyClass (handleKey (BitVec.ofNat 32 (k * 0x10000))) == k),
   pf (.pointWrite c0 h0 5 0 0) && (writeError p0 0 c0 h0).isNone && !overridden (p0.tile 0) (handleKey h0),
   pf (.pointWrite c0 0xC0FFF 5 0 0) && (writeError p0 0 c0 0xC0FFF).isNone, (writeError p0 0 c0 0xB0000).isNone,
   pf (.pointWrite c0 (var 4095) 5 0 0) overP && (writeError overP 0 c0 (var 4095)).isNone && overridden (overP.tile 0) (handleKey (var 4095)),
   pf (.pointOverride c0 h0 5 0 0) && (pointError p0 0 h0).isNone && !notWritable p0 0 (handleKey h0),
   pf (.pointRelease c0 (var 4095) 0 0) overP && (pointError overP 0 (var 4095)).isNone]
  id = true := by decide +kernel

def driven : Pkg := onTile 0 (setActive 3 48 [0x31, 0, 0, 0, 2, 0, 0, 0]) (on (fun tl => { tl with chans := [(31, { cfg := chanCfgReset ||| 0x09, out := .run })] }))
def hDrive : Handle := 0x100FB
/-- States and operands that meet the hypotheses of `Obligations.DriveWritesAreClamped`. -/
theorem witness_DriveWritesAreClamped : List.all (α := Bool)
  [pf (.pointWrite c0 hDrive 0xFFFFFFFF 0 0) driven && (writeError driven 0 c0 hDrive).isNone && !overridden (driven.tile 0) (handleKey hDrive),
   handleClass hDrive == 1 && handleIdx hDrive / 8 == 31 && ((driven.tile 0).chan 31).out == .run]
  id = true := by decide +kernel

/-- States and operands that meet the hypotheses of `Obligations.TripsTurnTheStageOff`. -/
theorem witness_TripsTurnTheStageOff : List.all (α := Bool)
  [(7 : TileId).toNat < up.pkg.n && !up.pkg.inReset && stageOn drv && ((withChan (fun _ => drv)).tile 7).chan 31 == drv,
   (engineOn ((withChan (fun _ => drv)).tile 7) 31).isNone && (stepperOn ((withChan (fun _ => drv)).tile 7) 31).isNone
     && (List.range 4).all (fun u => (((withChan (fun _ => drv)).tile 7).fan u).state == .unconfigured),
   engineOn ((eng { chopping with binding := some 31 } (withChan (fun _ => drv))).tile 7) 31 == some 7]
  id = true := by decide +kernel

/-- A command and a request that have crossed a link that is suspect. -/
def crossed : Pkg :=
  let p := linkP .suspect false (fun te => { te with transactions := [{ id := 4, src := .host 7, opcode := 0, tile := 8 }], requests := [(5, req1)] })
  onTile 0 (fun tl => { tl with fabric := { tl.fabric with out := [{ req := req1, sentAt := 0, limit := 9 }] } }) p
/-- States and operands that meet the hypotheses of `Obligations.LostLinkEndsItsTransactions`. -/
theorem witness_LostLinkEndsItsTransactions : List.all (α := Bool)
  [awake crossed && linkOpen crossed.sh.tether && crossed.sh.tether.transactions.length == 1
    && crossed.sh.tether.requests == [(5, req1)] && (crossed.tile 0).fabric.out.any (fun o => o.req == req1)]
  id = true := by decide +kernel

/-- States and operands that meet the hypotheses of `Obligations.EveryStepKeepsTheMachineSound`. -/
theorem witness_EveryStepKeepsTheMachineSound : List.all (α := Bool)
  [State.reset.sound && answers (step State.reset), up.sound && answers (exec (.subProd 4) up)]
  id = true := by decide +kernel

/-- States and operands that meet the hypotheses of `Obligations.CompletionsOverwriteNothing`. -/
theorem witness_CompletionsOverwriteNothing : List.all (α := Bool)
  [up.sound && answers (exec .packetTake (subWith nopPacket 12)) && (subWith nopPacket 12).sound]
  id = true := by decide +kernel

/-- States and operands that meet the hypotheses of `Obligations.CommandsSurviveTheirPackets`. -/
theorem witness_CommandsSurviveTheirPackets : List.all (α := Bool)
  [(Instr.busSend c0 2 0 1012 (zeros 1012)).wf && (commandParts (.busSend c0 2 0 1012 (zeros 1012))).isSome, (Instr.tableLoad c0 0 0 0 0 [0, 0, 0, 0]).wf, (Instr.nop c0).wf]
  id = true := by decide +kernel

/-! The packet and command forms that are not well-formed. -/
theorem smoke_payload_too_short : (Instr.busSend c0 0 0 4 [1, 2, 3]).wf = false := by decide
theorem smoke_payload_length_of_opcode : payloadOk 0x00 [0, 0, 0, 0] = false := by decide
theorem smoke_payload_count_disagrees : payloadOk 0x60 [0, 2, 0, 0, 0, 0, 0, 0] = false := by decide
theorem smoke_class_zero : (Instr.nop { c0 with cls := 0 }).wf = false := by decide
theorem smoke_poll_of_nothing : (Instr.poll 0).wf = false := by decide
theorem smoke_poll_too_long : (Instr.poll 257).wf = false := by decide
theorem smoke_empty_write : (Instr.hostPortWrite 0 []).wf = false := by decide
theorem smoke_valid_command_is_no_invalid_one : (Instr.hpInvalidCommand 0x9A).wf = false := by decide
theorem smoke_bridge_to_itself : (Instr.bridgeParityError 3 3 0).wf = false := by decide
theorem smoke_fourth_repeat : (Instr.bridgeParityError 3 7 4).wf = false := by decide
theorem smoke_announce_to_itself : (Instr.incarnationAnnounce 3 3).wf = false := by decide
theorem smoke_tether_odd_payload : (Instr.hello { sound := true, cls := 0, seq := 0, payload := zeros 27, tag := zeros 8 }).wf = false := by decide
theorem smoke_tether_long_payload : (Instr.idle { sound := true, cls := 0, seq := 0, payload := zeros 132, tag := zeros 8 }).wf = false := by decide +kernel
theorem smoke_tether_short_tag : (Instr.idle { sound := true, cls := 0, seq := 0, payload := [], tag := zeros 7 }).wf = false := by decide
theorem smoke_modbus_short : (Instr.modbusRequest .bus0 [1, 2, 3]).wf = false := by decide
theorem smoke_modbus_long : (Instr.modbusResponse .bus0 (zeros 257)).wf = false := by decide +kernel
theorem smoke_mstp_long : (Instr.mstpDataFrame .bus0 5 127 9 { headerCrc := 0, data := zeros 502 }).wf = false := by decide +kernel
theorem smoke_t1s_short : (Instr.t1sFrame (zeros 59) 0).wf = false := by decide +kernel
theorem smoke_t1s_long : (Instr.t1sFrame (zeros 1515) 0).wf = false := by decide +kernel
theorem smoke_service_short : (Instr.servicePacket (zeros 7)).wf = false := by decide
theorem smoke_service_long : (Instr.servicePacket (zeros 1029)).wf = false := by decide +kernel

/-! One step each, with results from the rules named. -/
/-- What a next state holds. -/
def after {α : Type} (i : Instr) (s : State) (f : State → α) : Option α :=
  match exec i s with
  | .next t => some (f t)
  | _ => none
/-- A write of 5 to DUMMY is kept (R89). -/
theorem test_dummy_written : after (.dummy 5) up (fun t => t.hp.dummy) = some 5 := by decide +kernel
/-- A write of 3 is ignored and counted (R89). -/
theorem test_dummy_refused : after (.dummy 3) up (fun t => (t.hp.dummy, t.hp.counts.errors)) = some (8, 1) := by decide +kernel
/-- With LEAD_SEL high, tile 1 leads, and every tile takes incarnation 1 (R18, R45, R364). -/
theorem test_release : after (.resetRelease 4 false) State.reset (fun t => (t.pkg.sh.lead, (t.pkg.tile 3).boot.incarnation)) = some (1, 1) := by
  decide +kernel
/-- When the first lead has booted, the port answers and the sheet has been refreshed once (R86, R365). -/
theorem test_first_boot : after (.bootComplete 0 true) ((after (.resetRelease 0 false) State.reset id).getD up)
    (fun t => (t.hp.generation, hostAnswers t)) = some (2, true) := by decide +kernel
/-- A tile that the variant does not have stops (R3). -/
theorem test_absent_tile : (match exec (.offlineMark 2) small with | .fault (.absentTile n) => n | _ => 0) = 2 := by decide +kernel
/-- The check value of CRC-32C (R98). -/
theorem test_crc : crc32c [0x31, 0x32, 0x33, 0x34, 0x35, 0x36, 0x37, 0x38, 0x39] = 0xE3069283#32 := by decide +kernel
/-- The shipped safelight table carries its own CRC-32C (R160). -/
theorem test_safelight_crc : safeCrcOf ({} : Tile) = ({} : Tile).flash.safeCrc := by decide +kernel
/-- SHA-256 of the empty string (FIPS 180-4, which R415 names). -/
theorem test_sha : (sha256 []).take 4 = [0xE3, 0xB0, 0xC4, 0x42] := by decide +kernel
/-- The IDENTIFY packet of opcode 0x01 is read as IDENTIFY (R116). -/
theorem test_packet_identify : commandOf c0 0x01 [] = some (.identify c0) := by decide +kernel
/-- CHANNEL_STATUS of channel 31, from its payload bytes (R121). -/
theorem test_packet_channel_status : commandOf c0 0x21 [31, 0, 0, 0] = some (.channelStatus c0 31 0) := by decide +kernel
/-- POINT_WRITE: handle, value, expected incarnation (R119). -/
theorem test_packet_point_write : commandOf c0 0x11 [0x03, 0, 0x01, 0, 0xE8, 0x03, 0, 0, 1, 0, 0, 0] = some (.pointWrite c0 0x10003 1000 1 0) := by decide +kernel
/-- An invalid command byte is counted and nothing else (R82). -/
theorem test_invalid_command : after (.hpInvalidCommand 0) up (fun t => t.hp.counts.errors) = some 1 := by decide +kernel
/-- A power-fail warning raises event 70 (R360). -/
theorem test_power_fail : after (.powerFailWarning 0 true) up (fun t => ((t.pkg.tile 0).events.raised.getLsbD 70)) = some true := by decide +kernel

end Sys2Proof.Tests
end

-- The rings and events of a tile (13_rings_and_events.md): RING_RESET, EVENT_READ, EVENT_MASK.
section
/-!
PROOFS. What a write to a ring and a raise do to the rings and events of a tile, and with it RING_RESET, EVENT_READ and EVENT_MASK
(R386, R392, R393, R403 to R407).
-/

namespace Sys2Proof.Machine

/-! The way of a completion, and what the lines do between steps, leave rings and events as they were. -/

theorem sameTile.rings_eq {a b : Tile} (h : sameTile a b) : b.rings = a.rings := (congrArg Tile.rings h.1).symm
theorem sameTile.events_eq {a b : Tile} (h : sameTile a b) : b.events = a.events := (congrArg Tile.events h.1).symm

theorem start_rings (s : State) (t : Nat) : (s.start.tile t).rings = (s.pkg.tile t).rings := ((samePkg_start s).2 t).rings_eq
theorem start_events (s : State) (t : Nat) : (s.start.tile t).events = (s.pkg.tile t).events := ((samePkg_start s).2 t).events_eq

theorem after_rings (s : State) (p : Pkg) (t : Nat) : ((s.after p).pkg.tile t).rings = (p.tile t).rings :=
  ((onlyCompletes_drain { s with pkg := p }).2.1.2 t).rings_eq
theorem after_events (s : State) (p : Pkg) (t : Nat) : ((s.after p).pkg.tile t).events = (p.tile t).events :=
  ((onlyCompletes_drain { s with pkg := p }).2.1.2 t).events_eq

@[simp] theorem countRefused_tile (cls : Nat) (p : Pkg) (u : Nat) : (countRefused cls p).tile u = p.tile u := rfl

@[simp] theorem finishWith_tile (c : Ctx) (op st : Byte) (t : Nat) (pl : List Byte) (p : Pkg) (u : Nat) :
    (finishWith c op st t pl p).tile u = p.tile u := by
  unfold finishWith
  split <;> simp

@[simp] theorem finish_tile (c : Ctx) (op st : Byte) (t : Nat) (p : Pkg) (u : Nat) : (finish c op st t p).tile u = p.tile u :=
  finishWith_tile _ _ _ _ _ _ _

@[simp] theorem reply_tile (c : Ctx) (op : Byte) (t : Nat) (pl : List Byte) (p : Pkg) (u : Nat) :
    (reply c op t pl p).tile u = p.tile u := finishWith_tile _ _ _ _ _ _ _

/-! Entries of a ring (R388, R392, R393). -/

@[simp] theorem setRing_ring (t i : Nat) (r : Ring) (p : Pkg) : ((setRing t i r p).tile t).ring? i = some r := by
  simp [setRing, Tile.ring?, Tbl.find?_set]

/-- Where the queue has room, an entry joins it (R393). -/
theorem admitEntry_of_room (t now : Nat) (bulk : Bool) (r : Rings) (h : r.queued + 192 ≤ 1024 * 192) :
    (admitEntry t now bulk r).2 = true ∧ (admitEntry t now bulk r).1.queued ≤ r.queued + 192 := by
  have hq : (drainQueue bulk now r).queued ≤ r.queued := Nat.sub_le _ _
  unfold admitEntry
  dsimp only
  rw [if_pos (by omega)]
  exact ⟨rfl, Nat.add_le_add_right hq _⟩

/-- An entry that finds room stands behind the others, with the next sequence number (R395). -/
theorem push_of_room {r : Ring} (b : BitVec 64) (us : Nat) (h : r.entries.length < r.cap) :
    r.push b us = ({ r with entries := r.entries ++ [{ seq := r.nextSeq, bits := b, time := us }]
                            nextSeq := nextSeqOf r.nextSeq }, true) :=
  if_pos h

/-- Where queue and ring have room, an entry is stored (R392, R393). -/
theorem writeEntry_of_room {t i : Nat} {p : Pkg} {r : Ring} (b : BitVec 64) (us : Nat) (hr : (p.tile t).ring? i = some r)
    (hq : (p.tile t).rings.queued + 192 ≤ 1024 * 192) (hc : r.entries.length < r.cap) :
    (writeEntry t i b us p).1.2 = true
      ∧ ((writeEntry t i b us p).1.1.tile t).ring? i = some (r.push b us).1
      ∧ ((writeEntry t i b us p).1.1.tile t).rings.queued ≤ (p.tile t).rings.queued + 192 := by
  obtain ⟨room, hle⟩ := admitEntry_of_room t p.now (p.sh.bulkWaits.any (fun w => w.tile == t)) (p.tile t).rings hq
  unfold writeEntry
  simp only [hr, room, if_true, push_of_room b us hc, onTile_tile]
  exact ⟨trivial, Tbl.find?_set _ _ _, hle⟩

/-- An entry that asks for an anchor is stored behind it (R388). -/
theorem putEntry_behind_anchor {t i : Nat} {p : Pkg} {r : Ring} (us : Nat) (v : Word) (kind : Nat)
    (hr : (p.tile t).ring? i = some r) (ha : r.anchor = true) (hq : (p.tile t).rings.queued + 384 ≤ 1024 * 192)
    (hc : r.entries.length + 1 < r.cap) :
    ∃ r', ((putEntry t i us v kind p).1.1.tile t).ring? i = some r'
      ∧ r'.entries.map (·.seq) = r.entries.map (·.seq) ++ [r.nextSeq, nextSeqOf r.nextSeq] := by
  obtain ⟨_, hr1, hq1⟩ := writeEntry_of_room (anchorBits us 0) us hr (by omega) (by omega)
  rw [push_of_room _ us (by omega)] at hr1
  obtain ⟨stored, hr2, _⟩ := writeEntry_of_room (entryBits v 0 kind) us hr1 (by omega) (by simpa [Ring.cap] using hc)
  rw [push_of_room _ us (by simpa [Ring.cap] using hc)] at hr2
  unfold putEntry
  simp only [hr, ha, Bool.true_or, if_true, stored, onRing, hr2, onTile_tile]
  exact ⟨_, Tbl.find?_set _ _ _, by simp⟩

/-- Settles O48: the ring that RING_RESET leaves is empty and asks for an anchor, so that the next entry is its second. -/
theorem ringResetEmptiesTheRing : Obligations.RingResetEmptiesTheRing := by
  unfold Obligations.RingResetEmptiesTheRing
  intro s c t id r hp hid hr
  have hstart : (s.start.tile t).ring? (bits id 14 0) = some r := by rw [Tile.ring?, start_rings]; exact hr
  have hrun : exec (.ringReset c id) s
      = .next (s.after (finish c 0x72 stOk t (setRing t (bits id 14 0) r.discard s.start))) := by
    refine (performs_runs hp).trans ?_
    simp only [hid, hstart]
  have hq : ((s.after (finish c 0x72 stOk t (setRing t (bits id 14 0) r.discard s.start))).pkg.tile t).ring? (bits id 14 0)
      = some r.discard := by
    rw [Tile.ring?, after_rings, finish_tile]
    exact setRing_ring _ _ _ _
  refine ⟨_, r.discard, hrun, hq, rfl, rfl, rfl, rfl, rfl, rfl, ?_⟩
  intro us v kind hcap hempty
  exact putEntry_behind_anchor us v kind hq rfl (by omega) hcap

/-! Writes to rings leave the events of a tile as they were. -/

section
variable (t : Nat) (p : Pkg)

@[simp] theorem writeEntry_events (i : Nat) (b : BitVec 64) (us : Nat) :
    ((writeEntry t i b us p).1.1.tile t).events = (p.tile t).events := by
  unfold writeEntry
  split <;> simp

@[simp] theorem onRing_events (i : Nat) (f : Ring → Ring) : ((onRing t i f p).tile t).events = (p.tile t).events := by
  unfold onRing
  split <;> simp

@[simp] theorem putEntry_events (i us : Nat) (v : Word) (kind : Nat) :
    ((putEntry t i us v kind p).1.1.tile t).events = (p.tile t).events := by
  unfold putEntry
  split
  · rfl
  · dsimp only
    split <;> split <;> simp

@[simp] theorem recordPoint_events (i : Nat) (x : Rec) (at_ : Nat) :
    ((recordPoint t i x at_ p).1.tile t).events = (p.tile t).events := by
  unfold recordPoint
  dsimp only
  split <;> simp

@[simp] theorem issue_events (dest cls : Nat) (w : Purpose) (op : FabricOp) (limit : Nat) :
    ((issue t dest cls w op limit p).tile t).events = (p.tile t).events := by
  simp [issue]

@[simp] theorem fireEventRing_events (i : Nat) : ((fireEventRing t i p).1.tile t).events = (p.tile t).events := by
  unfold fireEventRing
  split
  · rfl
  · split <;> simp

/-- A conditional is one of its branches, whatever decides it. -/
theorem ite_eq_left_or_right {α : Type} (c : Prop) [Decidable c] (a b : α) : (if c then a else b) = a ∨ (if c then a else b) = b := by
  by_cases h : c
  · exact .inl (if_pos h)
  · exact .inr (if_neg h)

/-- An on-change ring records its source or does nothing (R390). -/
theorem snoopRing_cases (conv : Word → Int) (i : Nat) (k : Key) :
    snoopRing conv t i k p = recordPoint t i (readPoint p t k) p.now p ∨ snoopRing conv t i k p = (p, []) := by
  unfold snoopRing
  split
  · exact .inr rfl
  · exact ite_eq_left_or_right _ _ _

@[simp] theorem snoopRing_events (conv : Word → Int) (i : Nat) (k : Key) :
    ((snoopRing conv t i k p).1.tile t).events = (p.tile t).events := by
  obtain h | h := snoopRing_cases t p conv i k <;> simp [h]

/-- Writes to several rings, with the list of those that they overflow. -/
theorem ringWrites_events (f : Pkg → Nat → Pkg × List Nat) (h : ∀ q i, ((f q i).1.tile t).events = (q.tile t).events)
    (l : List Nat) (a : Pkg × List Nat) :
    ((l.foldl (fun a i => ((f a.1 i).1, a.2 ++ (f a.1 i).2)) a).1.tile t).events = (a.1.tile t).events :=
  foldl_keeps (fun a : Pkg × List Nat => (a.1.tile t).events) (fun a i => ((f a.1 i).1, a.2 ++ (f a.1 i).2)) (fun b i => h b.1 i) l a

end

/-! What a raise does to the events of its tile (R403). -/

/-- The mark of a raise sets its own PENDING bit (R403). -/
theorem markEvent_pending_self (now : Nat) {ev : Nat} (tl : Tile) (h : ev < 128) :
    (markEvent now ev tl).events.pending.getLsbD ev = true := by
  simp [markEvent, h]

/-- A mark clears no PENDING bit. -/
theorem markEvent_pending_of_pending (now ev : Nat) {j : Nat} {tl : Tile} (h : tl.events.pending.getLsbD j = true) :
    (markEvent now ev tl).events.pending.getLsbD j = true := by
  simp [markEvent, h]

@[simp] theorem markEvent_counts_self (now ev : Nat) (tl : Tile) :
    (markEvent now ev tl).events.counts.getD ev 0 = Nat.min 65535 (tl.events.counts.getD ev 0 + 1) :=
  Tbl.getD_set _ _ _ _

theorem markEvent_counts_ne (now : Nat) {ev j : Nat} (tl : Tile) (h : j ≠ ev) :
    (markEvent now ev tl).events.counts.getD j 0 = tl.events.counts.getD j 0 :=
  Tbl.getD_set_ne _ _ _ h

/-- No mark takes a count below a bound that it has reached and that counts can hold. -/
theorem markEvent_counts_mono (now ev : Nat) {j n : Nat} {tl : Tile} (hn : n ≤ 65535) (h : n ≤ tl.events.counts.getD j 0) :
    n ≤ (markEvent now ev tl).events.counts.getD j 0 := by
  by_cases e : j = ev
  · subst e
    rw [markEvent_counts_self]
    exact Nat.le_min.mpr ⟨hn, by omega⟩
  · rwa [markEvent_counts_ne now tl e]

/-! A raise marks its own event, notes writes to ring 0, and raises event 93 for each ring that it overflows (R392): what its own
mark brings about, and the notes and marks of event 93 keep, holds after it. -/

section
variable {P : Events → Prop} (t : Nat) (hring : ∀ e at_, P e → P { e with ringAt := at_ })
include hring

/-- One raise, where those of event 93 that it asks for keep `P`. -/
theorem raiseAux_succ_events {fuel : Nat} (ev detail : Nat) (p : Pkg)
    (hrec : ∀ i q, P (q.tile t).events → P ((raiseAux fuel t 93 i q).tile t).events)
    (hmark : P (markEvent p.now ev (p.tile t)).events) : P ((raiseAux (fuel + 1) t ev detail p).tile t).events := by
  unfold raiseAux
  dsimp only
  refine List.foldlRecOn _ _ ?_ (fun q hq i _ => hrec i q hq)
  rw [ringWrites_events t (fun q i => fireEventRing t i q) (fireEventRing_events t),
    ringWrites_events t (fun q i => snoopRing (·.toInt) t i (key 0xD ev) q) (fun q i => snoopRing_events t q _ i _)]
  have hp1 : P ((onTile t (markEvent p.now ev) p).tile t).events := by simpa using hmark
  split
  · dsimp only
    split
    · rw [onTile_tile]
      exact hring _ _ (by simpa using hmark)
    · rwa [putEntry_events]
  · exact hp1

variable (h93 : ∀ now tl, P tl.events → P (markEvent now 93 tl).events)
include h93

theorem raiseAux_93_keeps (fuel detail : Nat) (p : Pkg) (hp : P (p.tile t).events) :
    P ((raiseAux fuel t 93 detail p).tile t).events := by
  induction fuel generalizing detail p with
  | zero => exact hp
  | succ n ih => exact raiseAux_succ_events t hring 93 detail p ih (h93 _ _ hp)

theorem raise_events (ev : Nat) (p : Pkg) (hmark : P (markEvent p.now ev (p.tile t)).events) :
    P ((raise t ev p).tile t).events :=
  raiseAux_succ_events t hring ev 0 p (raiseAux_93_keeps t hring h93 _) hmark

end

/-- A raise sets PENDING (R403). -/
theorem raise_sets_pending (t : Nat) {ev : Nat} (p : Pkg) (h : ev < 128) :
    ((raise t ev p).tile t).events.pending.getLsbD ev = true :=
  raise_events (P := fun e => e.pending.getLsbD ev = true) t (fun _ _ he => he)
    (fun now _ he => markEvent_pending_of_pending now 93 he) ev p (markEvent_pending_self _ _ h)

/-- A raise counts, up to 65,535 (R403). -/
theorem raise_counts (t ev : Nat) (p : Pkg) :
    Nat.min 65535 ((p.tile t).events.counts.getD ev 0 + 1) ≤ ((raise t ev p).tile t).events.counts.getD ev 0 :=
  raise_events (P := fun e => Nat.min 65535 ((p.tile t).events.counts.getD ev 0 + 1) ≤ e.counts.getD ev 0) t (fun _ _ he => he)
    (fun now _ he => markEvent_counts_mono now 93 (Nat.min_le_left _ _) he) ev p (Nat.le_of_eq (markEvent_counts_self _ _ _).symm)

/-- A raise of an event other than 93 counts once: the raises that it brings about are of event 93 (R392). -/
theorem raise_counts_once (t : Nat) {ev : Nat} (p : Pkg) (h : ev ≠ 93) :
    ((raise t ev p).tile t).events.counts.getD ev 0 = Nat.min 65535 ((p.tile t).events.counts.getD ev 0 + 1) :=
  raise_events (P := fun e => e.counts.getD ev 0 = Nat.min 65535 ((p.tile t).events.counts.getD ev 0 + 1)) t (fun _ _ he => he)
    (fun now tl he => (markEvent_counts_ne now tl h).trans he) ev p (markEvent_counts_self _ _ _)

/-- A masked event that triggers no ring, and whose EVT point no ring records, is written to no ring (R405). -/
theorem raise_rings_of_masked (t ev : Nat) (p : Pkg) (hmask : (p.tile t).events.masked.getLsbD ev = true)
    (htrig : onlineRings p t (fun r => r.trigger == 3 && bits r.param 6 0 == ev) = []) (hsnoop : snoopers p t (key 13 ev) = []) :
    ((raise t ev p).tile t).rings = (p.tile t).rings := by
  have hquiet : ringZeroAllows p.now ev (p.tile t) = false := by simp [ringZeroAllows, hmask]
  have honline (f : Ring → Bool) : onlineRings (onTile t (markEvent p.now ev) p) t f = onlineRings p t f := by
    unfold onlineRings online
    rw [onTile_tile]
    rfl
  have hpoint : snoopers (onTile t (markEvent p.now ev) p) t (key 13 ev) = [] := (honline _).trans hsnoop
  unfold raise raiseWith raiseAux
  simp only [hquiet, Bool.false_and, Bool.false_eq_true, if_false, hpoint, htrig, List.foldl_nil, List.append_nil, onTile_tile]
  rfl

/-! The commands. -/

/-- A command that its target refuses completes with what the target finds wrong. -/
theorem command_refused (i : Instr) (f : Nat → Pkg → Pkg) (p : Pkg) {c : Ctx} {op st : Byte} {pl : List Byte} {named : Nat}
    (hi : commandParts i = some (c, op, pl)) (ha : awake p = true) (hl : localOf p c.tile.toNat = some named)
    (ht : targetError p c op pl named = some st) :
    command i f p = finish c op st (errorTile p (servingTile p op named) st) (noteError (servingTile p op named) st p) := by
  simp [command, hi, ha, hl, ht]

/-- A field that is set reads as its value, and the bits outside it as before. -/
theorem getLsbD_setBits {w : Nat} (r : BitVec w) (hi lo v : Nat) {e : Nat} (he : e < w) :
    (setBits r hi lo v).getLsbD e = if lo ≤ e ∧ e ≤ hi then v.testBit (e - lo) else r.getLsbD e := by
  have hfield : (BitVec.ofNat w (2 ^ (hi + 1 - lo) - 1) <<< lo).getLsbD e = decide (lo ≤ e ∧ e ≤ hi) := by
    rw [BitVec.getLsbD_shiftLeft, BitVec.getLsbD_ofNat, Nat.testBit_two_pow_sub_one, Bool.eq_iff_iff]
    simp only [Bool.and_eq_true, Bool.not_eq_true', decide_eq_true_eq, decide_eq_false_iff_not]
    omega
  simp only [setBits, BitVec.getLsbD_or, BitVec.getLsbD_and, BitVec.getLsbD_not, hfield]
  by_cases h : lo ≤ e ∧ e ≤ hi
  · rw [decide_eq_true h, if_pos h, BitVec.getLsbD_shiftLeft, BitVec.getLsbD_ofNat]
    simp [he, show ¬ e < lo by omega, show e - lo < w by omega]
  · rw [decide_eq_false h, if_neg h]
    simp [he]

/-- One of the four words of the MASKED bits is written (R405). -/
theorem getLsbD_setMaskWord (m : BitVec 128) (word : Nat) (mask : Word) {e : Nat} (he : e < 128) :
    (setBits m (32 * word + 31) (32 * word) mask.toNat).getLsbD e = if e / 32 = word then mask.getLsbD (e % 32) else m.getLsbD e := by
  have hrange : (32 * word ≤ e ∧ e ≤ 32 * word + 31) ↔ e / 32 = word := by omega
  simp only [getLsbD_setBits _ _ _ _ he, hrange, BitVec.testBit_toNat]
  split
  · rw [show e - 32 * word = e % 32 by omega]
  · rfl

/-- Settles O49: PENDING is cleared in the state that the reply leaves, so that a second read answers 0, and a raise sets it again. -/
theorem eventReadClearsWhatItReturns : Obligations.EventReadClearsWhatItReturns := by
  unfold Obligations.EventReadClearsWhatItReturns
  rintro s p c t rfl hp
  refine ⟨_, performs_runs hp, rfl, ?_, ?_, fun ev hev => raise_sets_pending t _ hev, ?_, ?_⟩
  · rw [after_events, reply_tile, onTile_tile]
  · rw [after_events, reply_tile, onTile_tile, start_events]
  · intro c2 hp2
    refine (performs_runs hp2).trans ?_
    simp only [start_events, after_events, reply_tile, onTile_tile]
    rfl
  · intro c2 named hawake hlocal hserves hmoved
    have hrefuse (f : Nat → Pkg → Pkg) := command_refused (.eventRead c2) f s.start rfl hawake hlocal hmoved
    rw [hserves] at hrefuse
    exact congrArg (fun p => Host.Outcome.next (s.after p)) (hrefuse _)

/-- Settles O50: EVENT_MASK writes the MASKED bits alone; what a raise does then is said of every package. -/
theorem eventMaskHidesTheEvent : Obligations.EventMaskHidesTheEvent := by
  unfold Obligations.EventMaskHidesTheEvent
  intro s c t word rsv mask hp hword
  have hrun : exec (.eventMask c word rsv mask) s = .next (s.after (finish c 0x73 stOk t (onTile t (fun tl => { tl with
      events := { tl.events with masked := setBits tl.events.masked (32 * word.toNat + 31) (32 * word.toNat) mask.toNat } }) s.start))) :=
    (performs_runs hp).trans (by rw [if_neg (by omega)])
  refine ⟨_, hrun, ?_, ?_, ?_, fun e => raise_rings_of_masked t e _, fun h => if_pos h⟩
  · intro e he
    rw [after_events, finish_tile, onTile_tile, start_events]
    exact getLsbD_setMaskWord _ _ _ he
  · rw [after_events, finish_tile, onTile_tile, start_events]
  · exact fun e he => ⟨raise_sets_pending t _ he, raise_counts t e _, raise_counts_once t _⟩

end Sys2Proof.Machine
end

-- The shape of every row's meaning, and the soundness of the host port (03_host_port.md).
section
/-!
PROOFS. How the meaning of each row is lifted to a step: on the package, on a tile, at a command's target, or on the whole machine.
-/

namespace Sys2Proof.Machine

/-- The rows whose meaning is on the whole machine: those of the host port, of the lead, of resets and of darkroom, the frame that
carries the time, and the packets of the service port. -/
def actsOnMachine : Instr → Bool
  | .poll _ | .subProd _ | .compCons _ | .dummy _ | .hpRingReset _ | .bulkRelease _ | .hostPortWrite _ _ | .hpInvalidCommand _
  | .hpBrokenByte _ _ _ | .packetTake | .contactSheetRefresh | .hostAbsent | .bulkTimeout _ | .leadTakeover | .leadBootTimeout
  | .bootComplete _ _ | .brownOut | .vcc11Low | .vanaLow | .resetN | .resetRelease _ _ | .tapInstruction _ _ | .darkroomCheck _
  | .darkroomResume | .servicePacket _ | .time _ => true
  | _ => false

theorem exec_eq_lift {i : Instr} (s : State) (hm : actsOnMachine i = false) (ht : rowTile i = none) : ∃ f, exec i s = lift f s := by
  delta exec
  cases i <;> first | (cases hm; done) | (cases ht; done) | exact ⟨_, rfl⟩

theorem exec_eq_liftTile {i : Instr} {u : TileId} (s : State) (hm : actsOnMachine i = false) (ht : rowTile i = some u) :
    ∃ f, exec i s = liftTile u f s := by
  delta exec
  cases i <;> first | (cases hm; done) | (cases ht; done) | (cases ht; exact ⟨_, rfl⟩)

theorem exec_eq_command {i : Instr} (s : State) (h : (commandParts i).isSome = true) : ∃ f, exec i s = lift (command i f) s := by
  delta exec
  cases i <;> first | (cases h; done) | exact ⟨_, rfl⟩

theorem lift_next_iff {f : Pkg → Pkg} {s t : State} : lift f s = .next t ↔ t = s.after (f s.start) := by
  rw [package_runs, Host.Outcome.next.injEq, eq_comm]

theorem liftAll_next_iff {f : State → State} {s t : State} : liftAll f s = .next t ↔ t = drain (f s.begun) := by
  rw [machine_runs, Host.Outcome.next.injEq, eq_comm]

/-- The step of an event on a tile, where it goes on, is that of the tile's meaning. -/
theorem liftTile_next {u : TileId} {f : Nat → Pkg → Pkg} {s t : State} (h : liftTile u f s = .next t) :
    u.toNat < s.pkg.n ∧ t = s.after (f u.toNat s.start) := by
  obtain ⟨hu, e⟩ | ⟨_, e⟩ := liftTile_cases u f s
  · exact ⟨hu, lift_next_iff.mp (e ▸ h)⟩
  · rw [e] at h; cases h

/-- The rows that act on the package alone. -/
theorem exec_next_after {i : Instr} {s t : State} (hm : actsOnMachine i = false) (h : exec i s = .next t) :
    ∃ q, t = s.after q := by
  cases ht : rowTile i with
  | none =>
    obtain ⟨f, e⟩ := exec_eq_lift s hm ht
    exact ⟨_, lift_next_iff.mp (e ▸ h)⟩
  | some u =>
    obtain ⟨f, e⟩ := exec_eq_liftTile s hm ht
    exact ⟨_, (liftTile_next (e ▸ h)).2⟩

end Sys2Proof.Machine
end

section
/-!
PROOFS. The rings of the host port stay sound, and what stands in the completion ring stays there, through every operation on them
(R90 to R97).
-/

namespace Sys2Proof.Machine

/-- `HpRings.sound`, clause by clause. -/
structure HpRings.Sound (r : HpRings) : Prop where
  subWf : Memory.wf r.subMem = true
  compWf : Memory.wf r.compMem = true
  subIn : r.subMem.all (fun c => c.1 < 65536) = true
  compIn : r.compMem.all (fun c => c.1 < 65536) = true
  subProd : r.subProd.toNat % 4 = 0
  subCons : r.subCons.toNat % 4 = 0
  compProd : r.compProd.toNat % 4 = 0
  compCons : r.compCons.toNat % 4 = 0
  subUsed : r.subUsed ≤ 65536
  compUsed : r.compUsed ≤ 65536
  held : ∀ pkt ∈ r.held, pkt.length % 4 = 0 ∧ 12 ≤ pkt.length ∧ pkt.length ≤ 1028
  unmirrored : ∀ q ∈ r.unmirrored, q.1.toNat % 4 = 0

theorem HpRings.sound_iff (r : HpRings) : r.sound = true ↔ r.Sound := by
  constructor
  · intro h
    simp only [HpRings.sound, Bool.and_eq_true, beq_iff_eq, decide_eq_true_eq, List.all_eq_true (l := r.held),
      List.all_eq_true (l := r.unmirrored)] at h
    obtain ⟨⟨⟨⟨⟨⟨⟨⟨⟨⟨⟨h1, h2⟩, h3⟩, h4⟩, h5⟩, h6⟩, h7⟩, h8⟩, h9⟩, h10⟩, h11⟩, h12⟩ := h
    exact ⟨h1, h2, h3, h4, h5, h6, h7, h8, h9, h10, fun p hp => ⟨(h11 p hp).1.1, (h11 p hp).1.2, (h11 p hp).2⟩, h12⟩
  · intro h
    simp only [HpRings.sound, Bool.and_eq_true, beq_iff_eq, decide_eq_true_eq, List.all_eq_true (l := r.held),
      List.all_eq_true (l := r.unmirrored)]
    exact ⟨⟨⟨⟨⟨⟨⟨⟨⟨⟨⟨h.subWf, h.compWf⟩, h.subIn⟩, h.compIn⟩, h.subProd⟩, h.subCons⟩, h.compProd⟩, h.compCons⟩, h.subUsed⟩,
      h.compUsed⟩, fun p hp => ⟨⟨(h.held p hp).1, (h.held p hp).2.1⟩, (h.held p hp).2.2⟩⟩, h.unmirrored⟩

/-- `HostPort.sound`, clause by clause. -/
structure HostPort.Sound (h : HostPort) : Prop where
  rings : h.rings.Sound
  sheet : Memory.wf h.sheet = true
  even : h.generation.toNat % 2 = 0

theorem HostPort.sound_iff (h : HostPort) : h.sound = true ↔ h.Sound := by
  simp only [HostPort.sound, Bool.and_eq_true, beq_iff_eq, HpRings.sound_iff]
  exact ⟨fun ⟨⟨a, b⟩, c⟩ => ⟨a, b, c⟩, fun ⟨a, b, c⟩ => ⟨⟨a, b⟩, c⟩⟩

theorem State.sound_iff (s : State) : s.sound = true ↔ s.hp.Sound ∧ s.pkg.outbox = [] := by
  simp only [State.sound, Bool.and_eq_true, HostPort.sound_iff, List.isEmpty_iff]

/-- A reply packet is whole words, of 12 to 1,028 bytes (R97). -/
theorem length_replyPacket (c : Completion) (tag : BitVec 16) :
    (replyPacket c tag).length % 4 = 0 ∧ 12 ≤ (replyPacket c tag).length ∧ (replyPacket c tag).length ≤ 1028 := by
  have h : (replyPacket c tag).length = 12 + min 1016 (c.payload.length + (4 - c.payload.length % 4) % 4) := by
    simp [replyPacket, replyPayload]
    omega
  omega

/-- A packet that fits uses its length of the free space (R90). -/
theorem compUsed_write {r : HpRings} {pkt : List Byte} (h : r.compUsed + pkt.length ≤ 65536) :
    (r.write pkt).compUsed = r.compUsed + pkt.length := by
  unfold HpRings.compUsed at h ⊢
  simp only [HpRings.write, BitVec.toNat_sub, BitVec.toNat_add, BitVec.toNat_ofNat] at h ⊢
  omega

theorem HpRings.Sound.write {r : HpRings} {pkt : List Byte} (hr : r.Sound) (h4 : pkt.length % 4 = 0)
    (hfit : r.compUsed + pkt.length ≤ 65536) : (r.write pkt).Sound :=
  { hr with
    compWf := ringPut_wf _ _ _ hr.compWf
    compIn := ringPut_bound _ _ _ hr.compIn
    compProd := by
      have := hr.compProd
      simp only [HpRings.write, BitVec.toNat_add, BitVec.toNat_ofNat]
      omega
    compUsed := Nat.le_trans (Nat.le_of_eq (compUsed_write hfit)) hfit }

theorem HpRings.Sound.post {r : HpRings} {pkt : List Byte} (hr : r.Sound)
    (h : pkt.length % 4 = 0 ∧ 12 ≤ pkt.length ∧ pkt.length ≤ 1028) : (r.post pkt).Sound := by
  obtain ⟨_, hfit, e⟩ | e := post_cases pkt r <;> rw [e]
  · exact hr.write h.1 hfit
  · refine { hr with held := fun p hp => ?_ }
    obtain hp | hp := List.mem_append.mp hp
    · exact hr.held p hp
    · rwa [List.mem_singleton.mp hp]

theorem HpRings.Sound.flush {l : List (List Byte)} {r : HpRings} (hr : r.Sound)
    (hl : ∀ pkt ∈ l, pkt.length % 4 = 0 ∧ 12 ≤ pkt.length ∧ pkt.length ≤ 1028) : (r.flush l).Sound := by
  induction l generalizing r with
  | nil => exact { hr with held := hl }
  | cons pkt rest ih =>
    unfold HpRings.flush
    split
    next hfit => exact ih (hr.write (hl pkt (.head _)).1 (of_decide_eq_true hfit)) fun p hp => hl p (.tail _ hp)
    next => exact { hr with held := hl }

theorem HostPort.Sound.onRings {h : HostPort} {r : HpRings} (hh : h.Sound) (hr : r.Sound) : ({ h with rings := r } : HostPort).Sound :=
  { hh with rings := hr }

theorem HostPort.Sound.complete {h : HostPort} (c : Completion) (tag : BitVec 16) (hh : h.Sound) : (h.complete c tag).Sound :=
  { hh with rings := hh.rings.post (length_replyPacket c tag) }

theorem HostPort.Sound.flushHeld {h : HostPort} (hh : h.Sound) : h.flushHeld.Sound :=
  { hh with rings := hh.rings.flush hh.rings.held }

theorem HostPort.Sound.reset : HostPort.reset.Sound := (HostPort.sound_iff _).mp (by decide)

end Sys2Proof.Machine
end

section
/-!
PROOFS. Every step keeps the machine sound (R86, R90, R93, R94, R97).
-/

namespace Sys2Proof.Machine

theorem after_outbox (s : State) (q : Pkg) : (s.after q).pkg.outbox = [] := drain_outbox _

/-- The delivery of completions keeps the host port sound, and leaves none on its way. -/
theorem drain_sound {s : State} (h : s.hp.Sound) : (drain s).sound = true :=
  (State.sound_iff _).mpr ⟨drain_hp HostPort.Sound (fun _ c tag => HostPort.Sound.complete c tag) s h, drain_outbox s⟩

theorem after_sound {s : State} (q : Pkg) (h : s.hp.Sound) : (s.after q).sound = true := drain_sound (s := { s with pkg := q }) h

/-- A meaning on the machine keeps it sound where it keeps the host port sound. -/
theorem liftAll_sound {f : State → State} {s t : State} (hs : s.hp.Sound) (hf : ∀ w : State, w.hp.Sound → (f w).hp.Sound)
    (he : liftAll f s = .next t) : t.sound = true := by
  rw [liftAll_next_iff.mp he]
  exact drain_sound (hf _ hs)

/-! The transactions of the host. -/

theorem countErrors_hp_sound {n : Nat} {s : State} (h : s.hp.Sound) : (countErrors n s).hp.Sound := ⟨h.rings, h.sheet, h.even⟩

theorem notePoll_hp_sound {s : State} (h : s.hp.Sound) : (notePoll s).hp.Sound := ⟨h.rings, h.sheet, h.even⟩

theorem hostCrosses_hp_sound {received sent : Nat} {s : State} (h : s.hp.Sound) : (hostCrosses received sent s).hp.Sound := by
  rwa [hostCrosses_hp]

theorem hostRead_hp_sound {a n : Nat} {s : State} (h : s.hp.Sound) : (hostRead a n s).hp.Sound := by
  unfold hostRead
  dsimp only
  split
  · exact ⟨h.rings, h.sheet, h.even⟩
  · split <;> exact ⟨h.rings, h.sheet, h.even⟩

theorem writeSubProd_hp_sound {v : Word} {s : State} (h : s.hp.Sound) : (writeSubProd v s).hp.Sound := by
  unfold writeSubProd
  split
  · exact countErrors_hp_sound h
  · next hok =>
    simp only [subProdOk, Bool.not_eq_true', Bool.not_eq_false, Bool.and_eq_true, beq_iff_eq, decide_eq_true_eq] at hok
    refine h.onRings { h.rings with subProd := hok.1, subUsed := hok.2, unmirrored := fun q hq => ?_ }
    obtain rfl | hq := List.mem_cons.mp hq
    · exact h.rings.subProd
    · exact h.rings.unmirrored q (List.mem_filter.mp hq).1

/-- The posting of held completions is the only thing that it does to the host port. -/
theorem postHeld_hp (s : State) : (postHeld s).hp = s.hp.flushHeld := rfl

theorem writeCompCons_hp_sound {v : Word} {s : State} (h : s.hp.Sound) : (writeCompCons v s).hp.Sound := by
  unfold writeCompCons
  split
  · exact countErrors_hp_sound h
  · next hok =>
    simp only [compConsOk, Bool.not_eq_true', Bool.not_eq_false, Bool.and_eq_true, beq_iff_eq, decide_eq_true_eq] at hok
    refine notePoll_hp_sound (HostPort.Sound.flushHeld (h.onRings { h.rings with compCons := hok.1, compUsed := ?_ }))
    have hused := h.rings.compUsed
    simp only [HpRings.compUsed, BitVec.toNat_sub] at hused hok ⊢
    omega

theorem writeDummy_hp_sound {v : Word} {s : State} (h : s.hp.Sound) : (writeDummy v s).hp.Sound := by
  unfold writeDummy
  split
  · exact countErrors_hp_sound h
  · exact ⟨h.rings, h.sheet, h.even⟩

theorem writeRingReset_hp_sound {v : Word} {s : State} (h : s.hp.Sound) : (writeRingReset v s).hp.Sound := by
  unfold writeRingReset
  split
  · exact countErrors_hp_sound h
  · split
    · exact h
    · exact HostPort.Sound.flushHeld ⟨{ h.rings with
        subProd := rfl, subCons := rfl, compProd := rfl, compCons := rfl, subUsed := by change ((0 : Word) - 0).toNat ≤ 65536; decide
        compUsed := by change ((0 : Word) - 0).toNat ≤ 65536; decide
        unmirrored := fun q hq => nomatch hq }, h.sheet, h.even⟩

theorem writeBulkRelease_hp_sound {v : Word} {s : State} (h : s.hp.Sound) : (writeBulkRelease v s).hp.Sound := by
  unfold writeBulkRelease
  split
  · exact countErrors_hp_sound h
  · exact h

theorem writeRegister_hp_sound {a : Nat} {v : Word} {f : State → State} {s : State} (hf : writeRegister a v = some f) (h : s.hp.Sound) :
    (f s).hp.Sound := by
  unfold writeRegister at hf
  split at hf <;> cases hf
  · exact writeSubProd_hp_sound h
  · exact writeCompCons_hp_sound h
  · exact writeDummy_hp_sound h
  · exact writeRingReset_hp_sound h
  · exact writeBulkRelease_hp_sound h
  · exact ⟨h.rings, h.sheet, h.even⟩

theorem hostWrite_hp_sound {a : Nat} {data : List Byte} {s : State} (h : s.hp.Sound) : (hostWrite a data s).hp.Sound := by
  have hburst : (onHpRings (fun r => { r with subMem := (hpWriteBytes s.hp.rings.subMem a data).1 }) s).hp.Sound :=
    h.onRings { h.rings with subWf := hpWriteBytes_wf _ _ _ h.rings.subWf, subIn := hpWriteBytes_bound _ _ _ h.rings.subIn }
  unfold hostWrite
  split
  · exact h
  · split
    next hf =>
      split at hf
      · exact writeRegister_hp_sound hf h
      · cases hf
    next =>
      dsimp only
      split
      · exact countErrors_hp_sound hburst
      · exact hburst

theorem registerWrite_sound {f : State → State} {s t : State} (hs : s.hp.Sound) (hf : ∀ w : State, w.hp.Sound → (f w).hp.Sound)
    (he : registerWrite f s = .next t) : t.sound = true := by
  refine liftAll_sound hs (fun w hw => ?_) he
  split
  · exact hf _ (hostCrosses_hp_sound hw)
  · exact hw

/-! Packets. -/

theorem addTag_hp_sound {svc ordered : Bool} {tag : BitVec 16} {op : Byte} {tile : Nat} {s : State} (h : s.hp.Sound) :
    (addTag svc tag op tile ordered s).hp.Sound := by
  unfold addTag
  dsimp only
  split
  · exact h
  · exact ⟨h.rings, h.sheet, h.even⟩

theorem countPacketError_hp_sound {st : Byte} {s : State} (h : s.hp.Sound) : (countPacketError st s).hp.Sound := by
  unfold countPacketError
  split
  · exact ⟨h.rings, h.sheet, h.even⟩
  · split
    · exact ⟨h.rings, h.sheet, h.even⟩
    · split <;> exact h

theorem takePacket_hp_sound {svc : Bool} {b : List Byte} {s : State} (h : s.hp.Sound) : (takePacket svc b s).hp.Sound := by
  unfold takePacket
  split
  · rw [onPkg_hp]
    apply countPacketError_hp_sound
    split
    · exact h
    · exact addTag_hp_sound h
  · dsimp only
    split
    · exact h
    · exact addTag_hp_sound h

theorem takeNext_hp_sound {s : State} (h : s.hp.Sound) : (takeNext s).hp.Sound := by
  unfold takeNext
  dsimp only
  split
  · exact h.onRings { h.rings with }
  · next hframe =>
    simp only [frames, Bool.not_eq_true', Bool.not_eq_false, Bool.and_eq_true, beq_iff_eq, decide_eq_true_eq] at hframe
    apply takePacket_hp_sound
    refine h.onRings { h.rings with subCons := ?_, subUsed := ?_ }
    · have := h.rings.subCons
      simp only [BitVec.toNat_add, BitVec.toNat_ofNat]
      omega
    · have := h.rings.subUsed
      simp only [HpRings.subUsed, BitVec.toNat_sub, BitVec.toNat_add, BitVec.toNat_ofNat] at this hframe ⊢
      omega

/-! The contact sheet and the lead. -/

/-- A refresh moves GENERATION on by 2 (R86). -/
theorem refreshSheet_hp (s : State) : (refreshSheet s).hp = { s.hp with
    sheet := memOf (sheetBytes (s.hp.generation + 2) s), generation := s.hp.generation + 2, refreshedAt := some s.pkg.now } := rfl

theorem refreshSheet_hp_sound {s : State} (h : s.hp.Sound) : (refreshSheet s).hp.Sound := by
  rw [refreshSheet_hp]
  refine ⟨h.rings, ?_, ?_⟩ <;> dsimp only
  · exact memOf_wf _
  have := h.even
  simp only [BitVec.toNat_add, BitVec.reduceToNat]
  omega

theorem refreshSpaced_hp_sound {s : State} (h : s.hp.Sound) : (refreshSpaced s).hp.Sound :=
  refreshSheet_hp_sound (s := onPkg _ s) h

/-- What each completion keeps, the answers to all outstanding tags keep. -/
theorem answerTags_keeps (P : HostPort → Prop) (hc : ∀ h c tag, P h → P (h.complete c tag)) (p : Pkg) {h : HostPort}
    (hh : P { h with rings := { h.rings with held := [] } }) : P (answerTags p h) := by
  unfold answerTags
  exact List.foldlRecOn _ _ hh (fun a ha o _ => hc _ _ _ ha)

theorem HostPort.Sound.answerTags {h : HostPort} (p : Pkg) (hh : h.Sound) : (answerTags p h).Sound :=
  answerTags_keeps HostPort.Sound (fun _ c tag => HostPort.Sound.complete c tag) p
    (hh.onRings { hh.rings with held := fun _ hp => nomatch hp })

/-- SUB_PROD goes back to a value that it held, or to SUB_CONS (R21, R92). -/
theorem HostPort.Sound.undoUnmirrored {h : HostPort} (lostAt : Nat) (hh : h.Sound) : (undoUnmirrored lostAt h).Sound := by
  have hnone : ∀ q ∈ ([] : List (Word × Nat)), q.1.toNat % 4 = 0 := fun _ hq => nomatch hq
  unfold Machine.undoUnmirrored
  dsimp only
  split
  · exact hh.onRings { hh.rings with unmirrored := hnone }
  · next v at_ hlast =>
    have hv := hh.rings.unmirrored _ (List.mem_filter.mp (List.mem_of_getLast? hlast)).1
    have hback : (if (v - h.rings.subCons).toNat ≤ h.rings.subUsed then v else h.rings.subCons).toNat % 4 = 0
        ∧ ((if (v - h.rings.subCons).toNat ≤ h.rings.subUsed then v else h.rings.subCons) - h.rings.subCons).toNat ≤ 65536 := by
      split
      next hle => exact ⟨hv, Nat.le_trans hle hh.rings.subUsed⟩
      next => exact ⟨hh.rings.subCons, by simp⟩
    exact ⟨{ hh.rings with subProd := hback.1, subUsed := hback.2, unmirrored := hnone }, hh.sheet, hh.even⟩

theorem takeLead_hp (new : Nat) (s : State) :
    (takeLead new s).hp = answerTags (takeLead new s).pkg (undoUnmirrored s.pkg.sh.leadLostAt s.hp) := by
  simp only [takeLead, onHp_hp, onHp_pkg, onPkg_hp]

theorem takeLead_hp_sound {new : Nat} {s : State} (h : s.hp.Sound) : (takeLead new s).hp.Sound := by
  rw [takeLead_hp]
  exact (h.undoUnmirrored _).answerTags _

theorem leadOnline_hp_sound {u : Nat} {s : State} (h : s.hp.Sound) : (leadOnline u s).hp.Sound := by
  unfold leadOnline
  dsimp only
  split
  · split
    · exact refreshSheet_hp_sound (takeLead_hp_sound h)
    · exact takeLead_hp_sound h
  · exact h

/-! Resets, darkroom and package time. -/

theorem packageReset_hp_sound {cause : Nat} {s : State} (h : s.hp.Sound) : (packageReset cause s).hp.Sound := by
  unfold packageReset
  split
  · exact h
  · exact HostPort.Sound.reset

/-- What each completion keeps of the host port, the delivery of a list of them keeps. -/
theorem deliveries_hp (P : HostPort → Prop) (hc : ∀ h c tag, P h → P (h.complete c tag)) (l : List Completion) {s : State} (hs : P s.hp) :
    P (l.foldl deliver s).hp := by
  refine List.foldlRecOn l deliver (motive := fun w => P w.hp) hs (fun w hw c _ => ?_)
  obtain e | ⟨tag, e⟩ := deliver_hp w c <;> rw [e]
  · exact hw
  · exact hc _ _ _ hw

theorem answerAll_hp_sound {s : State} (h : s.hp.Sound) : (answerAll s).hp.Sound :=
  deliveries_hp HostPort.Sound (fun _ c tag => HostPort.Sound.complete c tag) _ h

theorem drain_hp_sound {s : State} (h : s.hp.Sound) : (drain s).hp.Sound :=
  drain_hp HostPort.Sound (fun _ c tag => HostPort.Sound.complete c tag) s h

theorem enterDark_hp_sound {s : State} (h : s.hp.Sound) : (enterDark s).hp.Sound := by
  unfold enterDark
  apply answerAll_hp_sound
  apply drain_hp_sound
  rw [onPkg_hp]
  apply refreshSpaced_hp_sound
  exact h

theorem HostPort.Sound.shift {h : HostPort} (k : Nat) (hh : h.Sound) : (h.shift k).Sound := by
  refine ⟨{ hh.rings with unmirrored := fun q hq => ?_ }, hh.sheet, hh.even⟩
  obtain ⟨x, hx, rfl⟩ := List.mem_map.mp hq
  exact hh.rings.unmirrored x hx

/-! The steps. -/

/-- A row on the whole machine that names a tile goes on where the variant has that tile. -/
theorem presentTile_next {u : TileId} {f : State → State} {s t : State}
    (h : (if u.toNat < s.pkg.n then liftAll f s else .fault (.absentTile u.toNat)) = Host.Outcome.next t) :
    u.toNat < s.pkg.n ∧ liftAll f s = .next t := by
  split at h
  next hu => exact ⟨hu, h⟩
  next => cases h

/-- The rows on the whole machine keep it sound. -/
theorem exec_sound_of_machine {i : Instr} {s t : State} (hm : actsOnMachine i = true) (hs : s.hp.Sound) (he : exec i s = .next t) :
    t.sound = true := by
  delta exec at he
  cases i <;> try (cases hm; done)
  case poll => exact liftAll_sound hs (fun _ hw => hostRead_hp_sound (hostCrosses_hp_sound hw)) he
  case subProd => exact registerWrite_sound hs (fun _ => writeSubProd_hp_sound) he
  case compCons => exact registerWrite_sound hs (fun _ => writeCompCons_hp_sound) he
  case dummy => exact registerWrite_sound hs (fun _ => writeDummy_hp_sound) he
  case hpRingReset => exact registerWrite_sound hs (fun _ => writeRingReset_hp_sound) he
  case bulkRelease => exact registerWrite_sound hs (fun _ => writeBulkRelease_hp_sound) he
  case hostPortWrite => exact liftAll_sound hs (fun _ hw => hostWrite_hp_sound (hostCrosses_hp_sound hw)) he
  case hpInvalidCommand =>
    refine liftAll_sound hs (fun w hw => ?_) he
    split
    · exact hw
    · exact countErrors_hp_sound hw
  case hpBrokenByte isWrite addr data =>
    refine liftAll_sound hs (fun w hw => ?_) he
    have hdata : (if isWrite = true then hostWrite addr.toNat data (hostCrosses data.length 0 w)
        else hostRead addr.toNat data.length (hostCrosses 0 data.length w)).hp.Sound := by
      split
      · exact hostWrite_hp_sound (hostCrosses_hp_sound hw)
      · exact hostRead_hp_sound (hostCrosses_hp_sound hw)
    dsimp only
    split
    · exact countErrors_hp_sound hdata
    · exact hdata
  case packetTake =>
    refine liftAll_sound hs (fun w hw => ?_) he
    split
    · exact takeNext_hp_sound hw
    · exact hw
  case contactSheetRefresh =>
    refine liftAll_sound hs (fun w hw => ?_) he
    split
    · exact refreshSpaced_hp_sound hw
    · exact hw
  case hostAbsent =>
    refine liftAll_sound hs (fun w hw => ?_) he
    split
    · exact hw
    · rw [onHp_hp, onPkg_hp]
      exact ⟨hw.rings, hw.sheet, hw.even⟩
  case bulkTimeout =>
    refine liftAll_sound hs (fun w hw => ?_) he
    split
    · exact hw
    · split
      · exact hw
      · exact ⟨hw.rings, hw.sheet, hw.even⟩
  case leadTakeover =>
    refine liftAll_sound hs (fun w hw => ?_) he
    split
    · exact takeLead_hp_sound hw
    · exact hw
  case leadBootTimeout =>
    refine liftAll_sound hs (fun w hw => ?_) he
    split
    · exact hw
    · dsimp only
      split
      · exact takeLead_hp_sound (by rwa [onPkg_hp])
      · rwa [onPkg_hp]
  case bootComplete u ok =>
    obtain ⟨_, he⟩ := presentTile_next he
    refine liftAll_sound hs (fun w hw => ?_) he
    split
    · exact leadOnline_hp_sound (s := { w with pkg := _ }) hw
    · exact hw
  case brownOut => exact liftAll_sound hs (fun _ hw => by rw [onPkg_hp]; exact packageReset_hp_sound hw) he
  case vcc11Low => exact liftAll_sound hs (fun _ => packageReset_hp_sound) he
  case vanaLow => exact liftAll_sound hs (fun _ => packageReset_hp_sound) he
  case resetN => exact liftAll_sound hs (fun _ => packageReset_hp_sound) he
  case resetRelease =>
    refine liftAll_sound hs (fun w hw => ?_) he
    split
    · exact hw
    · exact ⟨hw.rings, memSet_wf _ _ _ hw.sheet, hw.even⟩
  case tapInstruction u instr =>
    obtain ⟨_, he⟩ := presentTile_next he
    refine liftAll_sound hs (fun w hw => ?_) he
    dsimp only
    split
    · rwa [onPkg_hp, onPkg_hp]
    · split
      · exact packageReset_hp_sound (by rwa [onPkg_hp])
      · rwa [onPkg_hp]
  case darkroomCheck =>
    refine liftAll_sound hs (fun w hw => ?_) he
    split
    · exact hw
    · dsimp only
      split
      · exact enterDark_hp_sound (by rwa [onPkg_hp])
      · rwa [onPkg_hp]
  case darkroomResume =>
    refine liftAll_sound hs (fun w hw => ?_) he
    split
    · exact hw
    · dsimp only
      split
      · exact refreshSheet_hp_sound (by rwa [onPkg_hp])
      · rwa [onPkg_hp]
  case servicePacket =>
    refine liftAll_sound hs (fun w hw => ?_) he
    split
    · exact hw
    · dsimp only
      split
      · exact hw
      · split
        · exact hw
        · exact takePacket_hp_sound (by rwa [onPkg_hp])
  case time => exact liftAll_sound hs (fun _ hw => hw.shift _) he

theorem exec_sound {i : Instr} {s t : State} (hs : s.hp.Sound) (he : exec i s = .next t) : t.sound = true := by
  cases hm : actsOnMachine i with
  | true => exact exec_sound_of_machine hm hs he
  | false =>
    obtain ⟨q, rfl⟩ := exec_next_after hm he
    exact after_sound q hs

theorem lift_sound {f : Pkg → Pkg} {s t : State} (hs : s.hp.Sound) (he : lift f s = .next t) : t.sound = true := by
  rw [lift_next_iff.mp he]
  exact after_sound _ hs

/-- The work that a bulk buffer waits for is found without a look at the host port. -/
theorem nextBulk_hp {s s1 : State} {w : BulkWork} (h : nextBulk s = some (w, s1)) : s1.hp = s.hp := by
  unfold nextBulk at h
  split at h
  · cases h; rfl
  · cases h

theorem step_sound {s t : State} (hs : s.hp.Sound) (he : step s = .next t) : t.sound = true := by
  unfold step at he
  split at he
  next i rest _ => exact exec_sound (s := { s with pending := rest }) hs he
  · split at he
    next i s1 hb => exact exec_sound (nextBulk_hp hb ▸ hs) he
    next c data s1 hb => exact lift_sound (nextBulk_hp hb ▸ hs) he
    next =>
      split at he
      next u f _ =>
        have hs1 : ({ s with pkg := markStarted u f.order s.pkg } : State).hp.Sound := hs
        cases hw : f.work with
        | command i => simp only [hw] at he; exact exec_sound hs1 he
        | request r => simp only [hw] at he; exact lift_sound hs1 he
      · exact lift_sound hs he

/-- Settles O58: the invariant of the host port is kept by the operations on its rings, and every step ends in the delivery of its completions. -/
theorem everyStepKeepsTheMachineSound : Obligations.EveryStepKeepsTheMachineSound := by
  unfold Obligations.EveryStepKeepsTheMachineSound
  exact ⟨fun i s t hs he => exec_sound ((State.sound_iff s).mp hs).1 he, fun s t hs he => step_sound ((State.sound_iff s).mp hs).1 he⟩

end Sys2Proof.Machine
end

section
/-!
PROOFS. What stands in the completion ring stays there until the host moves COMP_CONS (R93, R94).
-/

namespace Sys2Proof.Machine

/-- The completion ring as the host sees it: its window and its indices. -/
def HpRings.comp (r : HpRings) : List Host.Cell × Word × Word := (r.compMem, r.compProd, r.compCons)

/-- The completion ring of `b` holds every byte that is in use in that of `a`, at its place. -/
def HpRings.extends (a b : HpRings) : Prop :=
  b.compCons = a.compCons ∧ a.compUsed ≤ b.compUsed
    ∧ ∀ k, k < a.compUsed → memGet b.compMem ((a.compCons.toNat + k) % 65536) = memGet a.compMem ((a.compCons.toNat + k) % 65536)

theorem HpRings.extends_refl (r : HpRings) : r.extends r := ⟨rfl, Nat.le_refl _, fun _ _ => rfl⟩

theorem HpRings.extends.trans {a b c : HpRings} (h : a.extends b) (k : b.extends c) : a.extends c := by
  obtain ⟨hcons, hused, hmem⟩ := h
  obtain ⟨kcons, kused, kmem⟩ := k
  refine ⟨kcons.trans hcons, Nat.le_trans hused kused, fun n hn => ?_⟩
  rw [← hmem n hn, ← hcons]
  exact kmem n (by omega)

theorem HpRings.extends.of_comp {a b c : HpRings} (h : a.extends b) (e : c.comp = b.comp) : a.extends c := by
  obtain ⟨hmem, hprod, hcons⟩ : c.compMem = b.compMem ∧ c.compProd = b.compProd ∧ c.compCons = b.compCons := by
    simpa [HpRings.comp] using e
  unfold HpRings.extends HpRings.compUsed at h ⊢
  rwa [hmem, hprod, hcons]

/-- A ring write leaves the bytes outside its span as they were. -/
theorem memGet_ringPut_of_not_mem {bs : List Byte} {m : List Host.Cell} {i j : Nat} (h : ∀ n, n < bs.length → j ≠ (i + n) % 65536) :
    memGet (ringPut m i bs) j = memGet m j := by
  induction bs generalizing m i with
  | nil => rfl
  | cons b r ih =>
    have hrest : ∀ n, n < r.length → j ≠ (i + 1 + n) % 65536 := fun n hn => by
      have := h (n + 1) (Nat.succ_lt_succ hn)
      rwa [Nat.add_right_comm, Nat.add_assoc]
    exact (ih hrest).trans (memGet_memSet_ne _ _ (h 0 (Nat.succ_pos _)))

/-- A packet that fits the free space is written behind what stands there (R93). -/
theorem HpRings.extends_write {r : HpRings} {pkt : List Byte} (hfit : r.compUsed + pkt.length ≤ 65536) : r.extends (r.write pkt) := by
  refine ⟨rfl, (compUsed_write hfit).symm ▸ Nat.le_add_right _ _, fun k hk => memGet_ringPut_of_not_mem fun n hn => ?_⟩
  simp only [HpRings.compUsed, BitVec.toNat_sub] at hfit hk
  omega

theorem HpRings.extends_post (r : HpRings) (pkt : List Byte) : r.extends (r.post pkt) := by
  obtain ⟨_, hfit, e⟩ | e := post_cases pkt r <;> rw [e]
  · exact r.extends_write hfit
  · exact r.extends_refl

/-- The property that a completion keeps: the ring still holds what stood in it in `r`. -/
theorem extends_complete (r : HpRings) (h : HostPort) (c : Completion) (tag : BitVec 16) (hr : r.extends h.rings) :
    r.extends (h.complete c tag).rings :=
  hr.trans (h.rings.extends_post _)

theorem extends_drain {r : HpRings} {s : State} (h : r.extends s.hp.rings) : r.extends (drain s).hp.rings :=
  drain_hp (fun h => r.extends h.rings) (extends_complete r) s h

theorem extends_after {s : State} (q : Pkg) : s.hp.rings.extends (s.after q).hp.rings :=
  extends_drain (s := { s with pkg := q }) s.hp.rings.extends_refl

/-! Operations that leave the completion ring alone. -/

section
variable (s : State)

@[simp] theorem countErrors_comp (n : Nat) : (countErrors n s).hp.rings.comp = s.hp.rings.comp := rfl

@[simp] theorem hostRead_comp (a n : Nat) : (hostRead a n s).hp.rings.comp = s.hp.rings.comp := by
  unfold hostRead
  dsimp only
  split
  · rfl
  · split <;> rfl

@[simp] theorem writeSubProd_comp (v : Word) : (writeSubProd v s).hp.rings.comp = s.hp.rings.comp := by
  unfold writeSubProd
  split <;> rfl

@[simp] theorem writeDummy_comp (v : Word) : (writeDummy v s).hp.rings.comp = s.hp.rings.comp := by
  unfold writeDummy
  split <;> rfl

@[simp] theorem writeBulkRelease_comp (v : Word) : (writeBulkRelease v s).hp.rings.comp = s.hp.rings.comp := by
  unfold writeBulkRelease
  split <;> rfl

@[simp] theorem addTag_comp (svc ordered : Bool) (tag : BitVec 16) (op : Byte) (tile : Nat) :
    (addTag svc tag op tile ordered s).hp.rings.comp = s.hp.rings.comp := by
  unfold addTag
  dsimp only
  split <;> rfl

@[simp] theorem countPacketError_comp (st : Byte) : (countPacketError st s).hp.rings.comp = s.hp.rings.comp := by
  unfold countPacketError
  split
  · rfl
  · split
    · rfl
    · split <;> rfl

@[simp] theorem takePacket_comp (svc : Bool) (b : List Byte) : (takePacket svc b s).hp.rings.comp = s.hp.rings.comp := by
  unfold takePacket
  split
  · rw [onPkg_hp, countPacketError_comp]
    split
    · rfl
    · exact addTag_comp ..
  · dsimp only
    split
    · rfl
    · rw [onPkg_hp, addTag_comp]

@[simp] theorem takeNext_comp : (takeNext s).hp.rings.comp = s.hp.rings.comp := by
  unfold takeNext
  dsimp only
  split
  · rfl
  · exact takePacket_comp ..

@[simp] theorem refreshSheet_comp : (refreshSheet s).hp.rings.comp = s.hp.rings.comp := by rw [refreshSheet_hp]

@[simp] theorem refreshSpaced_comp : (refreshSpaced s).hp.rings.comp = s.hp.rings.comp := by
  rw [refreshSpaced, refreshSheet_comp, onPkg_hp]

@[simp] theorem undoUnmirrored_comp (lostAt : Nat) (h : HostPort) : (undoUnmirrored lostAt h).rings.comp = h.rings.comp := by
  unfold undoUnmirrored
  dsimp only
  split <;> rfl

@[simp] theorem shift_comp (k : Nat) (h : HostPort) : (h.shift k).rings.comp = h.rings.comp := rfl

end

/-- A new lead answers the tags that are outstanding behind what stands in the ring (R21). -/
theorem extends_takeLead (new : Nat) (s : State) : s.hp.rings.extends (takeLead new s).hp.rings := by
  rw [takeLead_hp]
  exact answerTags_keeps (fun h => s.hp.rings.extends h.rings) (extends_complete _) _
    (s.hp.rings.extends_refl.of_comp (undoUnmirrored_comp _ s.hp))

theorem extends_leadOnline (u : Nat) (s : State) : s.hp.rings.extends (leadOnline u s).hp.rings := by
  unfold leadOnline
  dsimp only
  split
  · split
    · exact (extends_takeLead u s).of_comp (refreshSheet_comp _)
    · exact extends_takeLead u s
  · exact s.hp.rings.extends_refl

/-! The rows. -/

/-- The host moves COMP_CONS or resets the rings, or the package goes into reset or darkroom: a later read of the ring may find
other bytes. -/
def freesCompletions : Instr → Bool
  | .compCons _ | .hpRingReset _ | .hostPortWrite _ _ | .hpBrokenByte _ _ _ | .brownOut | .vcc11Low | .vanaLow | .resetN
  | .resetRelease _ _ | .tapInstruction _ _ | .darkroomCheck _ => true
  | _ => false

theorem liftAll_extends {f : State → State} {s t : State} (hf : ∀ w : State, w.hp.rings.extends (f w).hp.rings)
    (he : liftAll f s = .next t) : s.hp.rings.extends t.hp.rings := by
  rw [liftAll_next_iff.mp he]
  exact extends_drain (hf s.begun)

theorem liftAll_extends_of_comp {f : State → State} {s t : State} (hf : ∀ w : State, (f w).hp.rings.comp = w.hp.rings.comp)
    (he : liftAll f s = .next t) : s.hp.rings.extends t.hp.rings :=
  liftAll_extends (fun w => w.hp.rings.extends_refl.of_comp (hf w)) he

theorem registerWrite_extends {f : State → State} {s t : State} (hf : ∀ w : State, (f w).hp.rings.comp = w.hp.rings.comp)
    (he : registerWrite f s = .next t) : s.hp.rings.extends t.hp.rings := by
  refine liftAll_extends_of_comp (fun w => ?_) he
  split
  · rw [hf, hostCrosses_hp]
  · rfl

theorem exec_extends_of_machine {i : Instr} {s t : State} (hm : actsOnMachine i = true) (hf : freesCompletions i = false)
    (he : exec i s = .next t) : s.hp.rings.extends t.hp.rings := by
  delta exec at he
  cases i <;> try (first | (cases hm; done) | (cases hf; done))
  case poll => exact liftAll_extends_of_comp (fun w => by rw [hostRead_comp, hostCrosses_hp]) he
  case subProd => exact registerWrite_extends (fun w => writeSubProd_comp w _) he
  case dummy => exact registerWrite_extends (fun w => writeDummy_comp w _) he
  case bulkRelease => exact registerWrite_extends (fun w => writeBulkRelease_comp w _) he
  case hpInvalidCommand => exact liftAll_extends_of_comp (fun w => by split <;> simp) he
  case packetTake => exact liftAll_extends_of_comp (fun w => by split <;> simp) he
  case contactSheetRefresh => exact liftAll_extends_of_comp (fun w => by split <;> simp) he
  case hostAbsent =>
    refine liftAll_extends_of_comp (fun w => ?_) he
    split
    · rfl
    · rw [onHp_hp, onPkg_hp]
  case bulkTimeout =>
    refine liftAll_extends_of_comp (fun w => ?_) he
    split
    · rfl
    · split
      · rfl
      · rw [onHp_hp, onPkg_hp]
  case leadTakeover =>
    refine liftAll_extends (fun w => ?_) he
    split
    · exact extends_takeLead _ w
    · exact w.hp.rings.extends_refl
  case leadBootTimeout =>
    refine liftAll_extends (fun w => ?_) he
    split
    · exact w.hp.rings.extends_refl
    · dsimp only
      have h := extends_takeLead (1 - (onPkg (advanceTo w.pkg.sh.leadLostAt) w).pkg.lead % 2) (onPkg (advanceTo w.pkg.sh.leadLostAt) w)
      rw [onPkg_hp] at h
      split
      · exact h
      · rw [onPkg_hp]
        exact w.hp.rings.extends_refl
  case bootComplete u ok =>
    obtain ⟨_, he⟩ := presentTile_next he
    refine liftAll_extends (fun w => ?_) he
    split
    · exact extends_leadOnline _ _
    · exact w.hp.rings.extends_refl
  case darkroomResume =>
    refine liftAll_extends_of_comp (fun w => ?_) he
    split
    · rfl
    · dsimp only
      split
      · rw [refreshSheet_comp, onPkg_hp]
      · rw [onPkg_hp]
  case servicePacket =>
    refine liftAll_extends_of_comp (fun w => ?_) he
    split
    · rfl
    · dsimp only
      split
      · rw [onPkg_hp, onPkg_hp]
      · split
        · rfl
        · rw [takePacket_comp, onPkg_hp]
  case time =>
    refine liftAll_extends_of_comp (fun w => ?_) he
    exact shift_comp _ _

/-- Settles O59: completions are written behind those that stand in the ring, and no other operation writes to it. -/
theorem completionsOverwriteNothing : Obligations.CompletionsOverwriteNothing := by
  unfold Obligations.CompletionsOverwriteNothing
  intro i s t _ he hrow
  have hf : freesCompletions i = false := by
    cases i <;> first | rfl | cases hrow
  cases hm : actsOnMachine i with
  | true => exact exec_extends_of_machine hm hf he
  | false =>
    obtain ⟨q, rfl⟩ := exec_next_after hm he
    exact extends_after q

end Sys2Proof.Machine
end

-- What every command shares (04_command_set.md): its way to the other package, its checks, and what reads leave as it was.
section
/-!
PROOFS. Commands that sleep, cross to the other package, are refused by the checks that all share, or only read (R9, R46, R48, R99,
R109, R110, R363, R377, R412, R423, R425, R472).
-/

namespace Sys2Proof.Machine

/-! A command as a step. -/

theorem exec_command {i : Instr} {c : Ctx} {op : Byte} {pl : List Byte} (s : State) (hi : commandParts i = some (c, op, pl)) :
    ∃ f, exec i s = .next (s.after (command i f s.start)) := by
  obtain ⟨f, e⟩ := exec_eq_command s (by rw [hi]; rfl)
  exact ⟨f, e.trans (package_runs _ s)⟩

theorem command_asleep {i : Instr} {f : Nat → Pkg → Pkg} {p : Pkg} (h : awake p = false) : command i f p = p := by
  unfold command
  split
  · rfl
  · simp [h]

theorem command_far {i : Instr} {f : Nat → Pkg → Pkg} {p : Pkg} {c : Ctx} {op : Byte} {pl : List Byte}
    (hi : commandParts i = some (c, op, pl)) (ha : awake p = true) (hl : localOf p c.tile.toNat = none) :
    command i f p = farCommand c op pl p := by
  simp [command, hi, ha, hl]

/-! The way of a completion. -/

theorem samePkg_finishWith (c : Ctx) (op : Byte) {st : Byte} (t : Nat) (pl : List Byte) (p : Pkg) (hst : st ≠ stCapacity) :
    samePkg p (finishWith c op st t pl p) := by
  rw [finishWith, if_neg hst]
  exact ⟨rfl, fun _ => sameTile_refl _⟩

theorem samePkg_finish (c : Ctx) (op : Byte) {st : Byte} (t : Nat) (p : Pkg) (hst : st ≠ stCapacity) : samePkg p (finish c op st t p) :=
  samePkg_finishWith c op t [] p hst

theorem samePkg_reply (c : Ctx) (op : Byte) (t : Nat) (pl : List Byte) (p : Pkg) : samePkg p (reply c op t pl p) :=
  samePkg_finishWith c op t pl p (by decide)

theorem onlyCompletes_after {s : State} {q : Pkg} (h : samePkg s.start q) : onlyCompletes s (s.after q) :=
  (onlyCompletes_pkg s q ((samePkg_start s).trans h)).trans (onlyCompletes_drain _)

theorem onlyCompletes_of_lift {f : Pkg → Pkg} {s t : State} (hf : samePkg s.start (f s.start)) (he : lift f s = .next t) :
    onlyCompletes s t := by
  rw [lift_next_iff.mp he]
  exact onlyCompletes_after hf

theorem start_awake (s : State) : awake s.start = awake s.pkg := by
  have h := congrArg (fun p : Pkg => (p.inReset, p.sh.dark)) (start_lines s).1
  simp only [Prod.mk.injEq] at h
  simp only [awake, h.1, h.2]

/-- Settles O34: a command does nothing where the package does not answer, and the lines go on. -/
theorem commandsSleepInReset : Obligations.CommandsSleepInReset := by
  unfold Obligations.CommandsSleepInReset
  intro i s t hi ha he
  obtain ⟨f, e⟩ := exec_eq_command s hi
  refine onlyCompletes_of_lift ?_ (e.symm.trans he)
  rw [command_asleep ((start_awake s).trans ha)]
  exact samePkg_refl _

/-! The way to the other package. -/

theorem linkOpen_of_rejoining {te : Tether} (h : te.state = .rejoining) : linkOpen te = true := by simp [linkOpen, h]

/-- Settles O35: each clause is one branch of `farCommand`. -/
theorem farCommandsCross : Obligations.FarCommandsCross := by
  unfold Obligations.FarCommandsCross
  rintro i s p c op pl rfl hi ha hl
  obtain ⟨f, e⟩ := exec_command s hi
  rw [e, command_far hi ha hl, farCommand]
  refine ⟨fun hp => ?_, fun hp hlink => ?_, fun hp hre hpure => ?_, fun hp hlink hpure => ?_⟩
  · simp [hp]
  · simp [hp, hlink]
  · simp [hp, linkOpen_of_rejoining hre, hre, hpure]
  · have hcross : (s.start.sh.tether.state == .rejoining && !pureRead op pl) = false := by
      cases hr : s.start.sh.tether.state == .rejoining with
      | false => rfl
      | true => simp [hpure (by simpa using hr)]
    simp [hp, hlink, hcross]

/-! The checks that every command shares. -/

/-- The statuses of the shared checks; POLICY_CHANGED is never that of a pure read (R472). -/
theorem targetError_cases {p : Pkg} {c : Ctx} {op : Byte} {pl : List Byte} {named : Nat} {st : Byte}
    (h : targetError p c op pl named = some st) :
    st ∈ [stBadParam, stTileOffline, stStaleInc, stBadLength] ∨ (st = stPolicyChanged ∧ pureRead op pl = false) := by
  unfold targetError at h
  dsimp only at h
  iterate 6
    split at h
    · cases h
      exact .inl (by decide)
  split at h
  next hpolicy =>
    cases h
    exact .inr ⟨rfl, by simpa using (Bool.and_eq_true_iff.mp hpolicy).1⟩
  next => cases h

theorem noteError_of_ne {t : Nat} {st : Byte} (p : Pkg) (h : st ≠ stPolicyChanged) : noteError t st p = p := if_neg h

theorem errorTile_of_ne (p : Pkg) (t : Nat) {st : Byte} (h : st ≠ stTileOffline) : errorTile p t st = t := if_neg h

theorem exec_refused {i : Instr} {s : State} {c : Ctx} {op st : Byte} {pl : List Byte} {named : Nat}
    (hi : commandParts i = some (c, op, pl)) (ha : awake s.start = true) (hl : localOf s.start c.tile.toNat = some named)
    (ht : targetError s.start c op pl named = some st) :
    exec i s = .next (s.after (finish c op st (errorTile s.start (servingTile s.start op named) st)
      (noteError (servingTile s.start op named) st s.start))) := by
  obtain ⟨f, e⟩ := exec_command s hi
  rw [e, command_refused i f s.start hi ha hl ht]

theorem staleFor_eq_false {p : Pkg} {op : Byte} {pl : List Byte} {t : Nat}
    (h : eiOf op pl = 0 ∨ eiOf op pl = (p.tile t).boot.incarnation.toNat) : staleFor p op pl t = false := by
  obtain h | h := h <;> simp [staleFor, h]

/-- Settles O36: the clauses follow the order of the checks in `targetError`. -/
theorem sharedChecksRefuse : Obligations.SharedChecksRefuse := by
  unfold Obligations.SharedChecksRefuse
  rintro i s p c op pl named t rfl hi ha hl rfl
  have hrefused {st : Byte} := exec_refused (st := st) hi ha hl
  refine ⟨fun hc => ?_, fun hc => ⟨fun hg => ?_, fun hg => ⟨fun hoff hstop => ?_, fun hserves => ?_⟩⟩⟩
  · exact hrefused (by simp [targetError, hc])
  · exact hrefused (by simp [targetError, hc, hg])
  · exact hrefused (by obtain h | h := hstop <;> simp [targetError, hc, hg, hoff, h])
  · have hstands : (!online s.start (servingTile s.start op named)
        && (!actsOnStopped op pl || cutOff s.start (servingTile s.start op named))) = false := by
      obtain h | ⟨h, h'⟩ := hserves <;> simp [*]
    refine ⟨fun hne hinc => ?_, fun hinc => ⟨fun hlen => ?_, fun hlen => ⟨fun hres => ?_, fun hres hpure hpol => ?_⟩⟩⟩
    · exact hrefused (by simp [targetError, hc, hg, hstands, staleFor, hne, hinc])
    · exact hrefused (by simp [targetError, hc, hg, hstands, staleFor_eq_false hinc, hlen])
    · exact hrefused (by simp [targetError, hc, hg, hstands, staleFor_eq_false hinc, hlen, hres])
    · exact hrefused (by simp [targetError, hc, hg, hstands, staleFor_eq_false hinc, hlen, hres, hpure, hpol])

/-- What a shared check finds wrong is answered, and but for the policy nothing else is done. -/
theorem samePkg_refusal {p : Pkg} {c : Ctx} {op st : Byte} {pl : List Byte} {named : Nat} (t u : Nat)
    (ht : targetError p c op pl named = some st) (hst : st ≠ stPolicyChanged) : samePkg p (finish c op st t (noteError u st p)) := by
  rw [noteError_of_ne p hst]
  obtain h | ⟨h, _⟩ := targetError_cases ht
  · exact samePkg_finish c op t p (by rintro rfl; revert h; decide)
  · exact absurd h hst

/-- Settles O37: a refused command leaves its completion. -/
theorem refusedCommandsHaveNoEffect : Obligations.RefusedCommandsHaveNoEffect := by
  unfold Obligations.RefusedCommandsHaveNoEffect
  intro i s t c op pl named st hi hl ht hst he
  obtain ⟨f, e⟩ := exec_eq_command s (by rw [hi]; rfl)
  refine onlyCompletes_of_lift ?_ (e.symm.trans he)
  cases ha : awake s.start with
  | false => rw [command_asleep ha]; exact samePkg_refl _
  | true => rw [command_refused i f s.start hi ha hl ht]; exact samePkg_refusal _ _ ht hst

/-! Reads. -/

theorem samePkg_sendRequest (r : FabricReq) (p : Pkg) : samePkg p (sendRequest r p) :=
  samePkg_foldl _ (fun q f => samePkg_lineFrame f q) _ p

theorem samePkg_sendCommand (c : Ctx) (op : Byte) (pl : List Byte) (p : Pkg) : samePkg p (sendCommand c op pl p) := by
  refine samePkg.trans ?_ (samePkg_sendRequest _ _)
  exact ⟨rfl, fun _ => sameTile_refl _⟩

/-- A command to the other package leaves this one as it was, but for the way of its completion (R414). -/
theorem samePkg_farCommand (c : Ctx) (op : Byte) (pl : List Byte) (p : Pkg) : samePkg p (farCommand c op pl p) := by
  unfold farCommand
  repeat' split
  · exact samePkg_finish _ _ _ _ (by decide)
  · exact samePkg_finish _ _ _ _ (by decide)
  · exact samePkg_finish _ _ _ _ (by decide)
  · exact samePkg_sendCommand _ _ _ _

/-- A pure read, whichever way it goes, leaves what its own effect leaves. -/
theorem samePkg_command_of_read {i : Instr} {f : Nat → Pkg → Pkg} {p : Pkg}
    (hpure : ∀ c op pl, commandParts i = some (c, op, pl) → pureRead op pl = true) (hf : ∀ t, samePkg p (f t p)) :
    samePkg p (command i f p) := by
  cases hi : commandParts i with
  | none => rw [show command i f p = p by simp [command, hi]]; exact samePkg_refl _
  | some x =>
    obtain ⟨c, op, pl⟩ := x
    cases ha : awake p with
    | false => rw [command_asleep ha]; exact samePkg_refl _
    | true =>
      cases hl : localOf p c.tile.toNat with
      | none => rw [command_far hi ha hl]; exact samePkg_farCommand _ _ _ _
      | some named =>
        cases ht : targetError p c op pl named with
        | none => rw [command_runs i f p c op pl named hi ha hl ht]; exact hf _
        | some st =>
          rw [command_refused i f p hi ha hl ht]
          refine samePkg_refusal _ _ ht (fun h => ?_)
          obtain h' | ⟨_, hp⟩ := targetError_cases ht
          · rw [h] at h'; revert h'; decide
          · rw [hpure c op pl hi] at hp; cases hp

theorem read_onlyCompletes {i : Instr} {f : Nat → Pkg → Pkg} {s t : State}
    (hpure : ∀ c op pl, commandParts i = some (c, op, pl) → pureRead op pl = true) (hf : ∀ u, samePkg s.start (f u s.start))
    (he : lift (command i f) s = .next t) : onlyCompletes s t :=
  onlyCompletes_of_lift (samePkg_command_of_read hpure hf) he

/-- A row whose opcode is that of a read is one, whatever its payload says. -/
theorem pureRead_of_parts {i : Instr} {c0 : Ctx} {op0 : Byte} {pl0 : List Byte} (h : commandParts i = some (c0, op0, pl0))
    (hp : pureRead op0 pl0 = true) : ∀ c op pl, commandParts i = some (c, op, pl) → pureRead op pl = true := by
  intro c op pl hi
  rw [h] at hi
  cases hi
  exact hp

theorem samePkg_takeFree (p : Pkg) : samePkg p (takeFree p).2 := ⟨rfl, fun _ => sameTile_refl _⟩

theorem samePkg_q16Word (x : Int) (p : Pkg) : samePkg p (q16Word x p).2 := by
  unfold q16Word
  split
  · exact samePkg_refl _
  · exact samePkg_takeFree _

/-- Handles other than those of SYS 32 to 35 are read without a measurement (R370). -/
theorem measuredFor_of_no_die {t : Nat} {hs : List Handle} {p : Pkg}
    (h : (hs.all fun x => handleClass x != 0 || handleIdx x < 32 || 35 < handleIdx x) = true) : measuredFor t hs p = p := by
  refine if_neg fun hany => ?_
  obtain ⟨x, hx, hdie⟩ := List.any_eq_true.mp hany
  have hnot := List.all_eq_true.mp h x hx
  simp only [Bool.and_eq_true, beq_iff_eq, decide_eq_true_eq, Bool.or_eq_true, bne_iff_ne] at hdie hnot
  omega

theorem samePkg_tableRead (c : Ctx) (t kind copy idx off len : Nat) (p : Pkg) : samePkg p (tableRead c t kind copy idx off len p) := by
  unfold tableRead
  dsimp only
  split
  · exact samePkg_finish _ _ _ _ (by decide)
  split
  · exact samePkg_finish _ _ _ _ (by decide)
  split
  · exact samePkg_finish _ _ _ _ (by decide)
  split
  · exact samePkg_finish _ _ _ _ (by decide)
  split
  · exact samePkg_finish _ _ _ _ (by decide)
  · exact samePkg_reply _ _ _ _ _

theorem samePkg_modelRead (c : Ctx) (t part first count : Nat) (p : Pkg) : samePkg p (modelRead c t part first count p) := by
  unfold modelRead
  split
  · exact samePkg_finish _ _ _ _ (by decide)
  split
  · exact samePkg_finish _ _ _ _ (by decide)
  · exact samePkg_reply _ _ _ _ _

/-- GOVERNOR with bit 0 of FLAGS set reads (R116). -/
theorem pureRead_governor (ceil floor slack : BitVec 16) (flags rsv : Byte) (h : flags.getLsbD 0 = true) :
    pureRead 0x06 (le 2 ceil.toNat ++ le 2 floor.toNat ++ le 2 slack.toNat ++ le 1 flags.toNat ++ le 1 rsv.toNat) = true := by
  have hflags : leAt (le 2 ceil.toNat ++ le 2 floor.toNat ++ le 2 slack.toNat ++ le 1 flags.toNat ++ le 1 rsv.toNat) 6 1 = flags.toNat := by
    simp only [leAt, List.append_assoc]
    rw [slice_append_right _ _ _ _ (by simp), slice_append_right _ _ _ _ (by simp), slice_append_right _ _ _ _ (by simp),
      show (6 - (le 2 ceil.toNat).length - (le 2 floor.toNat).length - (le 2 slack.toNat).length) = 0 by simp,
      slice_append_left _ _ _ (length_le _ _), leNat_le]
    exact Nat.mod_eq_of_lt flags.isLt
  have hbit : flags.toNat % 2 = 1 := by
    rw [BitVec.getLsbD, Nat.testBit_zero] at h
    exact of_decide_eq_true h
  show (leAt _ 6 1 % 2 == 1) = true
  rw [hflags, hbit]
  rfl

theorem pointError_ne_capacity {p : Pkg} {t : Nat} {h : Handle} {st : Byte} (e : pointError p t h = some st) : st ≠ stCapacity := by
  unfold pointError at e
  split at e
  · cases e; decide
  · split at e <;> cases e
    decide

/-- A read that checks its object number first. -/
theorem samePkg_handleChecked {b : Prop} [Decidable b] (c : Ctx) (op : Byte) (t : Nat) (pl : List Byte) (p : Pkg) :
    samePkg p (if b then finish c op stBadHandle t p else reply c op t pl p) := by
  split
  · exact samePkg_finish _ _ _ _ (by decide)
  · exact samePkg_reply _ _ _ _ _

/-- Settles O38: each row's own effect is a reply or a refusal, and no other path of it does more. -/
theorem pureReadsChangeNothing : Obligations.PureReadsChangeNothing := by
  unfold Obligations.PureReadsChangeNothing
  intro s t i he hrow
  have hread {f : Nat → Pkg → Pkg} {c op pl} (hi : commandParts i = some (c, op, pl)) (hp : pureRead op pl = true)
      (hf : ∀ u, samePkg s.start (f u s.start)) (hlift : lift (command i f) s = .next t) : onlyCompletes s t :=
    read_onlyCompletes (pureRead_of_parts hi hp) hf hlift
  delta exec at he
  cases i <;> try (cases hrow; done)
  case nop c =>
    obtain ⟨u, _, hperf⟩ := List.any_eq_true.mp hrow
    obtain rfl : s.after (finish c 0x00 stOk u s.start) = t := Host.Outcome.next.inj ((performs_runs hperf).symm.trans he)
    exact onlyCompletes_after (samePkg_finish _ _ _ _ (by decide))
  case identify => refine hread rfl rfl (fun u => ?_) he; exact samePkg_reply _ _ _ _ _
  case tileState c action ei rsv =>
    obtain rfl : action = 0 := eq_of_beq hrow
    refine hread rfl rfl (fun u => ?_) he
    exact samePkg_reply _ _ _ _ _
  case health => refine hread rfl rfl (fun u => ?_) he; exact samePkg_reply _ _ _ _ _
  case governor c ceil floor slack flags rsv =>
    refine hread rfl (pureRead_governor ceil floor slack flags rsv hrow) (fun u => ?_) he
    rw [if_pos hrow]
    exact samePkg_reply _ _ _ _ _
  case pointRead c h =>
    refine hread rfl rfl (fun u => ?_) he
    rw [measuredFor_of_no_die (by simpa using hrow)]
    split
    · exact samePkg_finish _ _ _ _ (pointError_ne_capacity ‹_›)
    · exact samePkg_reply _ _ _ _ _
  case pointReadMulti c hs =>
    refine hread rfl rfl (fun u => ?_) he
    rw [measuredFor_of_no_die hrow]
    split
    next st he =>
      obtain ⟨h, _, hst⟩ := List.exists_of_findSome?_eq_some he
      exact samePkg_finish _ _ _ _ (pointError_ne_capacity hst)
    next => exact samePkg_reply _ _ _ _ _
  case channelStatus => refine hread rfl rfl (fun u => ?_) he; exact samePkg_handleChecked _ _ _ _ _
  case seqStatus => refine hread rfl rfl (fun u => ?_) he; exact samePkg_handleChecked _ _ _ _ _
  case loopRead => refine hread rfl rfl (fun u => ?_) he; exact samePkg_handleChecked _ _ _ _ _
  case tableRead => refine hread rfl rfl (fun u => ?_) he; exact samePkg_tableRead _ _ _ _ _ _ _ _
  case modelRead => refine hread rfl rfl (fun u => ?_) he; exact samePkg_modelRead _ _ _ _ _ _
  case planStatus => refine hread rfl rfl (fun u => ?_) he; exact samePkg_handleChecked _ _ _ _ _
  case profileStatus => refine hread rfl rfl (fun u => ?_) he; exact samePkg_handleChecked _ _ _ _ _
  case fanStatus =>
    refine hread rfl rfl (fun u => ?_) he
    dsimp only
    split
    · exact samePkg_finish _ _ _ _ (by decide)
    · exact (samePkg_q16Word _ _).trans (samePkg_reply _ _ _ _ _)
  case busStatus =>
    refine hread rfl rfl (fun u => ?_) he
    split
    · exact samePkg_finish _ _ _ _ (by decide)
    · split <;> exact samePkg_reply _ _ _ _ _
  case tetherStatus => refine hread rfl rfl (fun u => ?_) he; exact samePkg_reply _ _ _ _ _
  case counterRead =>
    refine hread rfl rfl (fun u => ?_) he
    dsimp only
    split
    · exact samePkg_finish _ _ _ _ (by decide)
    · split <;> exact samePkg_reply _ _ _ _ _
  case policyRead => refine hread rfl rfl (fun u => ?_) he; exact samePkg_handleChecked _ _ _ _ _
  case updateStatus => refine hread rfl rfl (fun u => ?_) he; exact samePkg_reply _ _ _ _ _

end Sys2Proof.Machine
end

section
/-!
PROOFS. Object numbers outside their ranges (R111).
-/

namespace Sys2Proof.Machine

/-- A command that its target performs leaves what its effect there is. -/
theorem exec_of_effect {i : Instr} {f : Nat → Pkg → Pkg} {s : State} {q : Pkg} {t : Nat} (hp : performs i s.start t = true)
    (he : exec i s = lift (command i f) s) (hf : f t s.start = q) : exec i s = .next (s.after q) := by
  rw [he, performs_runs hp, hf]

/-- Settles O47: the object number is the first thing that each of these commands checks. -/
theorem objectNumbersAreChecked : Obligations.ObjectNumbersAreChecked := by
  unfold Obligations.ObjectNumbersAreChecked
  rintro s p c t i rfl hp hn op pl hi
  cases i <;> try (cases hn; done)
  all_goals
    cases hi
    refine exec_of_effect hp rfl ?_
  case permitConfig.refl permit enable pred =>
    have hpermit : 3 < permit.toNat := hn
    exact if_pos (by simp [hpermit])
  case capacityConfig.refl zone prio weight =>
    have hzone : 255 < zone.toNat := hn
    exact if_pos (by simp [hzone])
  case profileFire.refl engine program ei rsv param =>
    have hout : 8 ≤ engine.toNat ∨ 16 ≤ program.toNat := by
      have : 7 < engine.toNat ∨ 15 < program.toNat := hn
      omega
    exact if_pos (by simpa [fireHandleOk] using hout)
  case angleSchedule.refl tracker count rsv entries =>
    have htracker : 1 < tracker.toNat := hn
    exact if_pos (by simp [htracker])
  all_goals exact if_pos hn

end Sys2Proof.Machine
end

section
/-!
PROOFS. No row touches the commands that wait behind it, and a step runs the one in front (log entries 1 to 3).
-/

namespace Sys2Proof.Machine

theorem after_pending (s : State) (q : Pkg) : (s.after q).pending = s.pending := drain_pending _

section
variable (s : State)

@[simp] theorem countErrors_pending (n : Nat) : (countErrors n s).pending = s.pending := rfl
@[simp] theorem notePoll_pending : (notePoll s).pending = s.pending := rfl
@[simp] theorem refreshSheet_pending : (refreshSheet s).pending = s.pending := by rw [refreshSheet, onHp_pending]
@[simp] theorem refreshSpaced_pending : (refreshSpaced s).pending = s.pending := by
  rw [refreshSpaced, refreshSheet_pending, onPkg_pending]
@[simp] theorem postHeld_pending : (postHeld s).pending = s.pending := rfl
@[simp] theorem takeLead_pending (new : Nat) : (takeLead new s).pending = s.pending := by
  simp only [takeLead, onHp_pending, onPkg_pending]

@[simp] theorem hostRead_pending (a n : Nat) : (hostRead a n s).pending = s.pending := by
  unfold hostRead
  dsimp only
  split
  · rfl
  · split <;> rfl

@[simp] theorem writeSubProd_pending (v : Word) : (writeSubProd v s).pending = s.pending := by
  unfold writeSubProd
  split <;> rfl

@[simp] theorem writeCompCons_pending (v : Word) : (writeCompCons v s).pending = s.pending := by
  unfold writeCompCons
  split <;> rfl

@[simp] theorem writeDummy_pending (v : Word) : (writeDummy v s).pending = s.pending := by
  unfold writeDummy
  split <;> rfl

@[simp] theorem writeRingReset_pending (v : Word) : (writeRingReset v s).pending = s.pending := by
  unfold writeRingReset
  split
  · rfl
  · split <;> rfl

@[simp] theorem writeBulkRelease_pending (v : Word) : (writeBulkRelease v s).pending = s.pending := by
  unfold writeBulkRelease
  split <;> rfl

theorem writeRegister_pending {a : Nat} {v : Word} {f : State → State} (hf : writeRegister a v = some f) : (f s).pending = s.pending := by
  unfold writeRegister at hf
  split at hf <;> cases hf <;> simp

@[simp] theorem hostWrite_pending (a : Nat) (data : List Byte) : (hostWrite a data s).pending = s.pending := by
  unfold hostWrite
  split
  · rfl
  · split
    next hf =>
      split at hf
      · exact writeRegister_pending s hf
      · cases hf
    next =>
      dsimp only
      split <;> rfl

@[simp] theorem addTag_pending (svc ordered : Bool) (tag : BitVec 16) (op : Byte) (tile : Nat) :
    (addTag svc tag op tile ordered s).pending = s.pending := by
  unfold addTag
  dsimp only
  split <;> rfl

@[simp] theorem countPacketError_pending (st : Byte) : (countPacketError st s).pending = s.pending := by
  unfold countPacketError
  split
  · rfl
  · split
    · rfl
    · split <;> rfl

@[simp] theorem takePacket_pending (svc : Bool) (b : List Byte) : (takePacket svc b s).pending = s.pending := by
  unfold takePacket
  split
  · rw [onPkg_pending, countPacketError_pending]
    split
    · rfl
    · exact addTag_pending ..
  · dsimp only
    split
    · rfl
    · rw [onPkg_pending, addTag_pending]

@[simp] theorem takeNext_pending : (takeNext s).pending = s.pending := by
  unfold takeNext
  dsimp only
  split
  · rfl
  · exact takePacket_pending ..

@[simp] theorem leadOnline_pending (u : Nat) : (leadOnline u s).pending = s.pending := by
  unfold leadOnline
  dsimp only
  split
  · split
    · rw [refreshSheet_pending, takeLead_pending]
    · exact takeLead_pending _ _
  · rfl

@[simp] theorem packageReset_pending (cause : Nat) : (packageReset cause s).pending = s.pending := by
  unfold packageReset
  split <;> rfl

theorem answerAll_pending : (answerAll s).pending = s.pending := by
  unfold answerAll
  rw [onPkg_pending]
  exact foldl_keeps (fun q : State => q.pending) _ deliver_pending _ _

@[simp] theorem enterDark_pending : (enterDark s).pending = s.pending := by
  unfold enterDark
  dsimp only
  rw [answerAll_pending, drain_pending, onPkg_pending, refreshSpaced_pending, onPkg_pending]

end

theorem liftAll_answers {f : State → State} {s : State} (hf : ∀ w : State, (f w).pending = w.pending) :
    ∃ t, liftAll f s = .next t ∧ t.pending = s.pending :=
  ⟨_, machine_runs f s, (drain_pending _).trans (hf _)⟩

theorem registerWrite_answers {f : State → State} {s : State} (hf : ∀ w : State, (f w).pending = w.pending) :
    ∃ t, registerWrite f s = .next t ∧ t.pending = s.pending :=
  liftAll_answers fun w => by
    split
    · rw [hf, hostCrosses_pending]
    · rfl

/-- The rows on the whole machine answer, where the variant has the tile that they name. -/
theorem exec_answers_of_machine {i : Instr} {s : State} (hm : actsOnMachine i = true) (ht : tilePresent i s = true) :
    ∃ t, exec i s = .next t ∧ t.pending = s.pending := by
  delta exec
  cases i <;> try (cases hm; done)
  case poll => exact liftAll_answers fun w => by simp
  case subProd => exact registerWrite_answers fun w => writeSubProd_pending w _
  case compCons => exact registerWrite_answers fun w => writeCompCons_pending w _
  case dummy => exact registerWrite_answers fun w => writeDummy_pending w _
  case hpRingReset => exact registerWrite_answers fun w => writeRingReset_pending w _
  case bulkRelease => exact registerWrite_answers fun w => writeBulkRelease_pending w _
  case hostPortWrite => exact liftAll_answers fun w => by simp
  case hpInvalidCommand => exact liftAll_answers fun w => by split <;> simp
  case hpBrokenByte =>
    refine liftAll_answers fun w => ?_
    dsimp only
    split <;> split <;> simp
  case packetTake => exact liftAll_answers fun w => by split <;> simp
  case contactSheetRefresh => exact liftAll_answers fun w => by split <;> simp
  case hostAbsent =>
    refine liftAll_answers fun w => ?_
    split
    · rfl
    · rw [onHp_pending, onPkg_pending]
  case bulkTimeout =>
    refine liftAll_answers fun w => ?_
    split
    · rfl
    · split
      · rfl
      · rw [onHp_pending, onPkg_pending]
  case leadTakeover => exact liftAll_answers fun w => by split <;> simp
  case leadBootTimeout =>
    refine liftAll_answers fun w => ?_
    split
    · rfl
    · dsimp only
      split <;> simp
  case bootComplete u _ =>
    have hu : u.toNat < s.pkg.n := of_decide_eq_true ht
    simp only [execBootComplete, if_pos hu]
    exact liftAll_answers fun w => by split <;> simp
  case brownOut => exact liftAll_answers fun w => by simp
  case vcc11Low => exact liftAll_answers fun w => packageReset_pending w _
  case vanaLow => exact liftAll_answers fun w => packageReset_pending w _
  case resetN => exact liftAll_answers fun w => packageReset_pending w _
  case resetRelease =>
    refine liftAll_answers fun w => ?_
    dsimp only
    split <;> simp
  case tapInstruction u _ =>
    have hu : u.toNat < s.pkg.n := of_decide_eq_true ht
    simp only [execTapInstruction, if_pos hu]
    refine liftAll_answers fun w => ?_
    split
    · simp
    · split <;> simp
  case darkroomCheck =>
    refine liftAll_answers fun w => ?_
    split
    · rfl
    · dsimp only
      split
      · rw [enterDark_pending, onPkg_pending]
      · rw [onPkg_pending]
  case darkroomResume =>
    refine liftAll_answers fun w => ?_
    split
    · rfl
    · dsimp only
      split <;> simp
  case servicePacket =>
    refine liftAll_answers fun w => ?_
    split
    · rfl
    · dsimp only
      split
      · simp
      · split <;> simp
  case time => exact liftAll_answers fun w => rfl

theorem exec_faults_of_machine {i : Instr} {s : State} {u : TileId} (hm : actsOnMachine i = true) (ht : rowTile i = some u)
    (hn : s.pkg.n ≤ u.toNat) : exec i s = .fault (.absentTile u.toNat) := by
  delta exec
  cases i <;> try (first | (cases hm; done) | (cases ht; done))
  case bootComplete => cases ht; exact if_neg (by omega)
  case tapInstruction => cases ht; exact if_neg (by omega)

/-- Settles O33: a row runs on the package, on one tile of it or on the whole machine, and stops only where that tile is absent. -/
theorem onlyAbsentTilesStop : Obligations.OnlyAbsentTilesStop := by
  unfold Obligations.OnlyAbsentTilesStop
  intro i s
  refine ⟨fun hpresent => ?_, fun u ht hn => ?_⟩
  · cases hm : actsOnMachine i with
    | true => exact exec_answers_of_machine hm hpresent
    | false =>
      cases ht : rowTile i with
      | none =>
        obtain ⟨f, e⟩ := exec_eq_lift s hm ht
        exact ⟨_, e.trans (package_runs f s), after_pending _ _⟩
      | some u =>
        obtain ⟨f, e⟩ := exec_eq_liftTile s hm ht
        have hu : u.toNat < s.pkg.n := by simpa [tilePresent, ht] using hpresent
        exact ⟨_, e.trans (tile_runs hu), after_pending _ _⟩
  · cases hm : actsOnMachine i with
    | true => exact exec_faults_of_machine hm ht hn
    | false =>
      obtain ⟨f, e⟩ := exec_eq_liftTile s hm ht
      rw [e]
      exact if_neg (by omega)

end Sys2Proof.Machine
end

section
/-!
PROOFS. What a change of every tile, and with it the passing of package time, does to a package (R52).
-/

namespace Sys2Proof.Machine

/-- A change of each tile of a list, once each, reaches just the tiles of the list. -/
theorem foldl_onTile_tile (f : Nat → Tile → Tile) {l : List Nat} (hl : l.Nodup) (p : Pkg) (u : Nat) :
    (l.foldl (fun q t => onTile t (f t) q) p).tile u = if u ∈ l then f u (p.tile u) else p.tile u := by
  induction l generalizing p with
  | nil => simp
  | cons t r ih =>
    obtain ⟨ht, hr⟩ := List.nodup_cons.mp hl
    rw [List.foldl_cons, ih hr]
    by_cases e : u = t
    · subst e
      simp [ht]
    · simp [e, onTile_tile_ne _ _ e]

theorem onTiles_tile (f : Nat → Tile → Tile) (p : Pkg) (u : Nat) :
    (onTiles f p).tile u = if u < p.n then f u (p.tile u) else p.tile u := by
  unfold onTiles
  rw [foldl_onTile_tile f List.nodup_range p u]
  simp only [List.mem_range]

/-- A package without its tiles. -/
def Pkg.noTiles (p : Pkg) : Pkg := { p with tiles := [] }

/-- A change of every tile changes nothing but tiles. -/
theorem onTiles_noTiles (f : Nat → Tile → Tile) (p : Pkg) : (onTiles f p).noTiles = p.noTiles := by
  unfold onTiles
  exact foldl_keeps Pkg.noTiles (fun q t => onTile t (f t) q) (fun _ _ => rfl) _ p

@[simp] theorem onTiles_now (f : Nat → Tile → Tile) (p : Pkg) : (onTiles f p).now = p.now := by
  have h := congrArg Pkg.now (onTiles_noTiles f p)
  exact h
@[simp] theorem onTiles_ident (f : Nat → Tile → Tile) (p : Pkg) : (onTiles f p).ident = p.ident := by
  have h := congrArg Pkg.ident (onTiles_noTiles f p)
  exact h
@[simp] theorem onTiles_inReset (f : Nat → Tile → Tile) (p : Pkg) : (onTiles f p).inReset = p.inReset := by
  have h := congrArg Pkg.inReset (onTiles_noTiles f p)
  exact h
@[simp] theorem onTiles_straps (f : Nat → Tile → Tile) (p : Pkg) : (onTiles f p).straps = p.straps := by
  have h := congrArg Pkg.straps (onTiles_noTiles f p)
  exact h

@[simp] theorem onTiles_n (f : Nat → Tile → Tile) (p : Pkg) : (onTiles f p).n = p.n := by rw [Pkg.n, onTiles_ident, Pkg.n]
@[simp] theorem onShared_n (f : Shared → Shared) (p : Pkg) : (onShared f p).n = p.n := rfl
@[simp] theorem onTile_n (t : Nat) (f : Tile → Tile) (p : Pkg) : (onTile t f p).n = p.n := rfl

theorem advance_zero (p : Pkg) : advance 0 p = p := rfl

/-- Time that passes is added to the clock of the package. -/
theorem advance_now {k : Nat} (hk : k ≠ 0) (p : Pkg) : (advance k p).now = (p.now + k) % 2 ^ 64 := by
  simp [advance, hk]

/-- The tick of 31.25 ns of an idle step (R52). -/
theorem tick_next (s : State) : tick s = .next (s.after (busDue (advance 1 s.start))) := package_runs _ s

@[simp] theorem onRs_now (b : RsPort) (f : RsState → RsState) (p : Pkg) : (onRs b f p).now = p.now := rfl
@[simp] theorem onT1s_now (f : T1sState → T1sState) (p : Pkg) : (onT1s f p).now = p.now := rfl

@[simp] theorem busDue_now (p : Pkg) : (busDue p).now = p.now := by
  unfold busDue
  split
  · rfl
  · simp

theorem after_settled (s : State) (q : Pkg) : (s.after q).pkg.settled = q.settled := (onlyCompletes_drain { s with pkg := q }).2.1.1

theorem after_now (s : State) (q : Pkg) : (s.after q).pkg.now = q.now := by
  have h := congrArg Pkg.now (after_settled s q)
  exact h

theorem after_hp_settled (s : State) (q : Pkg) : (s.after q).hp.settled = s.hp.settled := (onlyCompletes_drain { s with pkg := q }).1

/-- Settles O32: the queue's front runs; with nothing to run, time passes by one tick. -/
theorem queueHeadRuns : Obligations.QueueHeadRuns := by
  unfold Obligations.QueueHeadRuns
  refine ⟨fun i rest s h => by simp only [step, h], fun s hp hbulk hstart => ?_⟩
  refine ⟨s.after (busDue (advance 1 s.start)), ?_, ?_, after_outbox _ _, (after_pending _ _).trans hp, after_hp_settled _ _⟩
  · simp only [step, hp, hbulk, hstart, tick_next]
  · rw [after_now, busDue_now, advance_now (by decide), start_now]

end Sys2Proof.Machine
end

-- The registers and windows of the host port (03_host_port.md).
section
/-!
PROOFS. The host port at reset, its registers, and what a transaction leaves as it was (R82, R83, R89 to R96, R105).
-/

namespace Sys2Proof.Machine

/-- Settles O57: the machine at reset holds the defaults of its records, which are evaluated. -/
theorem resetIsSound : Obligations.ResetIsSound := by
  unfold Obligations.ResetIsSound
  refine ⟨by decide, rfl, rfl, rfl, by decide, rfl, rfl, rfl, rfl, fun t => ⟨rfl, fun k => ⟨rfl, rfl⟩⟩, fun t c => ?_, fun t n => ?_,
    fun t => ⟨rfl, rfl, rfl⟩⟩
  · show Chan.reset.curve = 0xFFFF ∧ Chan.reset.mode = 0
    decide
  · show dLaw Slot.reset.desc = 0 ∧ dMode Slot.reset.desc = 3 ∧ dGain Slot.reset.desc = 0xFFFF
      ∧ ∀ i, i < 4 → dIn Slot.reset.desc i = noHandle
    decide +kernel

/-! Register writes. -/

/-- A register write where the port answers. -/
theorem registerWrite_answered {f : State → State} {s : State} (ha : hostAnswers s.begun = true) :
    registerWrite f s = .next (drain (f (hostCrosses 4 0 s.begun))) := by
  rw [registerWrite, machine_runs, if_pos ha]

theorem registerWrite_refused {f : State → State} {s w : State} (ha : hostAnswers s.begun = true) (hw : w = hostCrosses 4 0 s.begun)
    (hf : f w = countErrors 1 w) : registerWrite f s = .next (drain (countErrors 1 w)) := by
  rw [registerWrite_answered ha, ← hw, hf]

theorem hostCrosses_begun_hp (received sent : Nat) (s : State) : (hostCrosses received sent s.begun).hp = s.hp := hostCrosses_hp _ _ _

/-- Settles O44: each write checks its bounds first, and counts what it ignores. -/
theorem badRegisterWritesAreCounted : Obligations.BadRegisterWritesAreCounted := by
  unfold Obligations.BadRegisterWritesAreCounted
  intro s w v ha hw
  have hhp : w.hp = s.hp := by rw [hw, hostCrosses_begun_hp]
  refine ⟨fun h => ?_, fun h => ?_, fun h => ?_, fun h => ?_, fun h => ?_⟩
  · refine registerWrite_refused (f := writeSubProd v) ha hw (if_pos ?_)
    rw [hhp, Bool.not_eq_true', subProdOk, Bool.and_eq_false_iff, beq_eq_false_iff_ne, decide_eq_false_iff_not, Nat.not_le]
    exact h
  · refine registerWrite_refused (f := writeCompCons v) ha hw (if_pos ?_)
    rw [hhp, Bool.not_eq_true', compConsOk, Bool.and_eq_false_iff, beq_eq_false_iff_ne, decide_eq_false_iff_not, Nat.not_le]
    exact h
  · refine registerWrite_refused (f := writeDummy v) ha hw (if_pos ?_)
    simpa using h
  · exact registerWrite_refused (f := writeRingReset v) ha hw (if_pos h)
  · exact registerWrite_refused (f := writeBulkRelease v) ha hw (if_pos h)

/-! What a transaction leaves as it was. -/

theorem samePkg_begun (s : State) : samePkg s.pkg s.begun.pkg := samePkg_start s

theorem samePkg_hostCrosses (received sent : Nat) (s : State) : samePkg s.pkg (hostCrosses received sent s).pkg := by
  unfold hostCrosses
  split
  · exact samePkg_countPort _ _ _ _ _
  · exact samePkg_refl _

theorem samePkg_drain (s : State) : samePkg s.pkg (drain s).pkg := (onlyCompletes_drain s).2.1

theorem drain_hp_settled (s : State) : (drain s).hp.settled = s.hp.settled := (onlyCompletes_drain s).1

/-- A meaning on the machine that leaves the package alone, and of the host port what `mask` does not take out. -/
theorem liftAll_keeps_port {f : State → State} {s t : State} {α : Type} (mask : HostPort → α)
    (hpkg : ∀ w : State, samePkg w.pkg (f w).pkg) (hhp : ∀ w : State, mask (f w).hp.settled = mask w.hp.settled)
    (he : liftAll f s = .next t) : samePkg s.pkg t.pkg ∧ mask t.hp.settled = mask s.hp.settled := by
  rw [liftAll_next_iff.mp he, drain_hp_settled, hhp]
  exact ⟨((samePkg_begun s).trans (hpkg _)).trans (samePkg_drain _), rfl⟩

theorem registerWrite_keeps_port {f : State → State} {s t : State} {α : Type} (mask : HostPort → α)
    (hpkg : ∀ w : State, samePkg w.pkg (f w).pkg) (hhp : ∀ w : State, mask (f w).hp.settled = mask w.hp.settled)
    (he : registerWrite f s = .next t) : samePkg s.pkg t.pkg ∧ mask t.hp.settled = mask s.hp.settled := by
  refine liftAll_keeps_port mask (fun w => ?_) (fun w => ?_) he
  · split
    · exact (samePkg_hostCrosses _ _ _).trans (hpkg _)
    · exact samePkg_refl _
  · split
    · rw [hhp, hostCrosses_hp]
    · rfl

/-! The registers, each with what its write touches. -/

theorem samePkg_hostRead (a n : Nat) (s : State) : samePkg s.pkg (hostRead a n s).pkg := by
  unfold hostRead
  dsimp only
  split
  · exact samePkg_refl _
  · split <;> exact samePkg_refl _

theorem hostRead_settled (a n : Nat) (s : State) :
    { (hostRead a n s).hp.settled with readData := [], absent := false, lastPoll := 0 }
      = { s.hp.settled with readData := [], absent := false, lastPoll := 0 } := by
  unfold hostRead
  dsimp only
  split
  · rfl
  · split <;> rfl

/-- Held completions that are posted leave the registers as they were. -/
theorem flush_settled (h : HostPort) (l : List (List Byte)) (r : HpRings) (hr : ({ h with rings := r } : HostPort).settled = h.settled) :
    ({ h with rings := r.flush l } : HostPort).settled = h.settled := by
  induction l generalizing r with
  | nil => exact hr
  | cons pkt rest ih =>
    unfold HpRings.flush
    split
    · exact ih _ hr
    · exact hr

theorem flushHeld_settled (h : HostPort) : h.flushHeld.settled = h.settled := flush_settled h _ _ rfl

/-- Two states differ at most in the bulk buffers and in the way of completions, their host ports aside (R96). -/
def onlyBulk (a b : State) : Prop := onlyShared (fun x => { x with bulk := [] }) { a with hp := {} } { b with hp := {} }

theorem onlyBulk_of_samePkg {a b : State} (h : samePkg a.pkg b.pkg) (hp : b.pending = a.pending) : onlyBulk a b :=
  ⟨rfl, congrArg (fun q : Pkg => { q with sh := { q.sh with bulk := [] } }) h.1, hp, h.2⟩

theorem onlyBulk.trans {a b c : State} (h : onlyBulk a b) (k : onlyBulk b c) : onlyBulk a c := by
  obtain ⟨_, hsh, hpend, htile⟩ := h
  obtain ⟨_, ksh, kpend, ktile⟩ := k
  exact ⟨rfl, ksh.trans hsh, kpend.trans hpend, fun u => (htile u).trans (ktile u)⟩

/-- What a change of the bulk buffers does to a package. -/
theorem onlyBulk_onPkg {f : Pkg → Pkg} (w : State)
    (hf : { (f w.pkg).settled with sh := { (f w.pkg).sh.settled with bulk := [] } } = { w.pkg.settled with sh := { w.pkg.sh.settled with bulk := [] } })
    (ht : ∀ u, (f w.pkg).tile u = w.pkg.tile u) : onlyBulk w (onPkg f w) :=
  ⟨rfl, hf, rfl, fun u => by rw [onPkg_pkg, ht]; exact sameTile_refl _⟩

theorem onlyBulk_release (l : List Nat) (w : State) : onlyBulk w (onPkg (releaseBulk l) w) := onlyBulk_onPkg w rfl fun _ => rfl

theorem onlyBulk_restart (b : Nat) (w : State) : onlyBulk w (onPkg (restartBulk b) w) := by
  refine onlyBulk_onPkg w ?_ fun u => ?_
  · unfold restartBulk
    split <;> rfl
  · unfold restartBulk
    split <;> rfl

theorem onlyBulk_restarts (l : List (List Byte)) (w : State) :
    onlyBulk w (onPkg (fun p => forAll l (fun k q => (bulkNamed k).elim q (fun b => restartBulk b q)) p) w) := by
  induction l generalizing w with
  | nil => exact onlyBulk_of_samePkg (samePkg_refl _) rfl
  | cons k r ih =>
    refine onlyBulk.trans ?_ (ih (onPkg (fun q => (bulkNamed k).elim q (fun b => restartBulk b q)) w))
    cases bulkNamed k with
    | none => exact onlyBulk_of_samePkg (samePkg_refl _) rfl
    | some b => exact onlyBulk_restart b w

theorem onlyBulk_postHeld (w : State) : onlyBulk w (postHeld w) :=
  onlyBulk_restarts _ (onHp HostPort.flushHeld w)

/-- A register write that may touch the bulk buffers. -/
theorem registerWrite_keeps_units {f : State → State} {s t : State} {α : Type} (mask : HostPort → α)
    (hbulk : ∀ w : State, onlyBulk w (f w)) (hhp : ∀ w : State, mask (f w).hp.settled = mask w.hp.settled)
    (he : registerWrite f s = .next t) : onlyBulk s t ∧ mask t.hp.settled = mask s.hp.settled := by
  have hf : onlyBulk s.begun (if hostAnswers s.begun then f (hostCrosses 4 0 s.begun) else s.begun)
      ∧ mask (if hostAnswers s.begun then f (hostCrosses 4 0 s.begun) else s.begun).hp.settled = mask s.hp.settled := by
    split
    · refine ⟨onlyBulk.trans ?_ (hbulk _), ?_⟩
      · exact onlyBulk_of_samePkg (samePkg_hostCrosses _ _ _) (hostCrosses_pending _ _ _)
      · rw [hhp, hostCrosses_begun_hp]
    · exact ⟨onlyBulk_of_samePkg (samePkg_refl _) rfl, rfl⟩
  rw [liftAll_next_iff.mp he, drain_hp_settled]
  refine ⟨?_, hf.2⟩
  refine onlyBulk.trans (onlyBulk_of_samePkg (samePkg_begun s) rfl) (hf.1.trans ?_)
  exact onlyBulk_of_samePkg (samePkg_drain _) (drain_pending _)

/-- A host port without what a write of COMP_CONS touches (R93, R94, R105). -/
def HostPort.noCompCons (h : HostPort) : HostPort :=
  { h with counts := {}, absent := false, lastPoll := 0, rings := { h.rings with compCons := 0 } }

/-- A host port without what a write of RING_RESET touches (R95). -/
def HostPort.noIndices (h : HostPort) : HostPort :=
  { h with counts := {}, rings := { h.rings with subProd := 0, subCons := 0, compCons := 0, halted := false, unmirrored := [] } }

/-- Settles O42: the transactions of the host write registers and bulk buffers, and other rows reach the port by their completions. -/
theorem hostPortIsKept : Obligations.HostPortIsKept := by
  unfold Obligations.HostPortIsKept
  intro s t i he
  cases hm : actsOnMachine i with
  | false =>
    obtain ⟨q, rfl⟩ := exec_next_after hm he
    cases i <;> first | (cases hm; done) | exact after_hp_settled s q
  | true =>
    delta exec at he
    cases i <;> try (first | (cases hm; done) | exact trivial)
    case poll =>
      refine liftAll_keeps_port (fun h : HostPort => { h with readData := [], absent := false, lastPoll := 0 })
        (fun w => (samePkg_hostCrosses _ _ _).trans (samePkg_hostRead _ _ _)) (fun w => ?_) he
      rw [hostRead_settled, hostCrosses_hp]
    case subProd =>
      refine registerWrite_keeps_port (fun h : HostPort => { h with
        counts := {}, rings := { h.rings with subProd := 0, unmirrored := [] } }) (fun w => ?_) (fun w => ?_) he
      · unfold writeSubProd
        split <;> exact samePkg_refl _
      · unfold writeSubProd
        split <;> rfl
    case compCons v =>
      refine registerWrite_keeps_units HostPort.noCompCons (fun w => ?_) (fun w => ?_) he
      · unfold writeCompCons
        split
        · exact onlyBulk_of_samePkg (samePkg_refl _) rfl
        · exact onlyBulk_postHeld (onHpRings _ w)
      · unfold writeCompCons
        split
        · rfl
        · have h := congrArg HostPort.noCompCons (flushHeld_settled (onHpRings (fun r => { r with compCons := v }) w).hp)
          exact h
    case dummy =>
      refine registerWrite_keeps_port (fun h : HostPort => { h with counts := {}, dummy := 0 }) (fun w => ?_) (fun w => ?_) he
      · unfold writeDummy
        split <;> exact samePkg_refl _
      · unfold writeDummy
        split <;> rfl
    case hpRingReset =>
      refine registerWrite_keeps_units HostPort.noIndices (fun w => ?_) (fun w => ?_) he
      · unfold writeRingReset
        split
        · exact onlyBulk_of_samePkg (samePkg_refl _) rfl
        · split
          · exact onlyBulk_of_samePkg (samePkg_refl _) rfl
          · exact onlyBulk_postHeld (onHp _ w)
      · unfold writeRingReset
        split
        · rfl
        · split
          · rfl
          · dsimp only
            rw [postHeld_hp, flushHeld_settled]
            rfl
    case bulkRelease =>
      refine (registerWrite_keeps_units (fun h : HostPort => { h with counts := {} }) (fun w => ?_) (fun w => ?_) he).symm
      · unfold writeBulkRelease
        split
        · exact onlyBulk_of_samePkg (samePkg_refl _) rfl
        · exact onlyBulk_release _ w
      · unfold writeBulkRelease
        split <;> rfl
    case hpInvalidCommand =>
      refine liftAll_keeps_port (fun h : HostPort => { h with counts := {} }) (fun w => ?_) (fun w => ?_) he
      · split <;> exact samePkg_refl _
      · split <;> rfl

end Sys2Proof.Machine
end

section
/-!
PROOFS. A burst of the host, byte by byte (R82, R83).
-/

namespace Sys2Proof.Machine

theorem burstAt_add (a j k : Nat) : burstAt a (j + k) = burstAt (burstAt a j) k := by
  induction j generalizing a with
  | zero => rw [Nat.zero_add, burstAt]
  | succ j ih => rw [Nat.succ_add, burstAt, burstAt, ih]

/-- Within the submission ring a burst goes on, and wraps to its start (R82). -/
theorem burstAt_ring {y : Nat} (hy : y < 65536) (k : Nat) : burstAt (0x1000 + y) k = 0x1000 + (y + k) % 65536 := by
  induction k generalizing y with
  | zero => rw [burstAt, Nat.add_zero, Nat.mod_eq_of_lt hy]
  | succ k ih =>
    have hnext : hpNext (0x1000 + y) = 0x1000 + (y + 1) % 65536 := by
      unfold hpNext
      simp only [beq_iff_eq]
      split
      · omega
      · split <;> omega
    rw [burstAt, hnext, ih (Nat.mod_lt _ (by decide)), Nat.mod_add_mod, Nat.add_right_comm, Nat.add_assoc]

/-- A burst of at most 65,536 bytes meets no address of the submission ring twice. -/
theorem burstAt_ring_ne {a j k y : Nat} (h : burstAt a j = 0x1000 + y) (hy : y < 65536) (hjk : j < k) (hk : k < j + 65536) :
    burstAt a k ≠ 0x1000 + y := by
  obtain ⟨d, rfl⟩ := Nat.exists_eq_add_of_lt hjk
  rw [Nat.add_assoc, burstAt_add, h, burstAt_ring hy]
  omega

/-- A byte of the ring that the burst does not reach stays. -/
theorem memGet_hpWriteBytes_of_ne {data : List Byte} {m : List Host.Cell} {a y : Nat}
    (h : ∀ k, k < data.length → burstAt a k ≠ 0x1000 + y) : memGet (hpWriteBytes m a data).1 y = memGet m y := by
  induction data generalizing m a with
  | nil => rfl
  | cons b r ih =>
    simp only [hpWriteBytes]
    rw [ih fun k hk => h (k + 1) (Nat.succ_lt_succ hk)]
    split
    next hring =>
      have ha : a ≠ 0x1000 + y := h 0 (Nat.succ_pos _)
      simp only [Bool.and_eq_true, decide_eq_true_eq] at hring
      exact memGet_memSet_ne _ _ (by omega)
    next => rfl

/-- A byte of the burst that falls into the ring is there. -/
theorem memGet_hpWriteBytes {data : List Byte} {m : List Host.Cell} {a k y : Nat} {b : Byte} (hm : Memory.wf m = true)
    (hlen : data.length ≤ 65536) (hb : data[k]? = some b) (hy : y < 65536) (hk : burstAt a k = 0x1000 + y) :
    memGet (hpWriteBytes m a data).1 y = b := by
  induction data generalizing m a k with
  | nil => cases hb
  | cons b' r ih =>
    have hr : r.length + 1 ≤ 65536 := hlen
    simp only [hpWriteBytes]
    cases k with
    | zero =>
      obtain rfl : b' = b := by simpa using hb
      have ha : a = 0x1000 + y := hk
      rw [if_pos (by simp only [Bool.and_eq_true, decide_eq_true_eq]; omega), memGet_hpWriteBytes_of_ne fun n hn => ?_, ha,
        Nat.add_sub_cancel_left, memGet_memSet_self _ _ _ hm]
      exact burstAt_ring_ne (a := a) (j := 0) (k := n + 1) hk hy (Nat.succ_pos _) (by omega)
    | succ k =>
      refine ih ?_ (by omega) (by simpa using hb) hk
      split
      · exact memSet_wf _ _ _ hm
      · exact hm

/-- The burst notes whether it ignored a byte (R83). -/
theorem hpWriteBytes_ignored (data : List Byte) (m : List Host.Cell) (a : Nat) :
    (hpWriteBytes m a data).2 = true ↔ ∃ k, k < data.length ∧ ¬(0x1000 ≤ burstAt a k ∧ burstAt a k < 0x11000) := by
  induction data generalizing m a with
  | nil => simp [hpWriteBytes]
  | cons b r ih =>
    simp only [hpWriteBytes, Bool.or_eq_true, ih, Bool.not_eq_true', Bool.and_eq_false_iff, decide_eq_false_iff_not]
    constructor
    · rintro (⟨k, hk, h⟩ | h)
      · exact ⟨k + 1, Nat.succ_lt_succ hk, h⟩
      · exact ⟨0, Nat.succ_pos _, by rw [burstAt]; omega⟩
    · rintro ⟨k, hk, h⟩
      cases k with
      | zero => exact .inr (by rw [burstAt] at h; omega)
      | succ k => exact .inl ⟨k, Nat.lt_of_succ_lt_succ hk, h⟩

/-- One more error, up to 0xFFFF_FFFF (R85). -/
theorem countErrors_one (w : Word) : w32 (satNat 32 (w.toNat + 1)) = incSat w := by
  have hw := w.isLt
  unfold w32 satNat incSat
  apply BitVec.eq_of_toNat_eq
  split
  next h =>
    have hne : w ≠ 0xFFFFFFFF#32 := by rintro rfl; simp at h
    rw [if_neg hne]
    simp [BitVec.toNat_add]
  next h =>
    have he : w = 0xFFFFFFFF#32 := by apply BitVec.eq_of_toNat_eq; simp; omega
    subst he
    rfl

/-- With no completion on its way, the delivery changes nothing. -/
theorem drain_hp_of_nil {s : State} (h : s.pkg.outbox = []) : (drain s).hp = s.hp := by rw [drain_nil s h]
theorem drain_sh_of_nil {s : State} (h : s.pkg.outbox = []) : (drain s).pkg.sh = s.pkg.sh := by rw [drain_nil s h]

@[simp] theorem hostCrosses_outbox (received sent : Nat) (s : State) : (hostCrosses received sent s).pkg.outbox = s.pkg.outbox := by
  unfold hostCrosses
  split
  · exact countPort_outbox _ _ _ _ _
  · rfl

/-- What a step finds has the bulk buffers of the state before it. -/
theorem start_bulk (s : State) : s.start.sh.bulk = s.pkg.sh.bulk := by
  have h := congrArg (fun p : Pkg => p.sh.bulk) (start_lines s).1
  exact h

/-- A byte of the address space that reads from neither the submission ring nor the state of the port that a burst changes. -/
theorem hpByte_congr {s t : State} {a : Nat} (hsheet : t.hp.sheet = s.hp.sheet) (hreg : ∀ off, hpRegister t off = hpRegister s off)
    (hsub : 0x1000 ≤ a → a < 0x11000 → memGet t.hp.rings.subMem (a - 0x1000) = memGet s.hp.rings.subMem (a - 0x1000))
    (hcomp : t.hp.rings.compMem = s.hp.rings.compMem) (hbulk : t.pkg.sh.bulk = s.pkg.sh.bulk) : hpByte t a = hpByte s a := by
  unfold hpByte
  rw [hsheet, hreg, hcomp, show bulkByte t.pkg a = bulkByte s.pkg a by simp only [bulkByte, hbulk]]
  split
  · rfl
  · split
    · rfl
    · split
      next h =>
        simp only [Bool.and_eq_true, decide_eq_true_eq] at h
        exact hsub h.1 h.2
      next => rfl

/-- The host port after a burst that is no register write (R83). -/
def HostPort.burst (a : Nat) (data : List Byte) (h : HostPort) : HostPort :=
  { h with rings := { h.rings with subMem := (hpWriteBytes h.rings.subMem a data).1 }
           counts := { h.counts with errors := if (hpWriteBytes h.rings.subMem a data).2 = true then incSat h.counts.errors else h.counts.errors } }

theorem hostWrite_burst {a : Nat} {data : List Byte} {w : State} (ha : hostAnswers w = true)
    (hreg : data.length = 4 → writeRegister a (w32 (leNat data)) = none) :
    hostWrite a data w = onHp (HostPort.burst a data) w := by
  have hnone : (if data.length == 4 then writeRegister a (w32 (leNat data)) else none) = none := by
    split
    next h => exact hreg (eq_of_beq h)
    next => rfl
  simp only [hostWrite, ha, hnone, Bool.not_true, Bool.false_eq_true, if_false]
  split
  next h => simp only [countErrors, onHpRings, onHp, countErrors_one, HostPort.burst, h, if_true]
  next h => simp only [onHpRings, onHp, HostPort.burst, h, Bool.false_eq_true, if_false]

/-- A burst that is no register write, as a step. -/
theorem exec_hostPortWrite {s : State} {addr : BitVec 24} {data : List Byte} (ha : hostAnswers s.begun = true) (hbox : s.pkg.outbox = [])
    (hreg : data.length = 4 → writeRegister addr.toNat (w32 (leNat data)) = none) :
    ∃ t, exec (.hostPortWrite addr data) s = .next t ∧ t.hp = s.hp.burst addr.toNat data ∧ t.pkg.sh.bulk = s.pkg.sh.bulk := by
  have hrun : exec (.hostPortWrite addr data) s = .next (drain (hostWrite addr.toNat data (hostCrosses data.length 0 s.begun))) := rfl
  rw [hostWrite_burst (by rw [hostAnswers_hostCrosses, ha]) hreg] at hrun
  have hout : (hostCrosses data.length 0 s.begun).pkg.outbox = [] := by
    rw [hostCrosses_outbox]
    exact (start_outbox s).trans hbox
  refine ⟨_, hrun, ?_, ?_⟩
  · rw [drain_hp_of_nil (by rw [onHp_pkg, hout]), onHp_hp, hostCrosses_begun_hp]
  · rw [drain_sh_of_nil (by rw [onHp_pkg, hout]), onHp_pkg, hostCrosses_sh]
    exact start_bulk s

/-- Settles O43: the bytes of a burst go one by one to the ring or nowhere. -/
theorem hostWritesReadBack : Obligations.HostWritesReadBack := by
  unfold Obligations.HostWritesReadBack
  intro s addr data hs ha hlen hreg
  obtain ⟨hsound, hbox⟩ := (State.sound_iff s).mp hs
  obtain ⟨t, hrun, hhp, hbulk⟩ := exec_hostPortWrite ha hbox hreg
  refine ⟨t, hrun, fun k b hb hlo hhi => ?_, fun a hna => ?_, ?_⟩
  · have hread : hpByte t (burstAt addr.toNat k) = memGet t.hp.rings.subMem (burstAt addr.toNat k - 0x1000) := by
      unfold hpByte
      rw [if_neg (by omega), if_neg (by omega), if_pos (by simp only [Bool.and_eq_true, decide_eq_true_eq]; omega)]
    rw [hread, hhp]
    exact memGet_hpWriteBytes hsound.rings.subWf hlen hb (by omega) (by omega)
  · refine hpByte_congr (by rw [hhp]; rfl) (fun off => ?_) (fun hlo hhi => ?_) (by rw [hhp]; rfl) hbulk
    · simp only [hpRegister, bulkValid, hbulk, hhp, HostPort.burst]
    · rw [hhp]
      exact memGet_hpWriteBytes_of_ne fun k hk hka => hna ⟨hlo, hhi, k, hk, by omega⟩
  · rw [hhp]
    simp only [HostPort.burst, hpWriteBytes_ignored]

end Sys2Proof.Machine
end

section
/-!
PROOFS. The checks of a taken packet (R91, R97, R99).
-/

namespace Sys2Proof.Machine

theorem ringGet_take (m : List Host.Cell) (i : Nat) {k n : Nat} (h : k ≤ n) : (ringGet m i n).take k = ringGet m i k := by
  unfold ringGet
  rw [← List.map_take, List.take_range, Nat.min_eq_left h]

/-- The LENGTH of a packet stands in its first eight bytes. -/
theorem pkLen_take (b : List Byte) : pkLen (b.take 8) = pkLen b := by
  unfold pkLen leAt slice
  rw [List.drop_take, List.take_take, show min 2 (8 - 4) = 2 from rfl]

theorem pkLen_ringGet (m : List Host.Cell) (i : Nat) {n : Nat} (h : 8 ≤ n) : pkLen (ringGet m i n) = pkLen (ringGet m i 8) := by
  rw [← pkLen_take, ringGet_take m i h]

/-- The taking of a packet that can be framed (R91). -/
theorem exec_packetTake {s : State} {hdr pkt : List Byte} {len : Nat} (hmay : mayTake s.begun = true)
    (hhdr : hdr = ringGet s.hp.rings.subMem s.hp.rings.subCons.toNat 8) (hlen : len = pkLen hdr)
    (hframe : frames len s.hp.rings.subUsed = true) (hpkt : pkt = ringGet s.hp.rings.subMem s.hp.rings.subCons.toNat (12 + len)) :
    exec .packetTake s = .next (drain (takePacket false pkt
      (onHpRings (fun r => { r with subCons := r.subCons + BitVec.ofNat 32 (12 + len) }) s.begun))) := by
  have hrun : exec .packetTake s = .next (drain (if mayTake s.begun then takeNext s.begun else s.begun)) := rfl
  rw [hrun, if_pos hmay]
  subst hhdr hlen hpkt
  have hf : frames (pkLen (ringGet s.begun.hp.rings.subMem s.begun.hp.rings.subCons.toNat 8)) s.begun.hp.rings.subUsed = true := hframe
  simp only [takeNext, hf, Bool.not_true, Bool.false_eq_true, if_false]
  rfl

/-- A packet that fails a check is answered with its status (R99). -/
theorem takePacket_of_error {svc : Bool} {b : List Byte} {s : State} {st : Byte} {untagged : Bool}
    (h : packetError s svc b = some (st, untagged)) :
    takePacket svc b s = onPkg (packetAnswer svc b st untagged)
      (countPacketError st (if untagged then s else addTag svc (pkTag b) (pkOp b) (pkTile b) false s)) := by
  simp only [takePacket, h]

theorem countPacketError_of_uncounted {st : Byte} (s : State) (h : st ≠ stBadCheck ∧ st ≠ stCapacity ∧ st ≠ stPolicy) :
    countPacketError st s = s := by
  obtain ⟨h1, h2, h3⟩ := h
  simp [countPacketError, h1, h2, h3]

theorem countPacketError_badCheck (s : State) : countPacketError stBadCheck s
    = onHp (fun h => { h with counts := { h.counts with badCheck := incSat h.counts.badCheck } }) s := by
  rw [countPacketError, if_pos (by decide)]

theorem countPacketError_capacity (s : State) : countPacketError stCapacity s
    = onHp (fun h => { h with counts := { h.counts with refusedTags := incSat h.counts.refusedTags } }) s := by
  rw [countPacketError, if_neg (by decide), if_pos (by decide)]

theorem countPacketError_policy (s : State) : countPacketError stPolicy s = onPkg (refusedByPolicy s.pkg.lead) s := by
  rw [countPacketError, if_neg (by decide), if_neg (by decide), if_pos (by decide)]

@[simp] theorem addTag_host_pkg (tag : BitVec 16) (op : Byte) (tile : Nat) (ordered : Bool) (s : State) :
    (addTag false tag op tile ordered s).pkg = s.pkg := rfl

/-- Settles O45: the clauses follow the order of the checks in `packetError`. -/
theorem packetChecksAnswer : Obligations.PacketChecksAnswer := by
  unfold Obligations.PacketChecksAnswer
  rintro s b q hdr pkt len rfl hmay hhdr hlen hframe hpkt rfl
  have hrun := exec_packetTake hmay hhdr hlen hframe hpkt
  have hpk : pkLen pkt = len := by rw [hpkt, hlen, hhdr]; exact pkLen_ringGet _ _ (by omega)
  rw [hrun]
  have hanswer {st : Byte} {untagged : Bool} (h : packetError s.begun false pkt = some (st, untagged)) :=
    takePacket_of_error (s := onHpRings (fun r => { r with subCons := r.subCons + BitVec.ofNat 32 (12 + len) }) s.begun) h
  have hcount {st : Byte} := countPacketError_of_uncounted (st := st)
  refine ⟨fun hcrc => ?_, fun hcrc => ⟨fun hdup => ?_, fun hdup => ⟨fun hfull => ?_, fun hfull => ⟨fun hform => ?_, fun hres hcls hname =>
    ⟨fun hop => ?_, fun hknown hissue => ⟨fun hplen => ?_, fun hplen hpol => ?_⟩⟩⟩⟩⟩⟩
  · rw [hanswer (st := stBadCheck) (untagged := true) (by simp [packetError, hpk, hcrc]), countPacketError_badCheck, if_pos rfl]
  · rw [hanswer (st := stBadParam) (untagged := true) (by simp only [packetError, hpk, hcrc, portTags]; simp [hdup]),
      hcount _ (by decide), if_pos rfl]
  · rw [hanswer (st := stCapacity) (untagged := false) (by
      simp only [packetError, hpk, hcrc, portTags, portLimit]; simp [hdup, hfull]), countPacketError_capacity]
    simp only [Bool.false_eq_true, if_false]
  · have herr : packetError s.begun false pkt = some (stBadParam, false) := by
      simp only [packetError, hpk, hcrc, portTags, portLimit]
      obtain h | h | h := hform <;> simp [hdup, Nat.not_le.mpr hfull, h]
    rw [hanswer herr, hcount _ (by decide)]
    simp only [Bool.false_eq_true, if_false]
  · have herr : packetError s.begun false pkt = some (stBadOpcode, false) := by
      simp only [packetError, hpk, hcrc, portTags, portLimit]
      obtain h | h := hop <;> simp [hdup, Nat.not_le.mpr hfull, hres, hcls, hname, h]
    rw [hanswer herr, hcount _ (by decide)]
    simp only [Bool.false_eq_true, if_false]
  · rw [hanswer (st := stBadLength) (untagged := false) (by
      simp only [packetError, hpk, hcrc, portTags, portLimit]; simp [hdup, Nat.not_le.mpr hfull, hres, hcls, hname, hknown, hissue, hplen]),
      hcount _ (by decide)]
    simp only [Bool.false_eq_true, if_false]
  · rw [hanswer (st := stPolicy) (untagged := false) (by
      simp only [packetError, hpk, hcrc, portTags, portLimit]; simp [hdup, Nat.not_le.mpr hfull, hres, hcls, hname, hknown, hissue, hplen, hpol]),
      countPacketError_policy]
    simp only [Bool.false_eq_true, if_false, addTag_host_pkg, onHpRings_pkg]

end Sys2Proof.Machine
end

section
/-!
PROOFS. The contact sheet as the host reads it (R85 to R87).
-/

namespace Sys2Proof.Machine

/-- The bytes of a memory after a write of many, where it was in canonical form. -/
theorem memGet_memPut {bs : List Byte} {m : List Host.Cell} {i j : Nat} (hm : Memory.wf m = true) :
    memGet (memPut m i bs) j = if i ≤ j ∧ j < i + bs.length then bs.getD (j - i) 0 else memGet m j := by
  induction bs generalizing m i with
  | nil => rw [if_neg (by simp)]; rfl
  | cons b r ih =>
    rw [memPut, ih (memSet_wf _ _ _ hm), List.length_cons]
    obtain rfl | hne := Decidable.em (j = i)
    · rw [if_neg (by omega), if_pos (by omega), memGet_memSet_self _ _ _ hm, Nat.sub_self, List.getD_cons_zero]
    · by_cases hin : i + 1 ≤ j ∧ j < i + 1 + r.length
      · rw [if_pos hin, if_pos (by omega), show j - i = j - (i + 1) + 1 by omega, List.getD_cons_succ]
      · rw [if_neg hin, if_neg (by omega), memGet_memSet_ne _ _ hne]

theorem memGet_memOf {bs : List Byte} {j : Nat} (h : j < bs.length) : memGet (memOf bs) j = bs.getD j 0 := by
  rw [memOf, memGet_memPut rfl, if_pos (by omega), Nat.sub_zero]

theorem getD_append_left {a b : List Byte} {k : Nat} (h : k < a.length) : (a ++ b).getD k 0 = a.getD k 0 := by
  rw [List.getD_eq_getElem?_getD, List.getElem?_append_left h, List.getD_eq_getElem?_getD]

theorem getD_append_right {a b : List Byte} {n k : Nat} (h : a.length = n) : (a ++ b).getD (n + k) 0 = b.getD k 0 := by
  rw [List.getD_eq_getElem?_getD, List.getElem?_append_right (by omega), List.getD_eq_getElem?_getD, h, Nat.add_sub_cancel_left]

theorem getD_le {n v k : Nat} (h : k < n) : (le n v).getD k 0 = BitVec.ofNat 8 (v / 256 ^ k) := by
  induction n generalizing v k with
  | zero => omega
  | succ n ih =>
    cases k with
    | zero =>
      apply BitVec.eq_of_toNat_eq
      simp [le]
    | succ k =>
      rw [le, List.getD_cons_succ, ih (by omega), Nat.div_div_eq_div_mul, Nat.pow_succ']

@[simp] theorem length_summaryBytes (s : State) (t : Nat) : (summaryBytes s t).length = 16 := by
  unfold summaryBytes
  split
  · simp
  · simp

theorem flatMap_length_of_const {α : Type} {f : α → List Byte} {n : Nat} (l : List α) (h : ∀ x, (f x).length = n) :
    (l.flatMap f).length = n * l.length := by
  rw [List.length_flatMap, funext h, List.map_const', List.sum_replicate_nat, Nat.mul_comm]

/-- The contact sheet begins with its generation. -/
theorem sheetBytes_begins (gen : Word) (s : State) : ∃ rest, sheetBytes gen s = le 4 gen.toNat ++ rest := by
  unfold sheetBytes
  dsimp only
  simp only [List.append_assoc]
  exact ⟨_, rfl⟩

/-- The contact sheet ends with its generation, at 0xFC. -/
theorem sheetBytes_ends (gen : Word) (s : State) :
    ∃ front, front.length = 0xFC ∧ sheetBytes gen s = front ++ le 4 gen.toNat := by
  unfold sheetBytes
  dsimp only
  refine ⟨_, ?_, rfl⟩
  simp [flatMap_length_of_const _ (length_summaryBytes s)]

/-- A byte of the first generation, and of its copy. -/
theorem sheetBytes_generation {gen : Word} {s : State} {k : Nat} (hk : k < 4) :
    memGet (memOf (sheetBytes gen s)) k = BitVec.ofNat 8 (gen.toNat / 256 ^ k)
      ∧ memGet (memOf (sheetBytes gen s)) (0xFC + k) = BitVec.ofNat 8 (gen.toNat / 256 ^ k) := by
  obtain ⟨rest, hbegins⟩ := sheetBytes_begins gen s
  obtain ⟨front, hfront, hends⟩ := sheetBytes_ends gen s
  have hlen : (sheetBytes gen s).length = 256 := by simp [hends, hfront]
  constructor
  · rw [memGet_memOf (by omega), hbegins, getD_append_left (by simpa using hk), getD_le hk]
  · rw [memGet_memOf (by omega), hends, getD_append_right hfront, getD_le hk]

theorem refreshSpaced_sheet (s : State) : (refreshSpaced s).hp.sheet
    = memOf (sheetBytes (s.hp.generation + 2) (onPkg (advanceTo (refreshAt s.hp)) s)) := by
  rw [refreshSpaced, refreshSheet_hp, onPkg_hp]

theorem refreshSpaced_generation (s : State) : (refreshSpaced s).hp.generation = s.hp.generation + 2 := by
  rw [refreshSpaced, refreshSheet_hp, onPkg_hp]

@[simp] theorem advanceTo_outbox (at_ : Nat) (p : Pkg) : (advanceTo at_ p).outbox = p.outbox := by
  unfold advanceTo advance
  split
  · rfl
  · simp

/-- Settles O46: the refresh writes the sheet whole, its generation at both ends. -/
theorem refreshedSheetIsConsistent : Obligations.RefreshedSheetIsConsistent := by
  unfold Obligations.RefreshedSheetIsConsistent
  intro s ha hbox
  have hrun : exec .contactSheetRefresh s = .next (drain (if hostAnswers s.begun then refreshSpaced s.begun else s.begun)) := rfl
  rw [if_pos ha] at hrun
  have hout : (refreshSpaced s.begun).pkg.outbox = [] := by
    rw [refreshSpaced, refreshSheet, onHp_pkg, onPkg_pkg, advanceTo_outbox]
    exact (start_outbox s).trans hbox
  have hhp : (drain (refreshSpaced s.begun)).hp = (refreshSpaced s.begun).hp := drain_hp_of_nil hout
  have hgen : (drain (refreshSpaced s.begun)).hp.generation = s.hp.generation + 2 := by
    rw [hhp, refreshSpaced_generation]
    rfl
  have hbyte {a : Nat} (h : a < 0x100) : hpByte (drain (refreshSpaced s.begun)) a
      = memGet (memOf (sheetBytes (s.begun.hp.generation + 2) (onPkg (advanceTo (refreshAt s.begun.hp)) s.begun))) a := by
    rw [hpByte, if_pos h, hhp, refreshSpaced_sheet]
  refine ⟨_, hrun, hgen, fun k hk => ?_, fun heven => ?_⟩
  · rw [hbyte (by omega), hbyte (by omega)]
    obtain ⟨h1, h2⟩ := sheetBytes_generation (gen := s.begun.hp.generation + 2)
      (s := onPkg (advanceTo (refreshAt s.begun.hp)) s.begun) hk
    exact ⟨h1, h2.trans h1.symm⟩
  · rw [hgen]
    simp only [BitVec.toNat_add, BitVec.reduceToNat]
    omega

end Sys2Proof.Machine
end

-- The fabric's flight table.
section
/-!
PROOFS. Requests that arrive at the flight table, and its partitions (R34, R35, R37, R39).
-/

namespace Sys2Proof.Machine

/-- Every class may borrow of its own partition and of those of a number at least its own; class 0 of all. -/
theorem partOrder_mem {cls part : Nat} (hcls : cls ≤ 3) :
    part ∈ partOrder cls ↔ part ≤ 3 ∧ (cls = 0 ∨ cls ≤ part) := by
  obtain rfl | rfl | rfl | rfl : cls = 0 ∨ cls = 1 ∨ cls = 2 ∨ cls = 3 := by omega
  all_goals simp only [partOrder, List.mem_cons, List.not_mem_nil, or_false]; omega

theorem freePart_some {fl : List Flight} {cls part : Nat} (h : freePart fl cls = some part) :
    part ∈ partOrder cls ∧ partUsed fl part < partSize part :=
  ⟨List.mem_of_find?_eq_some h, by simpa using List.find?_some h⟩

theorem freePart_none {fl : List Flight} {cls part : Nat} (h : freePart fl cls = none) (hp : part ∈ partOrder cls) :
    partSize part ≤ partUsed fl part := by
  simpa using List.find?_eq_none.mp h part hp

/-- An entry more is one more of its own partition. -/
theorem partUsed_append (fl : List Flight) (f : Flight) (part : Nat) :
    partUsed (fl ++ [f]) part = partUsed fl part + if f.part = part then 1 else 0 := by
  by_cases h : f.part = part <;> simp [partUsed, List.filter_append, h]

/-- What arrives joins the queue of its class, at the end. -/
theorem waitingAt_enqueued {p q : Pkg} {t cls : Nat} {x : Waiting} (hx : x.cls = cls) (hsh : q.sh = p.sh)
    (hq : (q.tile t).fabric.queue = (p.tile t).fabric.queue ++ [x]) : waitingAt q t cls = waitingAt p t cls + 1 := by
  simp only [waitingAt, hq, hsh, List.filter_append, List.length_append, List.filter_cons, List.filter_nil, hx, beq_self_eq_true, if_true,
    List.length_singleton]
  omega

/-- Settles O51: an arrival takes a free entry of a partition that its class may use, and takes none where each is full. -/
theorem entriesStayInTheirPartitions : Obligations.EntriesStayInTheirPartitions := by
  unfold Obligations.EntriesStayInTheirPartitions
  intro w t cls limit p q r hcls he hfit
  unfold arrive at he
  dsimp only at he
  split at he
  · next part hfree =>
    obtain ⟨hmem, hroom⟩ := freePart_some hfree
    obtain ⟨hpart, hclass⟩ := (partOrder_mem hcls).mp hmem
    obtain ⟨rfl, rfl⟩ := Prod.mk.inj he
    simp only [onTile_tile]
    refine ⟨fun k hk => ?_, fun _ => .inl ⟨_, rfl, rfl, rfl, hmem, fun h0 => hclass.resolve_left h0⟩, by simp, by simp⟩
    rw [partUsed_append]
    dsimp only
    split
    · next hk' => exact hk' ▸ hroom
    · exact hfit k hk
  · next hfree =>
    have hfull : ∀ part, part ∈ partOrder cls → partUsed (p.tile t).fabric.flights part = partSize part := fun part hp =>
      Nat.le_antisymm (hfit part ((partOrder_mem hcls).mp hp).1) (freePart_none hfree hp)
    split at he
    · next h0 =>
      obtain ⟨rfl, rfl⟩ := Prod.mk.inj he
      have hzero : cls = 0 := eq_of_beq h0
      exact ⟨hfit, fun _ => .inr ⟨hzero, rfl, fun part hp => hfull part ((partOrder_mem hcls).mpr ⟨hp, .inl hzero⟩)⟩,
        by simp, by simp⟩
    · next h0 =>
      have hpos : cls ≠ 0 := fun e => h0 (beq_iff_eq.mpr e)
      split at he
      · next hw =>
        obtain ⟨rfl, rfl⟩ := Prod.mk.inj he
        refine ⟨fun k hk => ?_, by simp, fun _ => ⟨hpos, hfull, ?_⟩, by simp⟩
        · simpa only [onTile_tile] using hfit k hk
        · refine Nat.le_trans (Nat.le_of_eq (waitingAt_enqueued (p := p)
            (x := { work := w, cls := cls, limit := limit, order := (p.tile t).fabric.nextOrder }) rfl ?_ ?_)) hw
          · rw [onTile_sh]
          · rw [onTile_tile]
      · next hw =>
        obtain ⟨rfl, rfl⟩ := Prod.mk.inj he
        refine ⟨fun k hk => ?_, by simp, by simp, fun _ => ⟨hpos, ?_, by omega⟩⟩
        · simpa only [countRefused_tile] using hfit k hk
        · rw [countRefused_tile]

end Sys2Proof.Machine
end

-- The passing of package time.
section
/-!
PROOFS. What the passing of package time leaves as it was (R52, R499, R502).
-/

namespace Sys2Proof.Machine

/-- A tile without its counters. -/
def Tile.noCounters (tl : Tile) : Tile := { tl with counters := {} }

section
variable (chain : Bool) (t n now k : Nat) (tl : Tile)

@[simp] theorem addCount_noCounters : (addCount chain n k tl).noCounters = tl.noCounters := by
  unfold addCount
  split <;> rfl

@[simp] theorem onCtr_noCounters (f : Ctr → Ctr) : (onCtr n f tl).noCounters = tl.noCounters := rfl

@[simp] theorem censusOver_noCounters (awaits : Bool) (c : Ctr) : (censusOver awaits chain t n c now k tl).noCounters = tl.noCounters := by
  unfold censusOver
  repeat' split
  all_goals simp

@[simp] theorem tokensLeave_noCounters (src used spoiled : Nat) (ticks : Nat → Nat) :
    (tokensLeave chain src used spoiled ticks tl).noCounters = tl.noCounters := by
  unfold tokensLeave
  refine foldl_keeps Tile.noCounters _ (fun a q => ?_) _ tl
  repeat' split
  all_goals simp

@[simp] theorem runCensus_noCounters : (runCensus chain t now k tl).noCounters = tl.noCounters :=
  foldl_keeps Tile.noCounters _ (fun _ _ => censusOver_noCounters ..) _ tl

@[simp] theorem processorLoupe_noCounters (at_ m : Nat) : (processorLoupe chain t at_ m tl).noCounters = tl.noCounters := rfl

@[simp] theorem processorRun_noCounters : (processorRun chain t now k tl).noCounters = tl.noCounters := by
  unfold processorRun
  split
  · rfl
  · exact foldl_keeps Tile.noCounters _ (fun _ _ => processorLoupe_noCounters ..) _ tl

@[simp] theorem runCounters_noCounters (dark : Bool) : (runCounters dark chain t now k tl).noCounters = tl.noCounters := by
  unfold runCounters
  dsimp only
  split
  · rfl
  · rw [processorRun_noCounters, runCensus_noCounters]
    rfl

end

/-- A package without its clocks. -/
def Pkg.noClocks (p : Pkg) : Pkg := { p with tiles := [], now := 0, sh := { p.sh with rtc := {} } }

theorem Pkg.noClocks_eq (p : Pkg) : p.noClocks = p.noTiles.noClocks := rfl

/-- Package time that passes runs the clocks of the package and the counters of its tiles. -/
theorem advance_noClocks (k : Nat) (p : Pkg) : (advance k p).noClocks = p.noClocks := by
  unfold advance
  split
  · rfl
  · dsimp only
    rw [Pkg.noClocks_eq, onTiles_noTiles]
    rfl

theorem advance_tile (k : Nat) (p : Pkg) (u : Nat) : ((advance k p).tile u).noCounters = (p.tile u).noCounters := by
  unfold advance
  split
  · rfl
  · dsimp only
    rw [onTiles_tile]
    split
    · exact runCounters_noCounters ..
    · rfl

end Sys2Proof.Machine
end

-- A lost link.
section
/-!
PROOFS. What a raise and an answer leave of the requests that a tile has issued (R46, R390).
-/

namespace Sys2Proof.Machine

section
variable (t : Nat) (p : Pkg)

@[simp] theorem writeEntry_fabric (i : Nat) (b : BitVec 64) (us : Nat) :
    ((writeEntry t i b us p).1.1.tile t).fabric = (p.tile t).fabric := by
  unfold writeEntry
  split
  · rfl
  · simp

@[simp] theorem onRing_fabric (i : Nat) (f : Ring → Ring) : ((onRing t i f p).tile t).fabric = (p.tile t).fabric := by
  unfold onRing
  split <;> simp

@[simp] theorem putEntry_fabric (i us : Nat) (v : Word) (kind : Nat) :
    ((putEntry t i us v kind p).1.1.tile t).fabric = (p.tile t).fabric := by
  unfold putEntry
  split
  · rfl
  · dsimp only
    split <;> split <;> simp

@[simp] theorem recordPoint_fabric (i : Nat) (x : Rec) (at_ : Nat) :
    ((recordPoint t i x at_ p).1.tile t).fabric = (p.tile t).fabric := by
  unfold recordPoint
  dsimp only
  split <;> simp

@[simp] theorem snoopRing_fabric (conv : Word → Int) (i : Nat) (k : Key) :
    ((snoopRing conv t i k p).1.tile t).fabric = (p.tile t).fabric := by
  obtain h | h := snoopRing_cases t p conv i k <;> simp [h]

theorem prefix_of_eq {α : Type} {l m : List α} (h : m = l) : l <+: m := h ▸ List.prefix_rfl

/-- An on-event ring issues at most one request more (R390). -/
theorem fireEventRing_out (i : Nat) : (p.tile t).fabric.out <+: ((fireEventRing t i p).1.tile t).fabric.out := by
  unfold fireEventRing
  split
  · exact List.prefix_rfl
  · split
    · exact prefix_of_eq (by rw [recordPoint_fabric])
    · simp [issue]

end

theorem foldl_out_prefix {α : Type} (t : Nat) (f : Pkg → α → Pkg)
    (h : ∀ q x, (q.tile t).fabric.out <+: ((f q x).tile t).fabric.out) (l : List α) (q : Pkg) :
    (q.tile t).fabric.out <+: ((l.foldl f q).tile t).fabric.out := by
  induction l generalizing q with
  | nil => exact List.prefix_rfl
  | cons x r ih => exact (h q x).trans (ih _)

/-- Writes to several rings, with the list of those that they overflow. -/
theorem ringWrites_out (t : Nat) (f : Pkg → Nat → Pkg × List Nat)
    (h : ∀ q i, (q.tile t).fabric.out <+: ((f q i).1.tile t).fabric.out) (l : List Nat) (a : Pkg × List Nat) :
    (a.1.tile t).fabric.out <+: ((l.foldl (fun a i => ((f a.1 i).1, a.2 ++ (f a.1 i).2)) a).1.tile t).fabric.out := by
  induction l generalizing a with
  | nil => exact List.prefix_rfl
  | cons x r ih =>
    rw [List.foldl_cons]
    exact (h a.1 x).trans (ih ((f a.1 x).1, a.2 ++ (f a.1 x).2))

theorem raiseAux_out (fuel t ev detail : Nat) (p : Pkg) :
    (p.tile t).fabric.out <+: ((raiseAux fuel t ev detail p).tile t).fabric.out := by
  induction fuel generalizing ev detail p with
  | zero => exact List.prefix_rfl
  | succ n ih =>
    unfold raiseAux
    dsimp only
    refine List.IsPrefix.trans ?_ (foldl_out_prefix t _ (fun q i => ih 93 i q) _ _)
    refine List.IsPrefix.trans ?_ (ringWrites_out t (fun q i => fireEventRing t i q) (fireEventRing_out t) _ _)
    refine List.IsPrefix.trans ?_ (ringWrites_out t (fun q i => snoopRing (·.toInt) t i (key 0xD ev) q)
      (fun q i => prefix_of_eq (by rw [snoopRing_fabric])) _ _)
    have hmark : ((onTile t (markEvent p.now ev) p).tile t).fabric = (p.tile t).fabric := by
      rw [onTile_tile]
      rfl
    refine prefix_of_eq ?_
    split
    · dsimp only
      split
      · rw [onTile_tile]
        dsimp only
        rw [putEntry_fabric, hmark]
      · rw [putEntry_fabric, hmark]
    · rw [hmark]

/-- A raise withdraws no request of any tile. -/
theorem raise_out (t ev u : Nat) (p : Pkg) : (p.tile u).fabric.out <+: ((raise t ev p).tile u).fabric.out := by
  by_cases h : u = t
  · subst h
    exact raiseAux_out _ _ _ _ _
  · exact prefix_of_eq (by rw [(notes_raise t ev p).2.1 u h])

theorem raise_sh (t ev : Nat) (p : Pkg) : (raise t ev p).sh = p.sh := by
  have h := congrArg Pkg.sh (notes_raise t ev p).1
  exact h

theorem raise_outbox (t ev : Nat) (p : Pkg) : (raise t ev p).outbox = p.outbox := by
  have h := congrArg Pkg.outbox (notes_raise t ev p).1
  exact h

@[simp] theorem admitOne_out (tl : Tile) : (admitOne tl).fabric.out = tl.fabric.out := by
  unfold admitOne
  split <;> rfl

@[simp] theorem freeFlights_out (t : Nat) (f : Work → Bool) (p : Pkg) (u : Nat) :
    ((freeFlights t f p).tile u).fabric.out = (p.tile u).fabric.out := by
  unfold freeFlights
  by_cases h : u = t
  · subst h
    rw [onTile_tile, foldl_keeps (fun tl : Tile => tl.fabric.out) _ (fun tl _ => admitOne_out tl)]
  · rw [onTile_tile_ne _ _ h]

@[simp] theorem countDiscarded_out (t : Nat) (p : Pkg) (u : Nat) :
    ((countDiscarded t p).tile u).fabric.out = (p.tile u).fabric.out := by
  unfold countDiscarded
  by_cases h : u = t
  · subst h
    rw [onTile_tile]
  · rw [onTile_tile_ne _ _ h]

/-- The source of a request waits for it, with a reply of which `Q` holds. -/
def awaits (r : FabricReq) (Q : Option FabReply → Prop) (p : Pkg) : Prop :=
  ∃ o, o ∈ (p.tile r.origin).fabric.out ∧ o.req = r ∧ Q o.reply

theorem awaits_of_out {r : FabricReq} {Q : Option FabReply → Prop} {p q : Pkg}
    (h : (p.tile r.origin).fabric.out ⊆ (q.tile r.origin).fabric.out) : awaits r Q p → awaits r Q q := by
  rintro ⟨o, ho, hreq, hrep⟩
  exact ⟨o, h ho, hreq, hrep⟩

/-- An answer to one request keeps what holds of another, where it holds of the answer. -/
theorem awaits_answerBy {r : FabricReq} {Q : Option FabReply → Prop} {rep : FabReply} (hrep : Q (some rep)) (t : Nat)
    (r' : FabricReq) (p : Pkg) (h : awaits r Q p) : awaits r Q (answerBy t r' rep p) := by
  obtain ⟨o, ho, hreq, hq⟩ := h
  unfold answerBy
  split
  · by_cases hor : r.origin = r'.origin
    · refine ⟨_, by rw [hor, onTile_tile]; exact List.mem_map_of_mem (hor ▸ ho), ?_, ?_⟩ <;> split
      · exact hreq
      · exact hreq
      · exact hrep
      · exact hq
    · exact ⟨o, by rwa [onTile_tile_ne _ _ hor], hreq, hq⟩
  · exact ⟨o, by rwa [countDiscarded_out, freeFlights_out], hreq, hq⟩

/-- A request whose source waits for it is answered. -/
theorem answerBy_answers {r : FabricReq} (t : Nat) (rep : FabReply) (p : Pkg) (h : awaits r (fun _ => True) p) :
    awaits r (fun q => q = some rep) (answerBy t r rep p) := by
  obtain ⟨o, ho, hreq, _⟩ := h
  have hany : (p.tile r.origin).fabric.out.any (fun o => o.req == r) = true := List.any_eq_true.mpr ⟨o, ho, beq_iff_eq.mpr hreq⟩
  refine ⟨{ o with reply := some rep, repliedAt := p.now }, ?_, hreq, rfl⟩
  rw [answerBy, if_pos hany, onTile_tile]
  refine List.mem_map.mpr ⟨o, ho, ?_⟩
  rw [if_pos (beq_iff_eq.mpr hreq)]

@[simp] theorem answerBy_outbox (t : Nat) (r : FabricReq) (rep : FabReply) (p : Pkg) : (answerBy t r rep p).outbox = p.outbox := by
  unfold answerBy
  split <;> simp

@[simp] theorem freeFlights_sh (t : Nat) (f : Work → Bool) (p : Pkg) : (freeFlights t f p).sh = p.sh := rfl
@[simp] theorem countDiscarded_sh (t : Nat) (p : Pkg) : (countDiscarded t p).sh = p.sh := rfl

@[simp] theorem answerBy_sh (t : Nat) (r : FabricReq) (rep : FabReply) (p : Pkg) : (answerBy t r rep p).sh = p.sh := by
  unfold answerBy
  split <;> simp

/-- Each request of a list whose source waits for it is answered. -/
theorem awaits_forAll_answerBy {α : Type} {l : List (α × FabricReq)} {x : α × FabricReq} (hx : x ∈ l) (t : Nat) (rep : FabReply) {p : Pkg}
    (h : awaits x.2 (fun _ => True) p) : awaits x.2 (fun q => q = some rep) (forAll l (fun y => answerBy t y.2 rep) p) := by
  obtain ⟨a, b, rfl⟩ := List.append_of_mem hx
  unfold forAll
  rw [List.foldl_append, List.foldl_cons]
  have hbefore := List.foldlRecOn (motive := awaits x.2 (fun _ => True)) a (fun q y => answerBy t y.2 rep q) h
    (fun q hq y _ => awaits_answerBy trivial t y.2 q hq)
  exact List.foldlRecOn b _ (answerBy_answers t rep _ hbefore) (fun q hq y _ => awaits_answerBy (Q := fun q => q = some rep) rfl t y.2 q hq)

end Sys2Proof.Machine
end

section
/-!
PROOFS. A loss of the link (R423), and the delivery of its completions.
-/

namespace Sys2Proof.Machine

/-- Completions that are emitted for a list are added to those on their way. -/
theorem forAll_emit_outbox {α : Type} (l : List α) (c : α → Completion) (p : Pkg) :
    (forAll l (fun x => emit (c x)) p).outbox = p.outbox ++ l.map c := by
  unfold forAll
  induction l generalizing p with
  | nil => simp
  | cons x r ih =>
    rw [List.foldl_cons, ih]
    simp [emit]

theorem forAll_keeps {α β : Type} (g : Pkg → β) (f : α → Pkg → Pkg) (h : ∀ a q, g (f a q) = g q) (l : List α) (p : Pkg) :
    g (forAll l f p) = g p :=
  foldl_keeps g (fun q a => f a q) (fun q a => h a q) l p

@[simp] theorem forAll_emit_sh {α : Type} (l : List α) (c : α → Completion) (p : Pkg) : (forAll l (fun x => emit (c x)) p).sh = p.sh :=
  forAll_keeps Pkg.sh (fun x => emit (c x)) (fun _ _ => rfl) l p
@[simp] theorem forAll_emit_tile {α : Type} (l : List α) (c : α → Completion) (p : Pkg) (u : Nat) :
    (forAll l (fun x => emit (c x)) p).tile u = p.tile u :=
  forAll_keeps (fun q => q.tile u) (fun x => emit (c x)) (fun _ _ => rfl) l p

@[simp] theorem staleFar_outbox (p : Pkg) : (staleFar p).outbox = p.outbox := onTiles_outbox _ _
@[simp] theorem staleFar_sh (p : Pkg) : (staleFar p).sh = p.sh := onTiles_sh _ _
@[simp] theorem staleFar_out (p : Pkg) (u : Nat) : ((staleFar p).tile u).fabric.out = (p.tile u).fabric.out := by
  unfold staleFar
  rw [onTiles_tile]
  split <;> rfl

theorem loseLink_tether (st : LinkState) (p : Pkg) : (loseLink st p).sh.tether = { p.sh.tether with
    state := st, session := {}, queue := [], transactions := [], requests := [], serving := []
    status := { p.sh.tether.status with losses := incSat p.sh.tether.status.losses, timeLocked := false, farOnline := 0 } } := by
  unfold loseLink
  dsimp only
  rw [raise_sh, staleFar_sh, forAll_keeps Pkg.sh _ (fun _ _ => answerBy_sh ..), forAll_emit_sh]
  rfl

theorem loseLink_outbox (st : LinkState) (p : Pkg) : (loseLink st p).outbox = p.outbox ++ p.sh.tether.transactions.map
    (fun x => { src := x.src, opcode := x.opcode, status := stTetherLost, tile := ownNo p p.lead, final := true }) := by
  unfold loseLink
  dsimp only
  rw [raise_outbox, staleFar_outbox, forAll_keeps Pkg.outbox _ (fun _ _ => answerBy_outbox ..), forAll_emit_outbox]
  rfl

theorem loseLink_answers (st : LinkState) {p : Pkg} {x : Nat × FabricReq} (hx : x ∈ p.sh.tether.requests)
    (h : awaits x.2 (fun _ => True) p) : awaits x.2 (fun q => q = some (failure stTetherLost)) (loseLink st p) := by
  unfold loseLink
  dsimp only
  refine awaits_of_out (raise_out ..).subset (awaits_of_out (fun o ho => by rwa [staleFar_out]) ?_)
  refine awaits_forAll_answerBy hx _ _ (awaits_of_out (fun o ho => ?_) h)
  rwa [forAll_emit_tile]

/-! The lines that a step brings up to now keep the commands that have crossed the link. -/

theorem departFrame_transactions (at_ : Nat) (f : SentFrame) (p : Pkg) :
    (departFrame at_ f p).sh.tether.transactions = p.sh.tether.transactions := by
  unfold departFrame
  dsimp only
  rw [countPort_sh]
  rfl

theorem runLine_transactions (fuel : Nat) (p : Pkg) : (runLine fuel p).sh.tether.transactions = p.sh.tether.transactions := by
  induction fuel generalizing p with
  | zero => rfl
  | succ n ih =>
    unfold runLine
    split
    · rfl
    · split
      · rfl
      · rw [ih, departFrame_transactions]

@[simp] theorem catchService_tether (p : Pkg) : (catchService p).sh.tether = p.sh.tether := by
  unfold catchService
  dsimp only
  generalize (if p.sh.driven = true then Service.leave p.now p.sh.service.tx p.sh.service else p.sh.service) = line
  split
  · rfl
  · rw [countPort_sh]
    rfl

theorem start_transactions (s : State) : s.start.sh.tether.transactions = s.pkg.sh.tether.transactions := by
  unfold State.start clearLine catchLine
  rw [catchService_tether, runLine_transactions]
  rfl

/-- The tether of what a step finds, but for what its line has sent. -/
theorem start_tether_settled (s : State) : s.start.sh.settled.tether = s.pkg.sh.settled.tether := by
  have h := congrArg (fun q : Pkg => q.sh.tether) (samePkg_start s).1
  exact h

theorem start_requests (s : State) : s.start.sh.tether.requests = s.pkg.sh.tether.requests := by
  have h := congrArg Tether.requests (start_tether_settled s)
  exact h

theorem start_linkOpen (s : State) : linkOpen s.start.sh.tether = linkOpen s.pkg.sh.tether := by
  have h := congrArg Tether.state (start_tether_settled s)
  change s.start.sh.tether.state = s.pkg.sh.tether.state at h
  rw [linkOpen, h, linkOpen]

theorem start_out (s : State) (u : Nat) : (s.start.tile u).fabric.out = (s.pkg.tile u).fabric.out := by
  have h := congrArg (fun tl : Tile => tl.fabric.out) ((start_lines s).2 u)
  exact h

theorem advance_tether (k : Nat) (p : Pkg) : (advance k p).sh.tether = p.sh.tether := by
  have h := congrArg (fun q : Pkg => q.sh.tether) (advance_noClocks k p)
  exact h

theorem advance_out (k : Nat) (p : Pkg) (u : Nat) : ((advance k p).tile u).fabric.out = (p.tile u).fabric.out := by
  have h := congrArg (fun tl : Tile => tl.fabric.out) (advance_tile k p u)
  exact h

theorem advance_ownNo (k : Nat) (p : Pkg) (t : Nat) : ownNo (advance k p) t = ownNo p t := by
  have h := congrArg Pkg.straps (advance_noClocks k p)
  change (advance k p).straps = p.straps at h
  rw [ownNo, isFar, h, ownNo, isFar]

theorem advance_lead (k : Nat) (p : Pkg) : (advance k p).lead = p.lead := by
  have h := congrArg (fun q : Pkg => q.sh.lead) (advance_noClocks k p)
  exact h

theorem start_ownNo (s : State) (t : Nat) : ownNo s.start t = ownNo s.pkg t := by
  rw [ownNo, isFar, start_straps, ownNo, isFar]

/-! With the link closed, the completions that reach their senders put nothing on it (R423). -/

/-- A tether, but for the requests of the other end under way. -/
def Tether.noServing (te : Tether) : Tether := { te with serving := [] }

theorem replyFar_closed (id : Nat) (final : Bool) (rep : FabReply) {p : Pkg} (h : linkOpen p.sh.tether = false) :
    (replyFar id final rep p).sh.tether.noServing = p.sh.tether.noServing := by
  unfold replyFar
  simp only [h, Bool.false_and, Bool.false_eq_true, if_false]
  split
  · simp only [onTether, onShared_sh, onTiles_sh]
    rfl
  · rfl

theorem postService_tether (c : Completion) (tag : BitVec 16) (p : Pkg) : (postService c tag p).sh.tether = p.sh.tether := by
  unfold postService
  dsimp only
  rw [catchService_tether]
  split
  · rw [countSvcDropped, onTile_sh, onService, onShared_sh]
    exact catchService_tether p
  · rw [onService, onShared_sh]
    exact catchService_tether p

theorem freeCommand_sh (src : Source) (p : Pkg) : (freeCommand src p).sh = p.sh := by
  unfold freeCommand
  refine foldl_keeps Pkg.sh _ (fun q t => ?_) _ p
  split <;> rfl

theorem countLate_sh (c : Completion) (p : Pkg) : (countLate c p).sh = p.sh := by
  unfold countLate
  split <;> rfl

theorem noteMachine_sh (t m : Nat) (st : Byte) (p : Pkg) : (noteMachine t m st p).sh = p.sh := by
  unfold noteMachine
  split <;> rfl

theorem deliver_closed (c : Completion) {s : State} (h : linkOpen s.pkg.sh.tether = false) :
    (deliver s c).pkg.sh.tether.noServing = s.pkg.sh.tether.noServing := by
  unfold deliver
  dsimp only
  have hfree (s1 : State) (h1 : s1.pkg.sh.tether.noServing = s.pkg.sh.tether.noServing) :
      (if c.final && !c.untagged then { s1 with pkg := freeCommand c.src s1.pkg } else s1).pkg.sh.tether.noServing
        = s.pkg.sh.tether.noServing := by
    split
    · dsimp only
      rw [freeCommand_sh, h1]
    · exact h1
  apply hfree
  cases c.src with
  | host tag era =>
    dsimp only
    split
    · rw [countLate_sh]
    · split <;> rfl
  | service tag era =>
    dsimp only
    split
    · rw [countLate_sh]
    · split
      · rfl
      · rw [postService_tether]
  | machine t m =>
    dsimp only
    rw [noteMachine_sh]
  | far id => exact replyFar_closed _ _ _ h

theorem Tether.noServing_fields {a b : Tether} (h : a.noServing = b.noServing) :
    a.state = b.state ∧ a.transactions = b.transactions ∧ a.requests = b.requests ∧ a.status = b.status := by
  unfold Tether.noServing at h
  simp only [Tether.mk.injEq] at h
  simp only [h, and_self]

theorem linkOpen_of_noServing {a b : Tether} (h : a.noServing = b.noServing) : linkOpen a = linkOpen b := by
  rw [linkOpen, (Tether.noServing_fields h).1, linkOpen]

theorem drain_closed {s : State} (h : linkOpen s.pkg.sh.tether = false) :
    (drain s).pkg.sh.tether.noServing = s.pkg.sh.tether.noServing := by
  unfold drain
  exact List.foldlRecOn (motive := fun x : State => x.pkg.sh.tether.noServing = s.pkg.sh.tether.noServing) _ _ rfl
    (fun x hx c _ => (deliver_closed c ((linkOpen_of_noServing hx).trans h)).trans hx)

theorem after_tether_closed (s : State) {q : Pkg} (h : linkOpen q.sh.tether = false) :
    (s.after q).pkg.sh.tether.noServing = q.sh.tether.noServing := drain_closed (s := { s with pkg := q }) h

/-- The loss in a package awake whose link is open (R423). -/
theorem exec_tetherLost {s : State} (hawake : awake s.pkg = true) (hopen : linkOpen s.pkg.sh.tether = true) :
    exec .tetherLost s = .next (s.after (loseLink .lost
      (advanceTo (s.start.sh.tether.session.lastValidAt + 100 * msTicks) s.start))) := by
  rw [← start_awake] at hawake
  rw [← start_linkOpen] at hopen
  have hrun : exec .tetherLost s = execTetherLost s := rfl
  rw [hrun, execTetherLost, package_runs]
  simp only [hawake, hopen, Bool.not_true, Bool.or_false, Bool.false_eq_true, if_false]

/-- Settles O56: the loss answers all that has crossed the link, and the completions find it closed. -/
theorem lostLinkEndsItsTransactions : Obligations.LostLinkEndsItsTransactions := by
  unfold Obligations.LostLinkEndsItsTransactions
  intro s hawake hopen
  have hrun := exec_tetherLost hawake hopen
  have htether : (advanceTo (s.start.sh.tether.session.lastValidAt + 100 * msTicks) s.start).sh.tether = s.start.sh.tether :=
    advance_tether _ _
  have hlead : (advanceTo (s.start.sh.tether.session.lastValidAt + 100 * msTicks) s.start).lead = s.pkg.lead :=
    (advance_lead _ _).trans (start_lead s)
  have hown (t : Nat) : ownNo (advanceTo (s.start.sh.tether.session.lastValidAt + 100 * msTicks) s.start) t = ownNo s.pkg t :=
    (advance_ownNo _ _ _).trans (start_ownNo _ _)
  have hout (u : Nat) : ((advanceTo (s.start.sh.tether.session.lastValidAt + 100 * msTicks) s.start).tile u).fabric.out
      = (s.pkg.tile u).fabric.out := (advance_out _ _ _).trans (start_out _ _)
  generalize advanceTo (s.start.sh.tether.session.lastValidAt + 100 * msTicks) s.start = p at hrun htether hlead hown hout
  have hlost := loseLink_tether .lost p
  have hclosed : linkOpen (loseLink .lost p).sh.tether = false := by rw [hlost]; rfl
  have hafter := after_tether_closed s hclosed
  obtain ⟨hstate, htrans, hreqs, hstatus⟩ := Tether.noServing_fields hafter
  rw [hlost] at hstate htrans hreqs hstatus
  refine ⟨_, _, hrun, hstate, htrans, hreqs, by rw [hstatus], (linkOpen_of_noServing hafter).trans hclosed, rfl,
    fun x hx => ?_, fun x o hx ho hreq => ?_⟩
  · rw [loseLink_outbox, htether, start_transactions, hlead, hown]
    exact List.mem_append_right _ (List.mem_map.mpr ⟨x, hx, rfl⟩)
  · refine loseLink_answers .lost (x := x) ?_ ⟨o, ?_, hreq, trivial⟩
    · rwa [htether, start_requests]
    · rwa [hout]

end Sys2Proof.Machine
end

-- What two packages have in common.
section
/-!
PROOFS. Views of a package: what a comparison of two packages looks at. An operation that a view does not see leaves the view of the
package as it was.
-/

namespace Sys2Proof.Machine

/-- What a comparison looks at of a package, of each tile and of each machine of a tile; never a machine's note of a refused action. -/
structure View where
  pkg : Pkg → Pkg
  tile : Nat → Tile → Tile
  machine : Nat → Nat → MachineSt → MachineSt
  refused : ∀ u m x, machine u m { x with refused := false } = machine u m x

/-- What a view sees of a package; the way of completions is out of sight. -/
def View.of (V : View) (p : Pkg) : Pkg × (Nat → Tile) × (Nat → Nat → MachineSt) :=
  (V.pkg p.settled, fun u => V.tile u (p.tile u).settled, fun u m => V.machine u m ((p.tile u).machine m))

namespace View

variable {V : View} {t : Nat} {p q : Pkg}

theorem of_eq_iff : V.of q = V.of p ↔ V.pkg q.settled = V.pkg p.settled
    ∧ (∀ u, V.tile u (q.tile u).settled = V.tile u (p.tile u).settled)
    ∧ ∀ u m, V.machine u m ((q.tile u).machine m) = V.machine u m ((p.tile u).machine m) := by
  unfold View.of
  simp only [Prod.mk.injEq, funext_iff]

/-- The machine of a view, of two machines that differ in their note of a refused action. -/
theorem machine_eq {u m : Nat} {a b : MachineSt} (h : { a with refused := false } = { b with refused := false }) :
    V.machine u m a = V.machine u m b := by
  rw [← V.refused u m a, h, V.refused]

/-- No view sees the way of completions. -/
theorem of_samePkg (h : samePkg p q) : V.of q = V.of p := by
  obtain ⟨hp, ht⟩ := h
  refine of_eq_iff.mpr ⟨by rw [hp], fun u => by rw [(ht u).1], fun u m => machine_eq ((ht u).2 m).symm⟩

/-- A change of one tile that the view does not see. -/
theorem of_onTile' {f : Tile → Tile} (hf : V.tile t (f (p.tile t)).settled = V.tile t (p.tile t).settled)
    (hm : ∀ m, V.machine t m ((f (p.tile t)).machine m) = V.machine t m ((p.tile t).machine m)) : V.of (onTile t f p) = V.of p := by
  refine of_eq_iff.mpr ⟨rfl, fun u => ?_, fun u m => ?_⟩ <;> obtain rfl | hu := Decidable.em (u = t)
  · rwa [onTile_tile]
  · rw [onTile_tile_ne _ _ hu]
  · rw [onTile_tile, hm]
  · rw [onTile_tile_ne _ _ hu]

/-- The view sees of tile `t` no more than `g` does. -/
def Forgets (V : View) (t : Nat) (g : Tile → Tile) : Prop := ∀ x y : Tile, g x = g y → V.tile t x.settled = V.tile t y.settled

/-- A change of one tile that leaves what `g` shows of it, and the machines. -/
theorem of_onTile {g f : Tile → Tile} (h : V.Forgets t g) (hf : g (f (p.tile t)) = g (p.tile t))
    (hm : (f (p.tile t)).machines = (p.tile t).machines) : V.of (onTile t f p) = V.of p :=
  of_onTile' (h _ _ hf) (fun m => by rw [Tile.machine, hm, Tile.machine])

theorem of_onShared {f : Shared → Shared} (hf : V.pkg (onShared f p).settled = V.pkg p.settled) : V.of (onShared f p) = V.of p :=
  of_eq_iff.mpr ⟨hf, fun _ => rfl, fun _ _ => rfl⟩

/-- The view sees of tile `t` nothing that a raise or a snooped write touches. -/
structure Quiet (V : View) (t : Nat) : Prop where
  tile : V.Forgets t Tile.quiet
  since : ∀ m x, V.machine t m { x with since := 0 } = V.machine t m x

theorem of_notes (h : V.Quiet t) (hn : notes t p q) : V.of q = V.of p := by
  obtain ⟨hpkg, hother, htile, hmachine⟩ := hn
  refine of_eq_iff.mpr ⟨?_, fun u => ?_, fun u m => ?_⟩
  · have hset := congrArg Pkg.settled hpkg
    exact congrArg V.pkg hset
  · obtain rfl | hu := Decidable.em (u = t)
    · exact h.tile _ _ htile.symm
    · rw [hother u hu]
  · obtain rfl | hu := Decidable.em (u = t)
    · rw [← h.since, ← hmachine, h.since]
    · rw [hother u hu]

@[simp] theorem of_raise (h : V.Quiet t) (ev : Nat) : V.of (raise t ev p) = V.of p := of_notes h (notes_raise ..)
@[simp] theorem of_raiseWith (h : V.Quiet t) (ev detail : Nat) : V.of (raiseWith t ev detail p) = V.of p := of_notes h (notes_raiseWith ..)
@[simp] theorem of_snoop (h : V.Quiet t) (k : Key) : V.of (snoop t k p) = V.of p := of_notes h (notes_snoop ..)
@[simp] theorem of_issue (h : V.Quiet t) (dest cls : Nat) (w : Purpose) (op : FabricOp) (limit : Nat) :
    V.of (issue t dest cls w op limit p) = V.of p := of_notes h (notes_issue ..)

@[simp] theorem of_emit (c : Completion) : V.of (emit c p) = V.of p := rfl

@[simp] theorem of_finishWith (c : Ctx) (op : Byte) {st : Byte} (u : Nat) (pl : List Byte) (hst : st ≠ stCapacity) :
    V.of (finishWith c op st u pl p) = V.of p := of_samePkg (samePkg_finishWith c op u pl p hst)
@[simp] theorem of_finish (c : Ctx) (op : Byte) {st : Byte} (u : Nat) (hst : st ≠ stCapacity) : V.of (finish c op st u p) = V.of p :=
  of_samePkg (samePkg_finish c op u p hst)
@[simp] theorem of_finish_ok (c : Ctx) (op : Byte) (u : Nat) : V.of (finish c op stOk u p) = V.of p := of_finish c op u (by decide)
@[simp] theorem of_reply (c : Ctx) (op : Byte) (u : Nat) (pl : List Byte) : V.of (reply c op u pl p) = V.of p :=
  of_samePkg (samePkg_reply c op u pl p)
@[simp] theorem of_accept (c : Ctx) (op : Byte) (u : Nat) : V.of (accept c op u p) = V.of p := rfl

theorem of_after (s : State) : V.of (s.after p).pkg = V.of p := of_samePkg (onlyCompletes_drain { s with pkg := p }).2.1
theorem of_start (s : State) : V.of s.start = V.of s.pkg := of_samePkg (samePkg_start s)

end View

/-! The frames of the statements are views. -/

/-- What `onlyTile` compares. -/
def tileView (t : Nat) (mask : Tile → Tile) : View where
  pkg := id
  tile := atTile t mask
  machine u _ x := if u = t then x.noted else { x with refused := false }
  refused u m x := by dsimp only; split <;> rfl

theorem tileView_forgets {t : Nat} {mask g : Tile → Tile} (h : ∀ x y : Tile, g x = g y → mask x.settled = mask y.settled) : (tileView t mask).Forgets t g := by
  intro x y hxy
  simp only [tileView, atTile, if_true]
  exact h x y hxy

theorem tileView_quiet {t : Nat} {mask : Tile → Tile} (h : ∀ x y : Tile, x.quiet = y.quiet → mask x.settled = mask y.settled) : (tileView t mask).Quiet t where
  tile := tileView_forgets h
  since m x := by simp only [tileView, if_true]; rfl

theorem onlyTile_of_view {s : State} {t : Nat} {mask : Tile → Tile} {q : Pkg}
    (h : (tileView t mask).of q = (tileView t mask).of s.start) : onlyTile t mask s (s.after q) := by
  have hall := (View.of_after s).trans (h.trans (View.of_start s))
  obtain ⟨hpkg, htile, hmachine⟩ := View.of_eq_iff.mp hall
  refine ⟨after_hp_settled s q, hpkg, after_pending s q, fun u hu => ⟨?_, fun m => ?_⟩, ?_, fun m => ?_⟩
  · simpa only [tileView, atTile, if_neg hu] using (htile u).symm
  · simpa only [tileView, if_neg hu] using (hmachine u m).symm
  · simpa only [tileView, atTile, if_true] using htile t
  · have hm := hmachine t m
    simp only [tileView, if_true] at hm
    exact hm

/-- What `sameParts` compares, where no machine shows its notes. -/
def partsView (pkg : Pkg → Pkg) (tile : Nat → Tile → Tile) (machine : Nat → Nat → MachineSt → MachineSt)
    (h : ∀ u m x, machine u m { x with refused := false } = machine u m x) : View := ⟨pkg, tile, machine, h⟩

theorem sameParts_of_view {pkg : Pkg → Pkg} {tile : Nat → Tile → Tile} {machine : Nat → Nat → MachineSt → MachineSt}
    {h : ∀ u m x, machine u m { x with refused := false } = machine u m x} {s : State} {q : Pkg}
    (hq : (partsView pkg tile machine h).of q = (partsView pkg tile machine h).of s.start) :
    sameParts pkg tile machine s (s.after q) := by
  obtain ⟨hpkg, htile, hmachine⟩ := View.of_eq_iff.mp ((View.of_after s).trans (hq.trans (View.of_start s)))
  exact ⟨after_hp_settled s q, after_pending s q, hpkg, htile, hmachine⟩

end Sys2Proof.Machine
end

-- The writing of points.
section
/-!
PROOFS. Point writes, overrides and releases of plain points (R27, R28, R30, R32).
-/

namespace Sys2Proof.Machine

@[simp] theorem touchMonitor_points (k : Key) (tl : Tile) : (touchMonitor k tl).points = tl.points := by
  unfold touchMonitor
  split <;> rfl
@[simp] theorem touchMonitor_overrides (k : Key) (tl : Tile) : (touchMonitor k tl).overrides = tl.overrides := by
  unfold touchMonitor
  split <;> rfl
@[simp] theorem touchMonitor_machines (k : Key) (tl : Tile) : (touchMonitor k tl).machines = tl.machines := by
  unfold touchMonitor
  split <;> rfl

theorem notes.points_eq {t : Nat} {p q : Pkg} (h : notes t p q) : (q.tile t).points = (p.tile t).points :=
  (congrArg Tile.points h.2.2.1).symm
theorem notes.overrides_eq {t : Nat} {p q : Pkg} (h : notes t p q) : (q.tile t).overrides = (p.tile t).overrides :=
  (congrArg Tile.overrides h.2.2.1).symm

/-- A record that is stored is the record there, and no other changes. -/
theorem putRec_points (t : Nat) (k : Key) (r : Rec) (p : Pkg) : ((putRec t k r p).tile t).points = (p.tile t).points.set k r := by
  unfold putRec
  rw [(notes_snoop t k _).points_eq, onTile_tile, touchMonitor_points]

theorem putRec_overrides (t : Nat) (k : Key) (r : Rec) (p : Pkg) : ((putRec t k r p).tile t).overrides = (p.tile t).overrides := by
  unfold putRec
  rw [(notes_snoop t k _).overrides_eq, onTile_tile, touchMonitor_overrides]

/-- A tile without its points, what a raise touches, and, for the words of monitors, the monitors. -/
def Tile.noPoint (k : Key) (x : Tile) : Tile :=
  { x.quiet with points := [], monitors := if keyClass k = 0xC then [] else x.monitors }

/-- A stored record leaves a view that sees neither points nor notes, nor the monitors where it is in their words (R372). -/
theorem View.of_putRec {V : View} {t : Nat} (hq : V.Quiet t) {k : Key} (h : V.Forgets t (Tile.noPoint k)) (r : Rec) (p : Pkg) :
    V.of (putRec t k r p) = V.of p := by
  unfold putRec
  rw [View.of_snoop hq]
  refine View.of_onTile h ?_ (touchMonitor_machines _ _)
  unfold touchMonitor
  split
  · next hc =>
    have hclass : keyClass k = 0xC := by
      rw [Bool.and_eq_true, Bool.and_eq_true] at hc
      exact eq_of_beq hc.1.1
    unfold Tile.noPoint
    rw [if_pos hclass, if_pos hclass]
    rfl
  · rfl

/-- A point of class VAR, BUS or HST is a plain record. -/
def plainClass (k : Key) : Prop := keyClass k = 0x7 ∨ keyClass k = 0xB ∨ keyClass k = 0xC

theorem readPoint_plain {k : Key} (hk : plainClass k) (p : Pkg) (t : Nat) : readPoint p t k = (p.tile t).points.getD k {} := by
  unfold readPoint
  obtain h | h | h := hk <;> simp only [h]

theorem applyWrite_plain {k : Key} (hk : plainClass k) (t : Nat) (v : Word) (q : Quality) (p : Pkg) :
    applyWrite t k v q p = putNow t k v q p := by
  unfold applyWrite
  obtain h | h | h := hk <;> simp only [h]

theorem overrideWrite_plain {k : Key} (hk : plainClass k) (t : Nat) (v : Word) (p : Pkg) :
    overrideWrite t k v p = putNow t k v .overridden p := by
  unfold overrideWrite
  obtain h | h | h := hk <;> simp [h]

/-- A step leaves the points and overrides of every tile as its meaning has made them. -/
theorem after_points (s : State) (q : Pkg) (t : Nat) : ((s.after q).pkg.tile t).points = (q.tile t).points :=
  (congrArg Tile.points ((onlyCompletes_drain { s with pkg := q }).2.1.2 t).1).symm
theorem after_overrides (s : State) (q : Pkg) (t : Nat) : ((s.after q).pkg.tile t).overrides = (q.tile t).overrides :=
  (congrArg Tile.overrides ((onlyCompletes_drain { s with pkg := q }).2.1.2 t).1).symm
theorem start_points (s : State) (t : Nat) : (s.start.tile t).points = (s.pkg.tile t).points :=
  (congrArg Tile.points ((samePkg_start s).2 t).1).symm
theorem after_fabric_overridden (s : State) (q : Pkg) (t : Nat) :
    ((s.after q).pkg.tile t).fabric.overridden = (q.tile t).fabric.overridden :=
  (congrArg (fun x : Tile => x.fabric.overridden) ((onlyCompletes_drain { s with pkg := q }).2.1.2 t).1).symm
theorem start_overridden (s : State) (t : Nat) : (s.start.tile t).fabric.overridden = (s.pkg.tile t).fabric.overridden :=
  (congrArg (fun x : Tile => x.fabric.overridden) ((samePkg_start s).2 t).1).symm

/-- What a POINT_WRITE that finds nothing wrong does (R30, R119). -/
theorem exec_pointWrite {s : State} {c : Ctx} {t : Nat} {h : Handle} {v : Word} {ei : Byte} {rsv : BitVec 24}
    (hp : performs (.pointWrite c h v ei rsv) s.start t = true) (hw : writeError s.start t c h = none) :
    exec (.pointWrite c h v ei rsv) s = .next (s.after (finish c 0x11 stOk t (ownerWrite t (handleKey h) v .good s.start))) :=
  exec_of_effect hp rfl (by rw [hw])

theorem exec_pointOverride {s : State} {c : Ctx} {t : Nat} {h : Handle} {v : Word} {ei : Byte} {rsv : BitVec 24}
    (hp : performs (.pointOverride c h v ei rsv) s.start t = true) (hw : pointError s.start t h = none)
    (hn : notWritable s.start t (handleKey h) = false) (hk : plainClass (handleKey h)) :
    exec (.pointOverride c h v ei rsv) s = .next (s.after (finish c 0x14 stOk t (putNow t (handleKey h) v .overridden
      (onTile t (fun tl => if overridden tl (handleKey h) then tl
        else { tl with overrides := tl.overrides ++ [ownKey (handleKey h)] }) s.start)))) := by
  refine exec_of_effect hp rfl ?_
  have hdrive : (keyClass (handleKey h) == 1 || keyClass (handleKey h) == 2) = false := by
    obtain hc | hc | hc := hk <;> rw [hc] <;> rfl
  dsimp only
  rw [hw]
  dsimp only
  rw [if_neg (by rw [hn]; decide), overrideWrite_plain hk, if_neg (by rw [hdrive]; decide)]

theorem exec_pointRelease {s : State} {c : Ctx} {t : Nat} {h : Handle} {ei : Byte} {rsv : BitVec 24}
    (hp : performs (.pointRelease c h ei rsv) s.start t = true) (hw : pointError s.start t h = none)
    (ho : overridden (s.start.tile t) (handleKey h) = true) :
    exec (.pointRelease c h ei rsv) s = .next (s.after (finish c 0x15 stOk t
      (onTile t (fun tl => { tl with overrides := tl.overrides.filter (· != ownKey (handleKey h)) }) s.start))) := by
  refine exec_of_effect hp rfl ?_
  dsimp only
  rw [hw]
  dsimp only
  rw [if_neg (by rw [ho]; decide)]

/-- What a POINT_WRITE of a plain point may change of its tile. -/
def Tile.writtenMask (k : Key) (x : Tile) : Tile :=
  { x.settled with points := [], rings := {}, events := {}, fabric := { x.settled.fabric with nextId := 0 }
                   monitors := if keyClass k = 0xC then [] else x.monitors }

theorem Tile.writtenMask_noPoint (k : Key) (x : Tile) : (x.noPoint k).writtenMask k = x.writtenMask k := by
  unfold Tile.writtenMask Tile.noPoint
  split <;> rfl

/-- Settles O53: a plain point is a record of its own under its key. -/
theorem pointWritesAreReadBack : Obligations.PointWritesAreReadBack := by
  unfold Obligations.PointWritesAreReadBack
  rintro s p c t h v ei rsv k rfl rfl hk
  change plainClass (handleKey h) at hk
  refine ⟨fun hp hw ho => ⟨_, exec_pointWrite hp hw, ?_, fun j hj => ?_, ?_⟩,
    fun hp hw ho => ⟨_, exec_pointWrite hp hw, ?_, ?_, ?_⟩,
    fun hp hw hn => ⟨_, exec_pointOverride hp hw hn hk, ?_, ?_⟩,
    fun hp hw ho => ⟨_, exec_pointRelease hp hw ho, ?_, ?_⟩⟩
  · rw [ownerWrite, if_neg (by rw [ho]; decide), applyWrite_plain hk, readPoint_plain hk, after_points, finish_tile, putNow,
      putRec_points, Tbl.getD_set, start_now]
  · rw [ownerWrite, if_neg (by rw [ho]; decide), applyWrite_plain hk, after_points, finish_tile, putNow, putRec_points,
      Tbl.find?_set_ne _ hj, start_points]
  · rw [ownerWrite, if_neg (by rw [ho]; decide), applyWrite_plain hk]
    apply onlyTile_of_view
    rw [View.of_finish_ok]
    refine View.of_putRec (tileView_quiet fun x y hxy => ?_) (tileView_forgets fun x y hxy => ?_) _ _
    · have hmask := congrArg (Tile.writtenMask (handleKey h)) hxy
      exact hmask
    · have hmask := congrArg (Tile.writtenMask (handleKey h)) hxy
      rw [Tile.writtenMask_noPoint, Tile.writtenMask_noPoint] at hmask
      exact hmask
  · rw [ownerWrite, if_pos ho, readPoint_plain hk, after_points, finish_tile, countOverridden, onTile_tile, start_points,
      readPoint_plain hk]
  · rw [ownerWrite, if_pos ho, after_fabric_overridden, finish_tile, countOverridden, onTile_tile, start_overridden]
  · rw [ownerWrite, if_pos ho]
    apply onlyTile_of_view
    rw [View.of_finish_ok, countOverridden]
    refine View.of_onTile (g := fun x => { x with fabric := { x.fabric with overridden := 0 } })
      (tileView_forgets fun x y hxy => ?_) rfl rfl
    have hmask := congrArg Tile.settled hxy
    exact hmask
  · rw [readPoint_plain hk, after_points, finish_tile, putNow, putRec_points, Tbl.getD_set, onTile_now, start_now]
  · rw [overridden, after_overrides, finish_tile, putNow, putRec_overrides, onTile_tile]
    split
    · next hin => exact hin
    · simp
  · rw [readPoint_plain hk, after_points, finish_tile, onTile_tile, start_points, readPoint_plain hk]
  · rw [overridden, after_overrides, finish_tile, onTile_tile]
    simp

end Sys2Proof.Machine
end

-- Drive writes and trips.
section
/-!
PROOFS. What a change of a channel leaves as it was, drive writes (R133) and turn-offs (R143, R147, R150).
-/

namespace Sys2Proof.Machine

/-- A tile without its points, its monitors and what a raise touches. -/
def Tile.noPoints (x : Tile) : Tile := { x.quiet with points := [], monitors := [] }

theorem notes.noPoints {t : Nat} {p q : Pkg} (h : notes t p q) (u : Nat) : (q.tile u).noPoints = (p.tile u).noPoints := by
  obtain rfl | hu := Decidable.em (u = t)
  · have hq := congrArg Tile.noPoints h.2.2.1
    exact hq.symm
  · rw [h.2.1 u hu]

theorem touchMonitor_noPoints (k : Key) (tl : Tile) : (touchMonitor k tl).noPoints = tl.noPoints := by
  unfold touchMonitor
  split <;> rfl

section
variable (t u : Nat) (p : Pkg)

@[simp] theorem raiseWith_noPoints (ev detail : Nat) : ((raiseWith t ev detail p).tile u).noPoints = (p.tile u).noPoints :=
  (notes_raiseWith ..).noPoints u
@[simp] theorem snoop_noPoints (k : Key) : ((snoop t k p).tile u).noPoints = (p.tile u).noPoints := (notes_snoop ..).noPoints u

theorem onTile_noPoints {f : Tile → Tile} (hf : (f (p.tile t)).noPoints = (p.tile t).noPoints) :
    ((onTile t f p).tile u).noPoints = (p.tile u).noPoints := by
  obtain rfl | hu := Decidable.em (u = t)
  · rw [onTile_tile, hf]
  · rw [onTile_tile_ne _ _ hu]

@[simp] theorem putNow_noPoints (k : Key) (v : Word) (q : Quality) : ((putNow t k v q p).tile u).noPoints = (p.tile u).noPoints := by
  unfold putNow putRec
  rw [snoop_noPoints, onTile_noPoints]
  exact touchMonitor_noPoints _ _

@[simp] theorem syncChan_noPoints (c : Nat) : ((syncChan t c p).tile u).noPoints = (p.tile u).noPoints := by
  unfold syncChan
  dsimp only
  split <;> split <;> simp only [putNow_noPoints]

/-- A change of a channel, and what it notes in points. -/
theorem onChan_noPoints (c : Nat) (f : Chan → Chan) : ((onChan t c f p).tile u).noPoints
    = ((onTile t (Tile.onChan c (fun x => countsDrive p.now x (f x))) p).tile u).noPoints := by
  unfold onChan
  rw [syncChan_noPoints]

end

@[simp] theorem Tile.onChan_chan (c : Nat) (f : Chan → Chan) (tl : Tile) : (tl.onChan c f).chan c = f (tl.chan c) := by
  simp only [Tile.onChan, Tile.chan, Tbl.modify, Tbl.getD_set]

theorem Tile.onChan_chan_ne {c n : Nat} (f : Chan → Chan) (tl : Tile) (h : n ≠ c) : (tl.onChan c f).chan n = tl.chan n := by
  simp only [Tile.onChan, Tile.chan, Tbl.modify, Tbl.getD_set_ne _ _ _ h]

theorem chan_of_noPoints {a b : Tile} (h : a.noPoints = b.noPoints) (n : Nat) : a.chan n = b.chan n := by
  have hc := congrArg Tile.chans h
  change a.chans = b.chans at hc
  rw [Tile.chan, hc, Tile.chan]

/-- All that differs between two packages is channel `c` of tile `t`, now `x`, the points and what a raise touches. -/
structure chanBecomes (t c : Nat) (x : Chan) (p q : Pkg) : Prop where
  chan : (q.tile t).chan c = x
  others : ∀ u n, (u, n) ≠ (t, c) → (q.tile u).chan n = (p.tile u).chan n
  rest : ∀ u, { (q.tile u).noPoints with chans := [] } = { (p.tile u).noPoints with chans := [] }

theorem chanBecomes.trans {t c : Nat} {x y : Chan} {p q r : Pkg} (h : chanBecomes t c x p q) (k : chanBecomes t c y q r) :
    chanBecomes t c y p r :=
  ⟨k.chan, fun u n e => (k.others u n e).trans (h.others u n e), fun u => (k.rest u).trans (h.rest u)⟩

theorem chanBecomes.of_noPoints {t c : Nat} {x : Chan} {p q r : Pkg} (h : chanBecomes t c x p q)
    (k : ∀ u, (r.tile u).noPoints = (q.tile u).noPoints) : chanBecomes t c x p r :=
  ⟨(chan_of_noPoints (k t) c).trans h.chan, fun u n e => (chan_of_noPoints (k u) n).trans (h.others u n e),
    fun u => by rw [k u, h.rest u]⟩

theorem chanBecomes_onTile (t c : Nat) (f : Chan → Chan) (p : Pkg) :
    chanBecomes t c (f ((p.tile t).chan c)) p (onTile t (Tile.onChan c f) p) := by
  refine ⟨by rw [onTile_tile, Tile.onChan_chan], fun u n e => ?_, fun u => ?_⟩ <;> obtain rfl | hu := Decidable.em (u = t)
  · rw [onTile_tile, Tile.onChan_chan_ne _ _ (fun hn => e (by rw [hn]))]
  · rw [onTile_tile_ne _ _ hu]
  · rw [onTile_tile]
    rfl
  · rw [onTile_tile_ne _ _ hu]

theorem chanBecomes_onChan (t c : Nat) (f : Chan → Chan) (p : Pkg) :
    chanBecomes t c (countsDrive p.now ((p.tile t).chan c) (f ((p.tile t).chan c))) p (onChan t c f p) :=
  (chanBecomes_onTile t c (fun x => countsDrive p.now x (f x)) p).of_noPoints (fun _ => onChan_noPoints ..)

/-! A write of a drive command in Run (R133, R147). -/

theorem countsDrive_drive (now : Nat) (was c : Chan) : (countsDrive now was c).drive = c.drive := by
  unfold countsDrive
  split <;> rfl

theorem clampDrive_toNat (m : Nat) (v : Word) : (clampDrive m false v).toNat = Nat.min v.toNat (driveMax m) := by
  have hlt : Nat.min v.toNat (driveMax m) < 2 ^ 32 := Nat.lt_of_le_of_lt (Nat.min_le_left _ _) v.isLt
  rw [clampDrive, if_neg (by decide), w32, BitVec.toNat_ofNat, Nat.mod_eq_of_lt hlt]

/-- A write of the drive command of a channel in Run (R133). -/
theorem writeDrive_run (t c : Nat) (eng : Bool) (v : Word) (q : Quality) {p : Pkg} (hmode : driveMode ((p.tile t).chan c).mode = true)
    (hrun : ((p.tile t).chan c).out = .run) :
    ∃ x, chanBecomes t c x p (writeDrive t c eng v q p).1 ∧ x.drive = (setDrive p.now eng v q ((p.tile t).chan c)).drive := by
  unfold writeDrive
  have hsafe : (OutState.run == OutState.safelight) = false := rfl
  have hhold : (OutState.run == OutState.hold) = false := rfl
  have hoff : (OutState.run == OutState.off) = false := rfl
  simp only [hmode, hrun, hsafe, hhold, hoff, Bool.not_true, Bool.false_or, Bool.false_and, Bool.false_eq_true, if_false]
  refine ⟨_, (chanBecomes_onChan t c _ p).of_noPoints (fun u => by rw [snoop_noPoints, snoop_noPoints]), ?_⟩
  rw [countsDrive_drive, apply_ite Chan.drive]
  exact ite_self _

/-! The class and the index of a handle are those of its key (R24). -/

theorem keyClass_handleKey (h : Handle) : keyClass (handleKey h) = handleClass h := by
  simp only [keyClass, handleKey, handleClass, BitVec.extractLsb'_toNat, Nat.shiftRight_eq_div_pow]
  omega

theorem keyIdx_handleKey (h : Handle) : keyIdx (handleKey h) = handleIdx h := by
  simp only [keyIdx, handleKey, handleIdx, BitVec.extractLsb'_toNat, Nat.shiftRight_eq_div_pow]
  omega

theorem notWritable_of_writeError {p : Pkg} {t : Nat} {c : Ctx} {h : Handle} (hw : writeError p t c h = none) :
    notWritable p t (handleKey h) = false := by
  unfold writeError at hw
  split at hw
  · cases hw
  · split at hw
    · cases hw
    · next hn => simpa using hn

theorem start_overrides (s : State) (t : Nat) : (s.start.tile t).overrides = (s.pkg.tile t).overrides :=
  (congrArg Tile.overrides ((samePkg_start s).2 t).1).symm

theorem start_chan (s : State) (t n : Nat) : (s.start.tile t).chan n = (s.pkg.tile t).chan n := by
  have h : (s.start.tile t).chans = (s.pkg.tile t).chans := (congrArg Tile.chans ((samePkg_start s).2 t).1).symm
  rw [Tile.chan, h, Tile.chan]

theorem after_chan (s : State) (q : Pkg) (t n : Nat) : ((s.after q).pkg.tile t).chan n = (q.tile t).chan n := by
  have h : ((s.after q).pkg.tile t).chans = (q.tile t).chans :=
    (congrArg Tile.chans ((onlyCompletes_drain { s with pkg := q }).2.1.2 t).1).symm
  rw [Tile.chan, h, Tile.chan]

/-- Settles O54: a write of a drive command keeps it clamped, and the other channels. -/
theorem driveWritesAreClamped : Obligations.DriveWritesAreClamped := by
  unfold Obligations.DriveWritesAreClamped
  rintro s c t h v ei rsv ch hp hw ho hclass rfl hrun
  have hno : overridden (s.start.tile t) (handleKey h) = false := by
    rwa [overridden, start_overrides, ← overridden]
  have hn := notWritable_of_writeError hw
  rw [notWritable] at hn
  simp only [keyClass_handleKey, hclass, keyIdx_handleKey, Bool.not_eq_false', Bool.and_eq_true] at hn
  obtain ⟨hsub, hmode⟩ := hn
  rw [← start_chan] at hrun
  obtain ⟨x, hx, hdrive⟩ := writeDrive_run t (handleIdx h / 8) false v .good hmode hrun
  have hwrite : ownerWrite t (handleKey h) v .good s.start = (writeDrive t (handleIdx h / 8) false v .good s.start).1 := by
    rw [ownerWrite, hno, if_neg (by decide), applyWrite]
    simp only [keyClass_handleKey, hclass, keyIdx_handleKey, hsub, if_true]
  have hchan : (ownerWrite t (handleKey h) v .good s.start |> finish c 0x11 stOk t).tile t
      = ((writeDrive t (handleIdx h / 8) false v .good s.start).1).tile t := by rw [finish_tile, hwrite]
  refine ⟨_, exec_pointWrite hp hw, ?_, ?_, ?_, fun n hne => ?_⟩
  · rw [after_chan, hchan, hx.chan, hdrive, ← start_chan]
    exact clampDrive_toNat _ _
  · rw [after_chan, hchan, hx.chan, hdrive]
    rfl
  · rw [after_chan, hchan, hx.chan, hdrive, ← start_now]
    rfl
  · rw [after_chan, hchan, hx.others t n (fun e => hne (Prod.mk.inj e).2), start_chan]

/-! A turn-off of a channel (R143, R147, R150). -/

/-- A tripped stage is off (R150). -/
theorem stageOn_of_tripped {c : Chan} (h : c.prot.tripped = true) : stageOn c = false := by
  rw [stageOn, h]
  simp

theorem countsDrive_of_tripped {now : Nat} {was c : Chan} (h : c.prot.tripped = true) : countsDrive now was c = c := by
  rw [countsDrive, stageOn_of_tripped h]
  rfl

/-- A channel is as it was but for its turn-off: off, with its faults so far, its configuration and its output state. -/
structure TurnedOff (x y : Chan) : Prop where
  tripped : y.prot.tripped = true
  cfg : y.cfg = x.cfg
  out : y.out = x.out

theorem turnedOff_turnOff (now : Nat) (thermal : Bool) (x : Chan) : TurnedOff x (turnOff now thermal x) := ⟨rfl, rfl, rfl⟩

/-- A fault flag of a channel that is turned off sets (R143). -/
theorem setFault_turnedOff (t c : Nat) {flag : Nat} (hflag : flag < 10) {p : Pkg} {x : Chan} (h : TurnedOff x ((p.tile t).chan c)) :
    ∃ y, chanBecomes t c y p (setFault t c flag p) ∧ TurnedOff x y ∧ y.prot.faults.getLsbD flag = true := by
  unfold setFault
  split
  · next hset => exact ⟨_, ⟨rfl, fun _ _ _ => rfl, fun _ => rfl⟩, h, hset⟩
  · refine ⟨_, (chanBecomes_onChan t c _ p).of_noPoints (fun u => raiseWith_noPoints ..), ?_⟩
    rw [countsDrive_of_tripped]
    · exact ⟨⟨h.tripped, h.cfg, h.out⟩, by simp [hflag]⟩
    · exact h.tripped

/-- What a turn-off does to its channel, and that it does no more (R150). -/
theorem tripChannel_turnedOff (t c : Nat) {flag : Nat} (hflag : flag < 10) (p : Pkg) :
    ∃ y, chanBecomes t c y p (tripChannel t c flag p) ∧ TurnedOff ((p.tile t).chan c) y ∧ y.prot.faults.getLsbD flag = true := by
  have hoff := turnedOff_turnOff p.now (flag == fThermal) ((p.tile t).chan c)
  have h1 := chanBecomes_onChan t c (turnOff p.now (flag == fThermal)) p
  rw [countsDrive_of_tripped hoff.tripped] at h1
  obtain ⟨y, h2, hy, hfault⟩ := setFault_turnedOff t c hflag (x := (p.tile t).chan c) (by rw [h1.chan]; exact hoff)
  have h3 := h1.trans h2
  unfold tripChannel
  dsimp only
  split
  · refine ⟨{ y with prot := { y.prot with faultTime := stamp32 p.now } }, ?_, ⟨hy.tripped, hy.cfg, hy.out⟩, hfault⟩
    have h4 := chanBecomes_onTile t c (fun x => { x with prot := { x.prot with faultTime := stamp32 p.now } })
      (setFault t c flag (onChan t c (turnOff p.now (flag == fThermal)) p))
    rw [h3.chan] at h4
    exact (h3.trans h4).of_noPoints (fun u => raiseWith_noPoints ..)
  · exact ⟨y, h3, hy, hfault⟩

/-- No unit drives the channel, so nothing follows its trip (R310, R337, R347). -/
theorem owners_idle {t c : Nat} {q : Pkg} (he : engineOn (q.tile t) c = none) (hs : stepperOn (q.tile t) c = none)
    (hf : ∀ u, u < 4 → ((q.tile t).fan u).state ≠ .unconfigured → fcDrive ((q.tile t).fan u).cfg ≠ c) :
    tripFan t c (tripStepper t c (tripEngine t c q)) = q := by
  have h1 : tripEngine t c q = q := by rw [tripEngine, he]
  have h2 : tripStepper t c q = q := by rw [tripStepper, hs]
  rw [h1, h2, tripFan, forAll]
  refine List.foldlRecOn (motive := fun a => a = q) _ _ rfl (fun a ha u hu => ?_)
  subst ha
  refine if_neg (fun hc => ?_)
  simp only [Bool.and_eq_true, bne_iff_ne, beq_iff_eq] at hc
  obtain ⟨⟨⟨⟨_, hconf⟩, _⟩, hdrive⟩, _⟩ := hc
  exact hf u (List.mem_range.mp hu) hconf hdrive

/-- Package time that passes changes no channel, engine, stepper or fan. -/
theorem advanceTo_drives (at_ : Nat) (s : State) (u : Nat) :
    ((advanceTo at_ s.start).tile u).noCounters = (s.pkg.tile u).noCounters := by
  rw [advanceTo, advance_tile]
  have h := (start_lines s).2 u
  generalize s.start.tile u = a at h ⊢
  generalize s.pkg.tile u = b at h ⊢
  have hc := congrArg Tile.noCounters h
  exact hc

/-- The units that drive channels. -/
def Tile.unitsOf (x : Tile) : Tbl Engine × Tbl Stepper × Tbl Fan := (x.engines, x.steppers, x.fans)

theorem exec_limitTrip {s : State} {tile : TileId} {ch : BitVec 5} (ht : tile.toNat < s.pkg.n) (hr : s.pkg.inReset = false)
    (hon : stageOn ((s.pkg.tile tile.toNat).chan ch.toNat) = true) :
    exec (.limitTrip tile ch) s = .next (s.after (tripOff tile.toNat ch.toNat fLimit
      (advanceTo (((s.pkg.tile tile.toNat).chan ch.toNat).prot.blankUntil + 50 * usTicks) s.start))) := by
  have hrun : exec (.limitTrip tile ch) s = execLimitTrip tile ch s := rfl
  rw [hrun, execLimitTrip, tile_runs ht]
  simp only [start_chan, start_inReset, hr, hon, Bool.not_true, Bool.or_false, Bool.false_eq_true, if_false]

/-- Settles O55: the trip turns the stage off, and hands on to what drives the channel. -/
theorem tripsTurnTheStageOff : Obligations.TripsTurnTheStageOff := by
  unfold Obligations.TripsTurnTheStageOff
  rintro s tile ch _ _ _ q rfl rfl ht hr rfl hon hq
  obtain ⟨y, hy, hoff, hfault⟩ := tripChannel_turnedOff tile.toNat ch.toNat (flag := fLimit) (by decide)
    (advanceTo (((s.pkg.tile tile.toNat).chan ch.toNat).prot.blankUntil + 50 * usTicks) s.start)
  have hdrives := advanceTo_drives (((s.pkg.tile tile.toNat).chan ch.toNat).prot.blankUntil + 50 * usTicks) s
  have hrun := exec_limitTrip ht hr hon
  rw [tripOff, faultOwners, ← hq] at hrun
  rw [← hq] at hy
  generalize advanceTo (((s.pkg.tile tile.toNat).chan ch.toNat).prot.blankUntil + 50 * usTicks) s.start = p at hq hy hoff hdrives
  have hchan (u n : Nat) : (p.tile u).chan n = (s.pkg.tile u).chan n := by
    have h := congrArg (fun x : Tile => x.chan n) (hdrives u)
    exact h
  have hunits (u : Nat) : (q.tile u).engines = (s.pkg.tile u).engines ∧ (q.tile u).steppers = (s.pkg.tile u).steppers
      ∧ (q.tile u).fans = (s.pkg.tile u).fans := by
    have h1 := congrArg Tile.unitsOf (hy.rest u)
    change (q.tile u).unitsOf = (p.tile u).unitsOf at h1
    have h2 := congrArg Tile.unitsOf (hdrives u)
    change (p.tile u).unitsOf = (s.pkg.tile u).unitsOf at h2
    simpa only [Tile.unitsOf, Prod.mk.injEq] using h1.trans h2
  obtain ⟨heng, hstep, hfans⟩ := hunits tile.toNat
  have hengine : engineOn (q.tile tile.toNat) ch.toNat = engineOn (s.pkg.tile tile.toNat) ch.toNat := by
    simp only [engineOn, Tile.engine, heng]
  have hstepper : stepperOn (q.tile tile.toNat) ch.toNat = stepperOn (s.pkg.tile tile.toNat) ch.toNat := by
    simp only [stepperOn, Tile.stepper, hstep]
  have hfan (u : Nat) : (q.tile tile.toNat).fan u = (s.pkg.tile tile.toNat).fan u := by simp only [Tile.fan, hfans]
  refine ⟨hrun, ?_, ?_, ?_, ?_, ?_, fun u n hne => (hy.others u n hne).trans (hchan u n), hunits, fun e he => ?_, fun he hs hf => ?_⟩
  · rw [hy.chan, stageOn_of_tripped hoff.tripped]
  · rw [hy.chan, hoff.tripped]
  · rw [hy.chan, hfault]
  · rw [hy.chan, hoff.cfg, hchan]
  · rw [hy.chan, hoff.out, hchan]
  · rw [tripEngine, hengine, he]
  · refine owners_idle (hengine.trans he) (hstepper.trans hs) (fun u hu => ?_)
    rw [hfan]
    exact hf u hu

end Sys2Proof.Machine
end

-- The encoding of commands.
section
/-!
PROOFS. Every command survives its packet (R116 to R129).
-/

namespace Sys2Proof.Machine

/-- Records of `n` bytes that are written one after the other are read back. -/
theorem records_flatMap {w n : Nat} (h : w = 8 * n) (hn : 0 < n) (l : List (BitVec w)) :
    (groups n (l.flatMap (fun q => le n q.toNat))).map (recOf w) = l := by
  rw [groups_flatMap n hn _ (fun _ => length_le _ _), List.map_map]
  exact List.map_id'' (fun q => recOf_le q h) l

/-- Pairs of words that are written one after the other are read back. -/
theorem pairs_flatMap (l : List (Handle × Word)) :
    (groups 8 (l.flatMap (fun q => le 4 q.1.toNat ++ le 4 q.2.toNat))).map (fun g => (recOf 32 (g.take 4), recOf 32 (g.drop 4)))
      = l := by
  rw [groups_flatMap 8 (by decide) _ (fun _ => by simp), List.map_map]
  refine List.map_id'' (fun q => ?_) l
  have htake : (le 4 q.1.toNat ++ le 4 q.2.toNat).take 4 = le 4 q.1.toNat := List.take_left' (length_le _ _)
  have hdrop : (le 4 q.1.toNat ++ le 4 q.2.toNat).drop 4 = le 4 q.2.toNat := List.drop_left' (length_le _ _)
  rw [Function.comp_apply, htake, hdrop, recOf_le (w := 32) q.1 rfl, recOf_le (w := 32) q.2 rfl]

/-- Settles O60: each field of a payload is read back where it was written, past the fields before it. -/
theorem commandsSurviveTheirPackets : Obligations.CommandsSurviveTheirPackets := by
  unfold Obligations.CommandsSurviveTheirPackets
  intro i c op pl _ h
  cases i
  all_goals try (cases h; done)
  all_goals cases h
  all_goals refine congrArg some ?_
  all_goals simp (disch := decide) only [List.append_assoc, fld_here, fld_skip, fld_last, drop_skip, records_flatMap, pairs_flatMap,
    Nat.sub_self, Nat.reduceSub, List.drop_zero]

end Sys2Proof.Machine
end

-- The limits of loop outputs.
section
/-!
PROOFS. Every law keeps its outputs between OUT_LO and OUT_HI (R209 to R216).
-/

namespace Sys2Proof.Machine

/-- A value between the limits of a law. -/
def LawIn.limits (x : LawIn) (v : Int) : Prop := x.lo ≤ v ∧ v ≤ x.hi

section
variable {x : LawIn} (h : x.lo ≤ x.hi)
include h

theorem limits_clampInt (v : Int) : x.limits (clampInt x.lo x.hi v) := by
  unfold LawIn.limits clampInt
  split
  · omega
  · split <;> omega

theorem limits_lawPid (s : LawSt) : x.limits (lawPid x s).out := by
  unfold lawPid
  exact limits_clampInt h _

theorem limits_lawPi (s : LawSt) : x.limits (lawPi x s).out := by
  unfold lawPi
  exact limits_clampInt h _

theorem limits_lawLead (s : LawSt) : x.limits (lawLead x s).out := by
  unfold lawLead
  exact limits_clampInt h _

theorem limits_lawSs (s : LawSt) : x.limits (lawSs x s).out := by
  unfold lawSs
  exact limits_clampInt h _

theorem limits_lawOnOff (s : LawSt) : x.limits (lawOnOff x s).out := by
  unfold lawOnOff
  dsimp only
  split
  · exact limits_clampInt h _
  · dsimp only
    unfold LawIn.limits
    split <;> omega

theorem limits_lawRate (s : LawSt) : x.limits (lawRate x s).out := by
  unfold lawRate
  exact limits_clampInt h _

theorem limits_lawSelect (s : LawSt) : x.limits (lawSelect x s).out := by
  unfold lawSelect
  exact limits_clampInt h _

theorem limits_lawSplit (s : LawSt) : x.limits (lawSplit x s).out ∧ x.limits (lawSplit x s).out2 := by
  unfold lawSplit
  exact ⟨limits_clampInt h _, limits_clampInt h _⟩

theorem limits_runLaw (s : LawSt) : x.limits (runLaw x s).out := by
  unfold runLaw
  split
  · exact limits_lawPid h s
  · exact limits_lawPi h s
  · exact limits_lawLead h s
  · exact limits_lawSs h s
  · exact limits_lawOnOff h s
  · exact limits_lawRate h s
  · exact limits_lawSelect h s
  · exact (limits_lawSplit h s).1

theorem limits_runLaw_out2 (s : LawSt) (h8 : x.law = 8) : x.limits (runLaw x s).out2 := by
  unfold runLaw
  rw [h8]
  exact (limits_lawSplit h s).2

end

/-- A value between two words is that of its own word. -/
theorem toInt_wordOf {lo hi : Word} {v : Int} (hlo : lo.toInt ≤ v) (hhi : v ≤ hi.toInt) : (wordOf v).toInt = v := by
  have h1 := lo.le_toInt
  have h2 := hi.toInt_lt
  rw [wordOf, BitVec.toInt_ofInt, Int.bmod_eq_of_le] <;> omega

/-- The outputs of an evaluated slot are those of its law, on inputs with its limits. -/
theorem evalSlot_outputs (tl : Tile) (n : Nat) (rel : Handle → Handle) : ∃ (x : LawIn) (st : LawSt),
    x.law = dLaw (tl.slot n).desc ∧ x.lo = dOutLo (tl.slot n).desc ∧ x.hi = dOutHi (tl.slot n).desc
      ∧ (evalSlot tl n rel).out = wordOf (runLaw x st).out ∧ (evalSlot tl n rel).out2 = wordOf (runLaw x st).out2 := by
  unfold evalSlot
  exact ⟨_, _, rfl, rfl, rfl, rfl, rfl⟩

/-- Settles O52: the outputs are clamped by every law. -/
theorem loopOutputsStayInTheirLimits : Obligations.LoopOutputsStayInTheirLimits := by
  unfold Obligations.LoopOutputsStayInTheirLimits
  intro tl n rel h
  obtain ⟨x, st, hlaw, hlo, hhi, hout, hout2⟩ := evalSlot_outputs tl n rel
  rw [← hlo, ← hhi] at h
  have hword {v : Int} (hv : x.limits v) : dOutLo (tl.slot n).desc ≤ (wordOf v).toInt ∧ (wordOf v).toInt ≤ dOutHi (tl.slot n).desc := by
    obtain ⟨h1, h2⟩ := hv
    rw [hlo] at h1
    rw [hhi] at h2
    rw [toInt_wordOf h1 h2]
    exact ⟨h1, h2⟩
  rw [hout, hout2]
  obtain ⟨h1, h2⟩ := hword (limits_runLaw h st)
  exact ⟨h1, h2, fun h8 => hword (limits_runLaw_out2 h st (hlaw.trans h8))⟩

end Sys2Proof.Machine
end

-- Tier 1: the commands.
section
/-!
PROOFS. Commands that their tile performs: system, setup and point commands.
-/

namespace Sys2Proof.Machine

/-- Settles O1: each system command runs the branch that its operands select. -/
theorem systemCommandsRun : Obligations.SystemCommandsRun := by
  unfold Obligations.SystemCommandsRun
  rintro s p c t rfl
  refine ⟨fun hp => ?_, fun hp => ?_, fun ei rsv hp => ?_, fun ei rsv hp ht => ?_, fun ei rsv hp ht => ?_, fun hp hon hnone => ?_,
    fun hp => ?_, fun secs hp => ?_, fun ceil floor slack flags rsv hp hread => ?_,
    fun ceil floor slack flags rsv q hp hwrite hok hq => ?_⟩
  · exact exec_of_effect hp rfl rfl
  · exact exec_of_effect hp rfl rfl
  · exact exec_of_effect hp rfl rfl
  · exact exec_of_effect hp rfl (by simp [ht])
  · exact exec_of_effect hp rfl (by simp [ht])
  · exact exec_of_effect hp rfl (by simp [hon, hnone, startHandover])
  · exact exec_of_effect hp rfl rfl
  · exact exec_of_effect hp rfl rfl
  · exact exec_of_effect hp rfl (by simp only [hread, if_true])
  · subst hq
    refine exec_of_effect hp rfl ((if_neg (ne_true_of_eq_false hwrite)).trans (if_neg ?_))
    simp [hok]

theorem withFlash_of_pass {tiles : List Nat} {p q : Pkg} (h : flashCheck tiles p = (none, q)) (c : Ctx) (op : Byte) (t : Nat)
    (f : Pkg → Pkg) : withFlash c op t tiles f p = f q := by
  rw [withFlash, h]

/-- Settles O2: the setup commands pass their checks, and those of a flash write. -/
theorem setupCommandsRun : Obligations.SetupCommandsRun := by
  unfold Obligations.SetupCommandsRun
  rintro s p c t rfl
  refine ⟨fun first count rsv entries q hp hcount hrange hall hflash => ?_,
    fun permit enable pred q hp hpermit hpred henable hdef hflash => ?_, fun mask hp hbits hpermit => ?_,
    fun dest repeats rsv hp hdest hrep hthere => ?_⟩
  · refine exec_of_effect hp rfl ((if_neg ?_).trans (withFlash_of_pass hflash ..))
    simpa [hrange, hall] using hcount
  · refine exec_of_effect hp rfl ((if_neg ?_).trans ((if_neg ?_).trans ((if_neg ?_).trans (withFlash_of_pass hflash ..))))
    · simp [hpermit, hpred]
    · omega
    · simp [hdef]
  · refine exec_of_effect hp rfl ((if_neg ?_).trans (if_neg ?_))
    · simp [hbits]
    · exact ne_true_of_eq_false hpermit
  · refine exec_of_effect hp rfl (if_neg ?_)
    simpa [hdest, hthere] using hrep

/-- Settles O3: the point commands pass the checks of their points. -/
theorem pointCommandsRun : Obligations.PointCommandsRun := by
  unfold Obligations.PointCommandsRun
  rintro s p c t rfl
  refine ⟨fun h q hp hok hq => ?_, fun h v ei rsv hp hok => exec_pointWrite hp hok, fun hs q hp hok hq => ?_,
    fun ei rsv pairs hp hok => ?_, fun h v ei rsv q hp hok hn hq => ?_, fun h ei rsv hp hok ho => exec_pointRelease hp hok ho⟩
  · exact exec_of_effect hp rfl (by rw [hok, hq])
  · exact exec_of_effect hp rfl (by rw [hok, hq])
  · exact exec_of_effect hp rfl (by rw [hok])
  · refine exec_of_effect hp rfl ?_
    dsimp only
    rw [hok]
    dsimp only
    rw [if_neg (ne_true_of_eq_false hn), hq]

/-- Settles O4: the channel commands pass their checks. -/
theorem channelCommandsRun : Obligations.ChannelCommandsRun := by
  unfold Obligations.ChannelCommandsRun
  rintro s p c t ch rfl hch
  have hlast : ¬ ch.toNat > 31 := by omega
  refine ⟨fun ei rsv cfg hp hok hidle => ?_, fun rsv hp => ?_, fun ei mask x q hp hbits hx hq => ?_⟩
  · refine exec_of_effect hp rfl ((if_neg hlast).trans ((if_neg ?_).trans (if_neg ?_)))
    · simp [hok]
    · simp [hidle]
  · exact exec_of_effect hp rfl (if_neg hlast)
  · refine exec_of_effect hp rfl ?_
    dsimp only
    rw [if_neg hlast, if_neg (by simp [hbits]), hx, hq]

/-- Settles O5: the converter commands find their sequence. -/
theorem converterCommandsRun : Obligations.ConverterCommandsRun := by
  unfold Obligations.ConverterCommandsRun
  intro s p0 p c t adc hp0 hcatch hadc
  subst hp0
  have hlast : ¬ adc.toNat > 1 := by omega
  refine ⟨fun count rsv entries hp hcount hmax hall hidle => ?_, fun count rsv entries hp hcount hmax hall hidle => ?_,
    fun mode trig hp hmode htrig hno => ?_, fun mode trig hp hmode hcont htrig hno => ?_, fun rsv a hp ha => ?_, fun ref rsv hp href => ?_⟩
  · refine exec_of_effect hp rfl ?_
    dsimp only
    rw [if_neg hlast, ← hcatch, if_neg (by simpa [hmax] using And.intro hcount (List.all_eq_true.mp hall))]
    exact if_neg (ne_true_of_eq_false hidle)
  · refine exec_of_effect hp rfl ?_
    dsimp only
    rw [if_neg hlast, ← hcatch, if_neg (by simpa [hmax] using And.intro hcount (List.all_eq_true.mp hall))]
    exact if_neg (ne_true_of_eq_false hidle)
  · refine exec_of_effect hp rfl ?_
    dsimp only
    rw [if_neg hlast, ← hcatch, if_neg]
    · rfl
    · by_cases h3 : mode = 3
      · simp [h3, htrig h3]
      · simp only [beq_false_of_ne h3, hno h3]
        simp [hmode]
  · refine exec_of_effect hp rfl ?_
    dsimp only
    rw [if_neg hlast, ← hcatch, if_neg]
    · rfl
    · by_cases h3 : mode = 3
      · simp [h3, htrig h3]
      · simp only [beq_false_of_ne h3, beq_false_of_ne hcont, hno h3]
        simp [hmode]
  · refine exec_of_effect hp rfl ?_
    dsimp only
    rw [if_neg hlast, ← hcatch, ha]
  · exact exec_of_effect hp rfl ((if_neg hlast).trans (if_neg (by omega)))

end Sys2Proof.Machine
end

section
/-!
PROOFS. Commands that their tile performs: loops, tables and the predictor.
-/

namespace Sys2Proof.Machine

/-- A LOOP_WRITE whose descriptor and load are fine joins its slot (R122, R198). -/
theorem loopWrite_queues {t n : Nat} {d : BitVec 512} {c : Ctx} {p : Pkg} (hd : descError p t n d = none)
    (hl : (addsSlot (p.tile t) n d && !loadOk (p.tile t) none (some (n, d))) = false) :
    loopWrite t n d c p = queueSlot t n { desc := d, write := some c, mode := none } (some (c, 0x30)) (supersedeSlot t n p) := by
  rw [loopWrite, hd]
  exact if_neg (ne_true_of_eq_false hl)

/-- TRACK is for a law with an input D that is not the selector (R216). -/
theorem not_trackless {base : BitVec 512} {mode : Nat} (h : mode = 2 → dIn base 3 ≠ noHandle ∧ dLaw base ≠ 7) :
    ¬ (mode == 2 && (dIn base 3 == noHandle || dLaw base == 7)) = true := by
  intro hc
  simp only [Bool.and_eq_true, Bool.or_eq_true, beq_iff_eq] at hc
  obtain ⟨hmode, hbad⟩ := hc
  obtain ⟨h1, h2⟩ := h hmode
  exact hbad.elim h1 h2

/-- A LOOP_MODE where no LOOP_WRITE waits (R122, R216). -/
theorem loopMode_queues {t n mode : Nat} {man : Word} {c : Ctx} {p : Pkg} (hc : byMachine c = false)
    (hw : ∀ w, ((p.tile t).slot n).pend = some w → w.write = none)
    (htrack : mode = 2 → dIn ((p.tile t).slot n).desc 3 ≠ noHandle ∧ dLaw ((p.tile t).slot n).desc ≠ 7)
    (hl : (addsSlot (p.tile t) n (withMode ((p.tile t).slot n).desc mode man)
      && !loadOk (p.tile t) none (some (n, withMode ((p.tile t).slot n).desc mode man))) = false) :
    loopMode t n mode man c p = queueSlot t n { desc := withMode ((p.tile t).slot n).desc mode man, write := none, mode := some c }
      (some (c, 0x32)) (supersedeSlot t n p) := by
  rw [byMachine] at hc
  unfold loopMode
  cases hs : c.src
  case machine =>
    rw [hs] at hc
    cases hc
  all_goals
    cases hp : ((p.tile t).slot n).pend with
    | none =>
      simp only [hp, Bool.false_and, Bool.false_eq_true, if_false]
      rw [if_neg (not_trackless htrack), if_neg (ne_true_of_eq_false hl)]
    | some w =>
      have hnone := hw w hp
      simp only [hp, hnone, Option.isSome_none, Bool.false_and, Bool.false_eq_true, if_false]
      rw [if_neg (not_trackless htrack), if_neg (ne_true_of_eq_false hl)]

/-- A LOOP_MODE behind a LOOP_WRITE that waits (R122, R216). -/
theorem loopMode_joins {t n mode : Nat} {man : Word} {c : Ctx} {p : Pkg} {w : PendSlot} (hc : byMachine c = false)
    (hp : ((p.tile t).slot n).pend = some w) (hw : w.write.isSome = true)
    (htrack : mode = 2 → dIn w.asWritten 3 ≠ noHandle ∧ dLaw w.asWritten ≠ 7)
    (hd : descError p t n (withMode w.asWritten mode man) = none)
    (hl : (addsSlot (p.tile t) n (withMode w.asWritten mode man)
      && !loadOk (p.tile t) none (some (n, withMode w.asWritten mode man))) = false) :
    loopMode t n mode man c p = queueSlot t n { w with desc := withMode w.asWritten mode man, mode := some c } (some (c, 0x32))
      (w.mode.elim p (fun c0 => modeDone t c0 stSuperseded p)) := by
  rw [byMachine] at hc
  unfold loopMode
  cases hs : c.src
  case machine =>
    rw [hs] at hc
    cases hc
  all_goals
    simp only [hp, hw, if_true]
    rw [if_neg (not_trackless htrack), if_neg (by simp [hd]), if_neg (ne_true_of_eq_false hl)]
    cases w.mode <;> rfl

/-- A RATE_GROUP_CONFIG that changes its group (R57, R62). -/
theorem rateGroupConfig_changes {c : Ctx} {t g enable : Nat} {n : Word} {p : Pkg} {gr : Group} (hg : g ≤ 7) (he : enable ≤ 1)
    (hn : 1 ≤ n.toNat ∧ n.toNat ≤ 2 ^ 25) (hgr : gr = (p.tile t).group g)
    (hchange : gr.pend ≠ none ∨ gr.enabled ≠ (enable == 1) ∨ gr.n.toNat ≠ n.toNat)
    (hok : enable = 1 → orderOk ((p.tile t).onGroup g (fun x => { x with pend := none })) g n.toNat = true
      ∧ loadOk ((p.tile t).onGroup g (fun x => { x with pend := none })) (some (g, true, n.toNat)) none = true) :
    rateGroupConfig c t g enable n.toNat p =
      (if gr.enabled || enable == 1 then accept c 0x34 t else applyGroup t g)
        (onGrp t g (fun x => { x with pend := some { enable := enable == 1, n := n, ctx := c } })
          ((if enable == 1 && (!gr.enabled || n.toNat < gr.n.toNat) then preChange t else id)
            (gr.pend.elim p (fun w => finish w.ctx 0x34 stSuperseded t (onGrp t g (fun x => { x with pend := none }) p))))) := by
  have hw : w32 n.toNat = n := by simp [w32]
  unfold rateGroupConfig
  dsimp only
  rw [← hgr, if_neg (by omega), if_neg (by simp; omega), if_neg, if_neg, if_neg, hw]
  · generalize (enable == 1 && (!gr.enabled || decide (n.toNat < gr.n.toNat))) = sooner
    cases sooner <;> cases gr.pend <;> cases gr.enabled <;> cases (enable == 1) <;> rfl
  · intro hc
    simp only [Bool.and_eq_true, beq_iff_eq, Bool.not_eq_true'] at hc
    rw [(hok hc.1).2] at hc
    cases hc.2
  · intro hc
    simp only [Bool.and_eq_true, beq_iff_eq, Bool.not_eq_true'] at hc
    rw [(hok hc.1).1] at hc
    cases hc.2
  · intro hc
    simp only [Bool.and_eq_true, beq_iff_eq, Option.isNone_iff_eq_none] at hc
    obtain ⟨⟨h1, h2⟩, h3⟩ := hc
    exact hchange.elim (fun h => h h1) (fun h => h.elim (fun h => h h2) (fun h => h h3))

/-- Settles O6: the loop commands pass their checks and join their slot or group. -/
theorem loopCommandsRun : Obligations.LoopCommandsRun := by
  unfold Obligations.LoopCommandsRun
  rintro s p c t rfl
  refine ⟨fun slot ei rsv desc hp hslot hd hl => ?_, fun slot rsv hp hslot => ?_,
    fun slot mode ei man d hp hslot hmode hc hd hw htrack hl => ?_,
    fun slot mode ei man w d q hp hslot hmode hc hpend hw hd htrack herr hl hq => ?_, fun slot mask ei hp hslot hmask => ?_,
    fun group enable rsv n hp hg he h1 h2 hpend hen hn => ?_,
    fun group enable rsv n g q q1 hp hg he h1 h2 hgr hchange hok hq hq1 => ?_⟩
  · exact exec_of_effect hp rfl ((if_neg (by omega)).trans (loopWrite_queues hd hl))
  · exact exec_of_effect hp rfl (if_neg (by omega))
  · subst hd
    exact exec_of_effect hp rfl ((if_neg (by omega)).trans ((if_neg (by omega)).trans (loopMode_queues hc hw htrack hl)))
  · subst hd hq
    exact exec_of_effect hp rfl ((if_neg (by omega)).trans ((if_neg (by omega)).trans (loopMode_joins hc hpend hw htrack herr hl)))
  · exact exec_of_effect hp rfl ((if_neg (by omega)).trans (if_neg (ne_true_of_eq_false hmask)))
  · refine exec_of_effect hp rfl ?_
    rw [rateGroupConfig]
    dsimp only
    rw [if_neg (by omega), if_neg (by simp; omega), if_pos (by simp [hpend, hen, hn])]
  · refine exec_of_effect hp rfl ((rateGroupConfig_changes hg he ⟨h1, h2⟩ hgr hchange hok).trans ?_)
    rw [hq1, hq]
    split <;> split <;> rfl

end Sys2Proof.Machine
end

section
/-!
PROOFS. Commands that their tile performs: tables, machines and the predictor.
-/

namespace Sys2Proof.Machine

/-- A TABLE_LOAD that finds room for its bytes (R234). -/
theorem tableLoad_loads {c : Ctx} {t kind idx off : Nat} {chunk old : List Byte} {p : Pkg} (hname : tableNameError kind idx = none)
    (hformat : kind = 3 → formatTile idx t = true)
    (hold : (if off = 0 then some [] else (p.tile t).shadow? kind idx) = some old) (hmax : off + chunk.length ≤ kindMax kind)
    (hroom : shadowUsed (p.tile t) kind idx + (patch old off chunk).length ≤ 65536) :
    tableLoad c t kind idx off chunk p = finish c 0x40 stOk t (onTile t (fun x => { x with tables := { x.tables with
      shadow := x.tables.shadow.set (kind * 1024 + idx) (patch old off chunk) } }) p) := by
  have hold' : (if (off == 0) = true then some [] else (p.tile t).shadow? kind idx) = some old := by simpa using hold
  rw [tableLoad]
  dsimp only
  rw [hname]
  dsimp only
  rw [if_neg (by simpa using hformat), hold']
  dsimp only
  rw [if_neg (by omega), if_neg (by omega)]

/-- A TABLE_COMMIT of no bytes (R235). -/
theorem tableCommit_empty {c : Ctx} {t kind idx : Nat} {p q : Pkg} (hname : tableNameError kind idx = none)
    (hflash : flashCheck ((tableTiles t kind idx).filter (online p)) p = (none, q))
    (hkeep : ¬ (kind = 3 ∧ (idx = 48 ∨ idx = 32 ∧ permitsLoseTheir q [] = true))) {q1 q2 : Pkg} {x : Commit}
    (hq1 : q1 = supersedeCommits t kind idx q)
    (hx : x = { kind := kind, idx := idx, bytes := [], ctx := c
                started := (nextWrite (q1.tile t)).isNone
                  && !(q1.tile t).tables.commits.any (fun y => y.kind == kind && y.idx == idx) })
    (hq2 : q2 = reserveClaims t kind idx (onCommits t (fun l => l ++ [x]) (if addsMachine (q1.tile t) x then preChange t q1 else q1))) :
    tableCommit c t kind idx 0 0 p = startWrite t (q1.tile t).tables.commits.length (accept c 0x41 t q2) := by
  rw [tableCommit]
  dsimp only
  rw [hname]
  dsimp only
  rw [if_pos (by decide), if_neg (by decide), hflash]
  dsimp only
  rw [if_neg (by simpa using hkeep), hq2, hx, hq1]

/-- A TABLE_COMMIT of the bytes that the shadow holds (R235). -/
theorem tableCommit_shadow {c : Ctx} {t kind idx len crc : Nat} {p q : Pkg} {b : List Byte} (hname : tableNameError kind idx = none)
    (hlen : len ≠ 0) (hb : (p.tile t).shadow? kind idx = some b) (hlong : b.length = len) (hcrc : (crc32c b).toNat = crc)
    (hvalid : tableValid p t kind idx b = true) (hclaim : claimConflict p t kind idx b = false)
    (harea : ∀ u ∈ tableTiles t kind idx, areaUsed p u kind idx + b.length ≤ kindArea kind)
    (hflash : flashCheck ((tableTiles t kind idx).filter (online p)) p = (none, q)) {q1 q2 : Pkg} {x : Commit}
    (hq1 : q1 = supersedeCommits t kind idx q)
    (hx : x = { kind := kind, idx := idx, bytes := b, ctx := c
                started := (nextWrite (q1.tile t)).isNone
                  && !(q1.tile t).tables.commits.any (fun y => y.kind == kind && y.idx == idx) })
    (hq2 : q2 = reserveClaims t kind idx (onCommits t (fun l => l ++ [x]) (if addsMachine (q1.tile t) x then preChange t q1 else q1))) :
    tableCommit c t kind idx len crc p = startWrite t (q1.tile t).tables.commits.length (accept c 0x41 t q2) := by
  rw [tableCommit]
  dsimp only
  rw [hname]
  dsimp only
  rw [if_neg (by simpa using hlen), hb]
  dsimp only
  rw [if_neg (by simp [hlong, hcrc]), if_neg (by simp [hvalid, hclaim]), if_neg (by simpa using harea), hflash]
  dsimp only
  rw [hq2, hx, hq1]

/-- A TABLE_READ of bytes that are there (R235). -/
theorem tableRead_reads {c : Ctx} {t kind copy idx off len : Nat} {p : Pkg} {b : List Byte} (hkind : kind ≤ 3) (hcopy : copy ≤ 1)
    (hidx : indexOk kind idx = true) (h4 : 4 ≤ len) (hmax : len ≤ 1008) (hword : len % 4 = 0)
    (hshadow : copy = 1 → (p.tile t).shadow? kind idx = some b)
    (htable : copy = 0 → b ≠ [] ∧ b = (p.tile t).table kind idx) (hb : off + len ≤ b.length) :
    tableRead c t kind copy idx off len p = reply c 0x42 t (slice b off len) p := by
  have hsource : (if (copy == 1) = true then (p.tile t).shadow? kind idx
      else if ((p.tile t).table kind idx).isEmpty = true then none else some ((p.tile t).table kind idx)) = some b := by
    by_cases h1 : copy = 1
    · simpa [h1] using hshadow h1
    · obtain ⟨hne, rfl⟩ := htable (by omega)
      simp [h1, hne]
  rw [tableRead]
  dsimp only
  rw [if_neg (by simp; omega), if_neg (by simp [hidx]), if_neg (by simp; omega), hsource]
  exact if_neg (by omega)

/-- Settles O7: the table commands pass their checks. -/
theorem tableCommandsRun : Obligations.TableCommandsRun := by
  unfold Obligations.TableCommandsRun
  rintro s p c t rfl
  refine ⟨fun kind rsv idx off chunk old new hp hname hformat hold hmax hnew hroom => ?_,
    fun kind rsv idx q q1 q2 x hp hname hflash hkeep hq1 hx hq2 => ?_,
    fun kind rsv idx len crc b q q1 q2 x hp hname hlen hb hlong hcrc hvalid hclaim harea hflash hq1 hx hq2 => ?_,
    fun kind copy idx off len b hp hkind hcopy hidx h4 hmax hword hshadow htable hb => ?_, fun m action ei x hp hm ha hx himage => ?_⟩
  · subst hnew
    exact exec_of_effect hp rfl (tableLoad_loads hname hformat hold hmax hroom)
  · exact exec_of_effect hp rfl (tableCommit_empty hname hflash hkeep hq1 hx hq2)
  · exact exec_of_effect hp rfl (tableCommit_shadow hname hlen hb hlong hcrc hvalid hclaim harea hflash hq1 hx hq2)
  · exact exec_of_effect hp rfl (tableRead_reads hkind hcopy hidx h4 hmax hword hshadow htable hb)
  · refine exec_of_effect hp rfl ?_
    dsimp only
    rw [if_neg (by omega), if_neg (by omega), ← hx, if_neg (by simpa using himage)]
    cases (((s.start).tile t).group (machineGroup x.image)).enabled <;> rfl

/-- Settles O8: the predictor commands pass their checks. -/
theorem predictorCommandsRun : Obligations.PredictorCommandsRun := by
  unfold Obligations.PredictorCommandsRun
  rintro s p c t rfl
  refine ⟨fun part rsv first count rsv2 recs hp hpart hlen hmax hok => ?_, fun part rsv first count rsv2 hp hpart hlong hmax => ?_,
    fun node action rsv lambda n hp hnode ha hlambda hn huse hident hmeas => ?_, fun cfg hp hok => ?_, fun zone rsv hp hzone => ?_,
    fun plan x hp ht hx hid => ?_, fun plan x hp ht hx hid hno => ?_, fun zone prio weight hp hz hhost hprio hw => ?_⟩
  · refine exec_of_effect hp rfl ?_
    rw [modelLoad]
    dsimp only
    rw [if_neg (by omega), if_neg (by simp [hlen]), if_neg (by omega), if_neg (by simp [hok])]
  · refine exec_of_effect hp rfl ?_
    rw [modelRead, if_neg (by simp; omega), if_neg (by omega)]
  · refine exec_of_effect hp rfl ?_
    dsimp only
    rw [if_neg (by omega), if_neg, ← hn, if_neg (by simp [huse, hident, hmeas])]
    simpa [Nat.not_lt.mpr ha] using hlambda
  · refine exec_of_effect hp rfl ?_
    rw [planConfig, if_neg (by simp [hok])]
  · refine exec_of_effect hp rfl (if_neg ?_)
    by_cases h : zone = 0xFFFF
    · simp [h]
    · obtain ⟨h1, h2⟩ := hzone h
      simp [h2]
      omega
  · refine exec_of_effect hp rfl ?_
    rw [planFix]
    rw [if_neg (by simp [← ht]), if_pos (by simp [hx, hid])]
  · refine exec_of_effect hp rfl ?_
    rw [planVeto]
    rw [if_neg (by simp [← ht]), if_pos (by simp [hx, hid]), if_pos (by simp [hno])]
  · refine exec_of_effect hp rfl ?_
    dsimp only
    rw [if_neg (by simp [hhost]; omega), if_neg (by simpa using And.intro hprio hw)]

end Sys2Proof.Machine
end

section
/-!
PROOFS. Commands that their tile performs: profiles, angles, motion and rings.
-/

namespace Sys2Proof.Machine

theorem tile_accept (c : Ctx) (op : Byte) (u t : Nat) (p : Pkg) : (accept c op u p).tile t = p.tile t := rfl

/-- A PROFILE_FIRE of a profile that can fire (R309). -/
theorem fire_command {t e program : Nat} {b : Word} {c : Ctx} {p q : Pkg} (h : canFire (p.tile t) e program b = true)
    (hq : q = accept c 0x61 t p) :
    fire t e program b (.command c) p =
      (if ((p.tile t).engine e).phase = .idle then startFire t e program b (.command c) q
        else if ((p.tile t).engine e).held.isSome then
          onEng t e (fun x => { x with held := some { program := BitVec.ofNat 8 program, param := b, src := .command c } })
            (dropHeld t e stSuperseded q)
        else engineItems t e (onEng t e
          (fun x => { x with held := some { program := BitVec.ofNat 8 program, param := b, src := .command c } })
          (dropHeld t e stSuperseded q))) := by
  have htile : (q.tile t).engine e = (p.tile t).engine e := by rw [hq, tile_accept]
  delta fire
  dsimp only
  rw [if_neg (by simp [h]), ← hq, htile]
  cases ((p.tile t).engine e).phase
  case idle => exact (if_pos rfl).symm
  all_goals exact (if_neg (by decide)).symm

/-- Settles O9: the profile and angle commands pass their checks. -/
theorem profileCommandsRun : Obligations.ProfileCommandsRun := by
  unfold Obligations.ProfileCommandsRun
  rintro s p c t rfl
  refine ⟨fun program count rsv instrs hp hprog h0 h64 hok hidle => ?_, fun engine program ei rsv param q hp hh hcan hq => ?_,
    fun engine ei rsv hp he => ?_, fun engine rsv hp he => ?_, fun k ei rsv cfg x hp hk hok hx hsame => ?_,
    fun k count rsv entries hp hk hh hcount hall => ?_⟩
  · refine exec_of_effect hp rfl ?_
    dsimp only
    rw [if_neg (by omega), if_neg (by simpa [hok] using And.intro h0 h64), if_neg (ne_true_of_eq_false hidle)]
  · refine exec_of_effect hp rfl ?_
    rw [if_neg (by simp [hh]), fire_command hcan hq, BitVec.ofNat_toNat, BitVec.setWidth_eq]
  · exact exec_of_effect hp rfl (if_neg (by omega))
  · exact exec_of_effect hp rfl (if_neg (by omega))
  · refine exec_of_effect hp rfl ?_
    dsimp only
    rw [if_neg (by omega), if_neg (by simp [hok]), ← hx, if_neg (by simpa using hsame)]
  · refine exec_of_effect hp rfl ?_
    dsimp only
    rw [if_neg, if_neg]
    · rw [hall]
      simp; omega
    · rw [hh]
      simp; omega

/-- Settles O10: the stepper and fan commands pass their checks. -/
theorem motionCommandsRun : Obligations.MotionCommandsRun := by
  unfold Obligations.MotionCommandsRun
  rintro s p c t unit rfl hunit
  have hlast : ¬ unit.toNat > 3 := by omega
  refine ⟨fun ei rsv cfg hp hrange hcheck hruns => ?_, fun ei rsv target x q hp hx hconf hmin hmax hq => ?_,
    fun ei rsv x q hp hx hconf hq => ?_, fun ei dir rsv x hp hx hdir hconf hhome => ?_,
    fun ei rsv cfg hp hrange hsupply hcheck hruns => ?_, fun rsv speed q hp hspeed => ?_, fun ei rsv x hp hx hrun hgood hsus => ?_⟩
  · refine exec_of_effect hp rfl ?_
    dsimp only
    rw [if_neg hlast, if_neg (by simpa [hrange] using hcheck), if_neg (ne_true_of_eq_false hruns)]
  · refine exec_of_effect hp rfl ?_
    rw [if_neg hlast]
    delta stepperMove
    dsimp only
    rw [← hx, if_neg (by simpa using hconf), if_neg (by simp; omega), ← hq]
    simp only [beq_iff_eq]
  · refine exec_of_effect hp rfl ?_
    rw [if_neg hlast]
    delta stepperStop
    dsimp only
    rw [← hx, if_neg (by simpa using hconf), ← hq]
    cases x.state <;> rfl
  · refine exec_of_effect hp rfl ?_
    dsimp only
    rw [if_neg hlast, if_neg (by omega), ← hx, if_neg (by simp [hconf, hhome])]
  · refine exec_of_effect hp rfl ?_
    dsimp only
    rw [if_neg hlast, if_neg (by simp [hrange]), if_neg (by simp [hsupply]), if_neg (by simpa using hcheck),
      if_neg (ne_true_of_eq_false hruns)]
  · refine exec_of_effect hp rfl ?_
    dsimp only
    rw [if_neg hlast, hspeed]
  · refine exec_of_effect hp rfl ?_
    dsimp only
    rw [if_neg hlast, ← hx, if_neg (by simp [hrun, hgood, hsus])]

/-- A RING_CONFIG whose ring and descriptor are fine reaches `ringConfig` (R385). -/
theorem exec_ringConfig {s : State} {c : Ctx} {id : Word} {desc : BitVec 128} {t : Nat} {q : Pkg}
    (hp : performs (.ringConfig c id desc) s.start t = true) (hid : ringIdError s.start t id = none)
    (hshort : psramShort (s.start.tile t) = false) (hq : ringConfig c t (bits id 14 0) desc s.start = q) :
    exec (.ringConfig c id desc) s = .next (s.after q) := by
  refine exec_of_effect hp rfl ?_
  rw [hid, if_neg (ne_true_of_eq_false hshort)]
  exact hq

/-- A ring whose size changes, or that is new, takes a block (R385, R386). -/
theorem ringConfig_enables {c : Ctx} {t i : Nat} {d : BitVec 128} {p : Pkg} (hok : ringDescOk p t i d = true) (hon : bits d 7 0 ≠ 0)
    (hr : (p.tile t).ring? i = none) {b n : Nat} (hb : allocBlock t (p.tile t) i (bits d 23 16) = some b)
    (hn : n = (p.tile t).rings.seqs.getD i 1) :
    ringConfig c t i d p = finish c 0x70 stOk t
      (setRing t i { desc := d, block := b, nextSeq := n, resetSeq := if n == 1 then 0 else n } p) := by
  rw [ringConfig]
  dsimp only
  rw [if_neg (by simp [hok]), if_neg (by simpa using hon), hr]
  dsimp only
  rw [hb, hn]

/-- A ring of the same size keeps its block (R385, R386). -/
theorem ringConfig_sameSize {c : Ctx} {t i : Nat} {d : BitVec 128} {p : Pkg} (hok : ringDescOk p t i d = true) (hon : bits d 7 0 ≠ 0)
    {r : Ring} (hr : (p.tile t).ring? i = some r) (hsize : bits r.desc 23 16 = bits d 23 16) :
    ringConfig c t i d p = finish c 0x70 stOk t (setRing t i
      (if bit r.desc 8 = bit d 8 then { r with desc := d, anchor := true, lastRec := none, trigAt := none }
        else { r.discard with desc := d, trigAt := none }) (onTile t (dropWaits i) p)) := by
  rw [ringConfig]
  dsimp only
  rw [if_neg (by simp [hok]), if_neg (by simpa using hon), hr]
  dsimp only
  by_cases h8 : bit r.desc 8 = bit d 8
  · rw [if_pos (by simp [hsize, h8]), if_pos h8]
  · rw [if_neg (by simp [h8]), if_pos (by simp [hsize]), if_neg h8]

theorem ringConfig_newSize {c : Ctx} {t i : Nat} {d : BitVec 128} {p : Pkg} (hok : ringDescOk p t i d = true) (hon : bits d 7 0 ≠ 0)
    {r : Ring} (hr : (p.tile t).ring? i = some r) (hsize : bits r.desc 23 16 ≠ bits d 23 16) {b : Nat}
    (hb : allocBlock t (p.tile t) i (bits d 23 16) = some b) :
    ringConfig c t i d p = finish c 0x70 stOk t
      (setRing t i { r.discard with desc := d, block := b, trigAt := none } (onTile t (dropWaits i) p)) := by
  rw [ringConfig]
  dsimp only
  rw [if_neg (by simp [hok]), if_neg (by simpa using hon), hr]
  dsimp only
  rw [if_neg (by simp [hsize]), if_neg (by simp [hsize]), hb]

/-- RING_CONFIG with a mode of 0 (R385). -/
theorem ringConfig_disables {c : Ctx} {t i : Nat} {d : BitVec 128} {p : Pkg} (hok : ringDescOk p t i d = true) (hoff : bits d 7 0 = 0) :
    ringConfig c t i d p = finish c 0x70 stOk t (((p.tile t).ring? i).elim p (fun r =>
      onTile t (fun x => dropWaits i { x with rings := { x.rings with
        rings := x.rings.rings.erase i, seqs := x.rings.seqs.set i r.nextSeq } }) p)) := by
  rw [ringConfig]
  dsimp only
  rw [if_neg (by simp [hok]), if_pos (by simp [hoff])]
  cases (p.tile t).ring? i <;> rfl

/-- A RING_READ of a ring that is there (R394 to R399). -/
theorem exec_ringRead {s : State} {c : Ctx} {id cursor limit : Word} {t i upTo n next : Nat} {r r1 : Ring} {data : List Byte} {q : Pkg}
    (hp : performs (.ringRead c id cursor limit) s.start t = true) (hid : ringIdError s.start t id = none) (hi : i = bits id 14 0)
    (hr : (s.start.tile t).ring? i = some r) (h1 : 1 ≤ limit.toNat) (hmax : limit.toNat ≤ 8192)
    (hr1 : r1 = if cursor == 0xFFFFFFFF then r else freeOlder r cursor.toNat)
    (hupTo : upTo = (latchedSeq (s.start.tile t) (.command (.ringRead c id cursor limit))).getD r.nextSeq)
    (hdata : ringDelivery r1 upTo cursor.toNat limit.toNat = (data, n, next)) (hq : q = setRing t i r1 s.start) :
    exec (.ringRead c id cursor limit) s
      = .next (s.after (bulkReply c 0x71 t (.ringRead c id cursor limit) data n next q)) := by
  refine exec_of_effect hp rfl ?_
  dsimp only
  rw [hid, ← hi, hr]
  dsimp only
  rw [if_neg (by simp; omega), ← hr1, ← hupTo, hdata, hq]

theorem bulkReply_far {c : Ctx} {op : Byte} {t n next far : Nat} {i : Instr} {data : List Byte} {p : Pkg} (hdata : data ≠ [])
    (hsrc : c.src = .far far) :
    bulkReply c op t i data n next p = reply c op t (bulkRecord 0 data.length n next ++ data) p := by
  rw [bulkReply, if_neg (by simpa using hdata), hsrc]

theorem bulkReply_free {c : Ctx} {op : Byte} {t n next b : Nat} {i : Instr} {data : List Byte} {p : Pkg} (hdata : data ≠ [])
    (hsrc : ∀ far, c.src ≠ .far far) (hb : freeBulk p = some b) :
    bulkReply c op t i data n next p = reply c op t (bulkRecord b data.length n next) (fillBulk b data p) := by
  rw [bulkReply, if_neg (by simpa using hdata), hb]
  cases hs : c.src
  case far f => exact absurd hs (hsrc f)
  all_goals rfl

/-- Settles O11: each ring command finds its ring, and each event command its tile's events. -/
theorem ringCommandsRun : Obligations.RingCommandsRun := by
  unfold Obligations.RingCommandsRun
  rintro s p c t rfl
  refine ⟨fun id desc i hp hid hi hok hshort hoff hr => ?_, fun id desc i r hp hid hi hok hshort hoff hr => ?_,
    fun id desc i r q hp hid hi hok hshort hon hr hsize hq => ?_, fun id desc i r b hp hid hi hok hshort hon hr hsize hb => ?_,
    fun id desc i b n hp hid hi hok hshort hon hr hb hn => ?_,
    fun id cursor limit i r r1 upTo data n next q hp hid hi hr h1 hmax hr1 hupTo hdata hq => ?_,
    fun id cursor limit i e hp hid hi hr hlatch => ?_, fun id i r hp hid hi hr => ?_, fun word rsv mask hp hword => ?_, fun hp => ?_⟩
  · subst hi
    exact exec_ringConfig hp hid hshort (by rw [ringConfig_disables hok hoff, hr, Option.elim_none])
  · subst hi
    exact exec_ringConfig hp hid hshort (by rw [ringConfig_disables hok hoff, hr, Option.elim_some])
  · subst hi hq
    exact exec_ringConfig hp hid hshort (ringConfig_sameSize hok hon hr hsize)
  · subst hi
    exact exec_ringConfig hp hid hshort (ringConfig_newSize hok hon hr hsize hb)
  · subst hi
    exact exec_ringConfig hp hid hshort (ringConfig_enables hok hon hr hb hn)
  · rw [exec_ringRead hp hid hi hr h1 hmax hr1 hupTo hdata hq]
    refine ⟨fun hempty => ?_, fun far hne hsrc => ?_, fun b hne hsrc hb => ?_⟩
    · rw [hempty]
      rfl
    · rw [bulkReply_far hne hsrc]
    · rw [bulkReply_free hne hsrc hb]
  · refine exec_of_effect hp rfl ?_
    dsimp only
    rw [hid, ← hi, hr, hlatch]
    rfl
  · refine exec_of_effect hp rfl ?_
    dsimp only
    rw [hid, ← hi, hr]
  · exact exec_of_effect hp rfl (if_neg (by omega))
  · exact exec_of_effect hp rfl rfl

end Sys2Proof.Machine
end

section
/-!
PROOFS. Commands of the shared units: the buses and the tether.
-/

namespace Sys2Proof.Machine

theorem rsPortOf_le {n : Nat} {b : RsPort} (h : rsPortOf n = some b) : n ≤ 1 := by
  unfold rsPortOf at h
  split at h
  · omega
  · omega
  · cases h

/-- Port 2 is the T1S port (R426). -/
theorem rsPortOf_two : rsPortOf (2 : Byte).toNat = none := rfl

theorem queueSend_room {c : Ctx} {t n : Nat} {push : Pkg → Pkg} {p : Pkg} (hroom : n < 16) :
    queueSend c t n push p = push (accept c 0x81 t p) := by
  rw [queueSend, if_neg (by omega)]

/-- The frames that a BUS_SEND may carry in MS/TP (R435). -/
theorem mstpFrame_ok {f : List Byte} (h2 : 2 ≤ f.length) (hmax : f.length ≤ 503) (htyp : f.headD 0 = ftExpecting ∨ f.headD 0 = ftNotExpecting) :
    ¬ (f.length < 2 || 503 < f.length || (f.headD 0 != ftExpecting && f.headD 0 != ftNotExpecting)) = true := by
  rcases htyp with h | h <;> rw [h] <;> simp <;> omega

/-- A frame that answers no request of another node joins the queue (R435). -/
theorem sendMstp_queues {c : Ctx} {t : Nat} {b : RsPort} {f : List Byte} {p : Pkg} (h2 : 2 ≤ f.length) (hmax : f.length ≤ 503)
    (htyp : f.headD 0 = ftExpecting ∨ f.headD 0 = ftNotExpecting)
    (hno : ∀ src limit, (rsOf p b).reply = some (src, limit) →
      ¬ (f.headD 0 = ftNotExpecting ∧ f.getD 1 0 = src ∧ p.now ≤ limit ∧ (rsOf p b).sending = none ∧ (rsOf p b).running = true))
    (hroom : (rsOf p b).queue.length < 16) :
    sendMstp c t b f p = onRs b (fun r => { r with queue := r.queue ++ [(c, f)] }) (accept c 0x81 t p) := by
  rw [sendMstp]
  rw [if_neg (mstpFrame_ok h2 hmax htyp)]
  cases hr : (rsOf p b).reply with
  | none => exact queueSend_room hroom
  | some w =>
    obtain ⟨src, limit⟩ := w
    dsimp only
    rw [if_neg]
    · exact queueSend_room hroom
    · have h := hno src limit hr
      simpa [and_assoc] using h

/-- The reply that another node waits for goes out at once (R435). -/
theorem sendMstp_replies {c : Ctx} {t : Nat} {b : RsPort} {f : List Byte} {p : Pkg} {src : Byte} {limit : Nat} (h2 : 2 ≤ f.length)
    (hmax : f.length ≤ 503) (hr : (rsOf p b).reply = some (src, limit)) (htyp : f.headD 0 = ftNotExpecting) (hdst : f.getD 1 0 = src)
    (hnow : p.now ≤ limit) (hidle : (rsOf p b).sending = none) (hrun : (rsOf p b).running = true) :
    sendMstp c t b f p = onRs b (fun r => hostFrame (c, f) { r with reply := none }) (accept c 0x81 t p) := by
  rw [sendMstp]
  rw [if_neg (mstpFrame_ok h2 hmax (.inr htyp)), hr]
  dsimp only
  rw [htyp, hdst, if_pos (by simp [hnow, hidle, hrun])]

/-- A BUS_MAP_LOAD whose table is valid and that its tiles keep (R426, R444). -/
theorem busMapLoad_loads {c : Ctx} {t port list first idx : Nat} {entries old new : List Byte} {p q q1 : Pkg} (hport : port ≤ 1)
    (hidx : idx = 2 * list + port) (hold : old = (p.tile p.lead).table 3 idx)
    (hnew : new = editTable old (if list == 0 then 0x20 else 0x21) (if list == 0 then 8 else 32) first entries)
    (hfirst : first ≤ leAt old 2 2) (hfull : busTableFull list new = false) (hvalid : tableValid p p.lead 3 idx new = true)
    (hclaim : claimConflict p p.lead 3 idx new = false) (hflash : flashCheck (onlinePair p) p = (none, q))
    (hq1 : q1 = forAll [0, 1] (fun u => onTile u (setActive 3 idx new)) q) :
    busMapLoad c t port list first entries p = finish c 0x82 stOk t
      (enforceClaims q.lead 3 idx new (if list = 1 then noteSources (if port = 0 then .bus0 else .bus1) q1 else q1)) := by
  rw [busMapLoad]
  rw [← hidx, ← hold, ← hnew, if_neg (by simp [hfull, hvalid, hclaim]; omega), withFlash_of_pass hflash]
  dsimp only
  rw [← hq1]
  have hcases : port = 0 ∨ port = 1 := by omega
  rcases hcases with rfl | rfl <;> simp only [rsPortOf, beq_iff_eq] <;> rfl

/-- Settles O12: the bus commands find their port, and its kind. -/
theorem busCommandsRun : Obligations.BusCommandsRun := by
  unfold Obligations.BusCommandsRun
  rintro s p c t rfl
  refine ⟨fun port rsv cfg b hp hport hok => ?_, fun rsv cfg hp hok => ?_,
    fun port rsv len frame b f hp hport h1 hmax hmode hf h2 hlong htyp hno hroom => ?_,
    fun port rsv len frame b f src limit hp hport h1 hmax hmode hf h2 hlong hr htyp hdst hnow hidle hrun => ?_,
    fun rsv len frame f hp hmax hon hf h14 hlong hroom => ?_,
    fun port list first entries old new idx q q1 hp hport hlist hidx hold hnew hfirst hfull hvalid hclaim hflash hq1 => ?_,
    fun port rsv b hp hport => ?_, fun rsv hp => ?_⟩
  · have hle := rsPortOf_le hport
    refine exec_of_effect hp rfl ?_
    dsimp only
    rw [if_neg (by omega), hport]
    dsimp only
    rw [if_neg (by simp [hok])]
  · refine exec_of_effect hp rfl ?_
    dsimp only
    rw [if_neg (by decide), rsPortOf_two]
    dsimp only
    rw [if_neg (by simp [hok])]
    simp only [beq_iff_eq]
    split <;> rfl
  · have hle := rsPortOf_le hport
    subst hf
    refine exec_of_effect hp rfl ?_
    rw [if_neg (by omega), if_neg (by simp; omega), hport]
    dsimp only
    rw [if_neg (by simp [hmode]), sendMstp_queues h2 hlong htyp hno hroom]
  · have hle := rsPortOf_le hport
    subst hf
    refine exec_of_effect hp rfl ?_
    rw [if_neg (by omega), if_neg (by simp; omega), hport]
    dsimp only
    rw [if_neg (by simp [hmode]), sendMstp_replies h2 hlong hr htyp hdst hnow hidle hrun]
  · have hlen : 1 ≤ len.toNat := by
      rw [hf, List.length_take] at h14
      omega
    subst hf
    refine exec_of_effect hp rfl ?_
    rw [if_neg (by decide), if_neg (by simp; omega), rsPortOf_two]
    dsimp only
    rw [if_neg (by simp [hon]), sendT1s, if_neg (by simp only [Bool.or_eq_true, decide_eq_true_eq]; omega), queueSend_room hroom]
  · refine exec_of_effect hp rfl ?_
    rw [if_neg (by omega), if_neg (by omega), busMapLoad_loads hport hidx hold hnew hfirst hfull hvalid hclaim hflash hq1]
  · have hle := rsPortOf_le hport
    refine exec_of_effect hp rfl ?_
    rw [if_neg (by omega), hport]
  · exact exec_of_effect hp rfl rfl

/-- Settles O13: the tether commands pass their checks. -/
theorem tetherCommandsRun : Obligations.TetherCommandsRun := by
  unfold Obligations.TetherCommandsRun
  rintro s p c t rfl
  refine ⟨fun cfg q hp hok hfar hhas hflash => ?_, fun rsv hp hhas hfar hready hkey hpair => ?_,
    fun rsv q hp hhas hfar hready hflash => ?_, fun hp => ?_⟩
  · refine exec_of_effect hp rfl ?_
    rw [if_neg (by simp [hok]), if_neg (by simp [hfar, hhas]), withFlash_of_pass hflash]
  · refine exec_of_effect hp rfl ?_
    rw [if_neg (by decide), if_neg (by simp [hfar, hhas]), if_neg (by simp [hready]), if_pos (by decide), pairStart, if_neg (by simp [hkey, hpair])]
  · refine exec_of_effect hp rfl ?_
    rw [if_neg (by decide), if_neg (by simpa [hhas] using hfar), if_neg (by simp [hready]), if_neg (by decide), withFlash_of_pass hflash]
  · exact exec_of_effect hp rfl rfl

end Sys2Proof.Machine
end

section
/-!
PROOFS. Commands of the panel, the counters, the policies and the update.
-/

namespace Sys2Proof.Machine

/-- Settles O14: the panel and counter commands pass their checks. -/
theorem panelCounterCommandsRun : Obligations.PanelCounterCommandsRun := by
  unfold Obligations.PanelCounterCommandsRun
  rintro s p c t rfl
  refine ⟨fun wave rsv states hp hwave htable hon hrails hcrack => ?_, fun cfg hp hok => ?_, fun cfg hp hok => ?_,
    fun n mode src sel window hp hn hok => ?_, fun n rsv hp hn => ?_, fun k src rsv hp hk hsrc => ?_,
    fun first count l data next hp hcount hmax hl hdata hnext => ?_⟩
  · refine exec_of_effect hp rfl ?_
    rw [panelUpdate, if_neg (by simp [hon, hrails, hcrack]), if_neg (by simpa [htable] using hwave), BitVec.ofNat_toNat,
      BitVec.setWidth_eq]
  · exact exec_of_effect hp rfl (if_pos hok)
  · exact exec_of_effect hp rfl (if_pos hok)
  · refine exec_of_effect hp rfl ?_
    rw [if_neg (by omega), if_neg (by simp [hok])]
  · refine exec_of_effect hp rfl ?_
    dsimp only
    rw [if_neg (by omega)]
    by_cases h8 : n.toNat = 8
    · rw [if_pos (by simpa [BitVec.toNat_eq] using h8), if_pos h8]
    · rw [if_neg (by simpa [BitVec.toNat_eq] using h8), if_neg h8]
  · refine exec_of_effect hp rfl ?_
    rw [if_neg]
    rcases hsrc with h | h | h <;> rw [h] <;> simp <;> omega
  · have hrun : exec (.loupeRead c first count) s
        = .next (s.after (bulkReply c 0xA3 t (.loupeRead c first count) data l.length next s.start)) := by
      refine exec_of_effect hp rfl ?_
      dsimp only
      rw [if_neg (by simpa using And.intro hcount hmax), ← hl, ← hdata, hnext]
      cases l.getLast? <;> rfl
    rw [hrun]
    refine ⟨fun hempty => ?_, fun far hne hsrc => ?_, fun b hne hsrc hb => ?_⟩
    · rw [hempty]
      rfl
    · rw [bulkReply_far hne hsrc]
    · rw [bulkReply_free hne hsrc hb]

/-- Settles O15: the policy, lock and entropy commands pass their checks. -/
theorem policyCommandsRun : Obligations.PolicyCommandsRun := by
  unfold Obligations.PolicyCommandsRun
  rintro s p c t rfl
  refine ⟨fun port rsv epoch rules q hp hport hrules hepoch hlock hflash => ?_, fun port rsv hp hport => ?_,
    fun set rsv hp hset hsame => ?_, fun set rsv q hp hset hdiff hflash => ?_, fun bytes rsv hp h4 hmax hword hready => ?_⟩
  · refine exec_of_effect hp rfl ?_
    rw [if_neg (by omega), if_neg (by simp [hrules, hepoch]), if_neg (ne_true_of_eq_false hlock), withFlash_of_pass hflash]
  · exact exec_of_effect hp rfl (if_neg (by omega))
  · refine exec_of_effect hp rfl ?_
    rw [if_neg (by omega), if_pos (by simp [hsame])]
  · refine exec_of_effect hp rfl ?_
    rw [if_neg (by omega), if_neg (by simpa using hdiff), withFlash_of_pass hflash]
  · refine exec_of_effect hp rfl ?_
    dsimp only
    rw [if_neg (by simp; omega), if_neg (by simp [hready])]

theorem guarded_of_allowed {p : Pkg} (h : updateReason p = 0) (c : Ctx) (op : Byte) (t : Nat) (f : Pkg → Pkg) :
    guarded c op t f p = f p := by
  rw [guarded]
  rw [if_pos (by simp [h])]

/-- An UPDATE_END waits for the writes of its image (R459). -/
theorem endDownload_waits {p : Pkg} {c : Ctx} {crc : Word} (h : p.sh.update.ending = some (c, crc)) (hw : p.sh.update.writing ≠ []) :
    endDownload p = p := by
  rw [endDownload, h]
  dsimp only
  rw [if_pos (by simp [hw])]

/-- With its image written and its CRC right, the update is staged (R459). -/
theorem endDownload_stages {p p1 q : Pkg} {c : Ctx} {crc : Word} (h : p.sh.update.ending = some (c, crc)) (hw : p.sh.update.writing = [])
    (hp1 : p1 = onUpdate (fun u => { u with ending := none }) p) (hden : deniedNow p p.lead 0xC2 c = false)
    (hflash : flashCheck ((List.range p.n).filter (online p)) p1 = (none, q)) (hcrc : crc32c q.sh.update.image = crc) :
    endDownload p = finish c 0xC2 stOk p.lead (raiseAll 87 (onUpdate (fun u => { u with state := .staged })
      (onTiles (fun _ tl => if tl.images.negState == .downloading then
        { tl with images := { tl.images with neg := imageOf q.sh.update.image, negState := .staged } } else tl) q))) := by
  rw [endDownload, h]
  dsimp only
  rw [if_neg (by simp [hw]), if_neg (ne_true_of_eq_false hden), ← hp1, withFlash_of_pass hflash]
  exact if_neg (by simp [hcrc])

/-- An UPDATE_END that arrives and ends leaves the update as it was before it. -/
theorem onUpdate_ending_none {p : Pkg} (h : p.sh.update.ending = none) (w : Option (Ctx × Word)) :
    onUpdate (fun u => { u with ending := none }) (onUpdate (fun u => { u with ending := w }) p) = p := by
  change { p with sh := { p.sh with update := { p.sh.update with ending := none } } } = p
  rw [← h]

/-- An UPDATE_END of a whole download starts its end (R459). -/
theorem updateEnd_ends {c : Ctx} {t : Nat} {crc : Word} {p : Pkg} (hst : p.sh.update.state = .downloading)
    (hlen : p.sh.update.length.toNat ≤ p.sh.update.received) (hend : p.sh.update.ending = none) :
    updateEnd c t crc p = endDownload (onUpdate (fun u => { u with ending := some (c, crc) }) p) := by
  rw [updateEnd, if_neg (by simp [hst, hend]; omega)]

/-- Without writes on their way, that end comes at once (R459). -/
theorem updateEnd_stages {p q : Pkg} {c : Ctx} {crc : Word} (hend : p.sh.update.ending = none) (hw : p.sh.update.writing = [])
    (hden : deniedNow p p.lead 0xC2 c = false) (hflash : flashCheck ((List.range p.n).filter (online p)) p = (none, q))
    (hcrc : crc32c q.sh.update.image = crc) :
    endDownload (onUpdate (fun u => { u with ending := some (c, crc) }) p)
      = finish c 0xC2 stOk p.lead (raiseAll 87 (onUpdate (fun u => { u with state := .staged })
        (onTiles (fun _ tl => if tl.images.negState == .downloading then
          { tl with images := { tl.images with neg := imageOf q.sh.update.image, negState := .staged } } else tl) q))) := by
  refine endDownload_stages (p := onUpdate (fun u => { u with ending := some (c, crc) }) p) rfl hw rfl hden ?_ hcrc
  rw [onUpdate_ending_none hend]
  exact hflash

/-- Settles O16: each update command finds the update in the state that it needs. -/
theorem updateCommandsRun : Obligations.UpdateCommandsRun := by
  unfold Obligations.UpdateCommandsRun
  rintro s p c t rfl
  refine ⟨fun len hdr q hp hr hbusy hform hlen hmap hflash her => ?_, fun off data q hp hr hst hoff hlen hflash => ?_,
    fun crc hp hr hst hlen hend hw => ?_, fun crc q hp hr hst hlen hend hw hden hflash hcrc => ?_,
    fun conf rsv window hp hr hconf h60 hmax hbusy hall => ?_, fun hp hst => ?_, fun hp => ?_⟩
  · refine exec_of_effect hp rfl ?_
    rw [guarded_of_allowed hr, updateBegin, if_neg (ne_true_of_eq_false hbusy), if_neg (by simp [hform, hlen, hmap]),
      withFlash_of_pass hflash]
    dsimp only
    rw [her]
  · refine exec_of_effect hp rfl ?_
    rw [guarded_of_allowed hr, updateData, if_neg (by simp [hst]), if_neg (by simp; omega), withFlash_of_pass hflash]
  · refine exec_of_effect hp rfl ?_
    rw [guarded_of_allowed hr, updateEnd_ends hst hlen hend]
    exact endDownload_waits rfl hw
  · refine exec_of_effect hp rfl ?_
    rw [guarded_of_allowed hr, updateEnd_ends hst hlen hend]
    exact updateEnd_stages hend hw hden hflash hcrc
  · refine exec_of_effect hp rfl ?_
    rw [guarded_of_allowed hr, activate, if_neg (by simp; omega), if_neg (by simp only [hbusy, hall]; decide)]
  · exact exec_of_effect hp rfl (if_neg (by simp [hst]))
  · exact exec_of_effect hp rfl rfl

end Sys2Proof.Machine
end

-- Tier 1: the host port and the events.
section
/-!
PROOFS. Transactions of the host, and the events of the host port and of the lead.
-/

namespace Sys2Proof.Machine

/-- An event on the whole machine answers what its effect leaves. -/
theorem exec_of_machine {i : Instr} {f : State → State} {s r : State} (he : exec i s = liftAll f s) (hf : f s.begun = r) :
    exec i s = .next (drain r) := by
  rw [he, machine_runs, hf]

/-- An event on the package answers what its effect leaves. -/
theorem exec_of_package {i : Instr} {f : Pkg → Pkg} {s : State} {q : Pkg} (he : exec i s = lift f s) (hf : f s.start = q) :
    exec i s = .next (s.after q) := by
  rw [he, package_runs, hf]

/-- An event on a tile of the variant answers what its effect leaves. -/
theorem exec_of_tile {i : Instr} {tile : TileId} {f : Nat → Pkg → Pkg} {s : State} {t : Nat} {q : Pkg} (ht : t = tile.toNat)
    (hn : t < s.pkg.n) (he : exec i s = liftTile tile f s) (hf : f t s.start = q) : exec i s = .next (s.after q) := by
  subst ht
  rw [he, tile_runs hn, hf]

theorem exec_of_registerWrite {i : Instr} {f : State → State} {s w r : State} (he : exec i s = registerWrite f s)
    (ha : hostAnswers s.begun = true) (hw : w = hostCrosses 4 0 s.begun) (hf : f w = r) : exec i s = .next (drain r) := by
  rw [he, registerWrite_answered ha, ← hw, hf]

theorem writeSubProd_taken {v : Word} {w : State} (h : subProdOk w.hp.rings v = true) :
    writeSubProd v w = onHpRings (fun r => { r with
      subProd := v
      unmirrored := (r.subProd, w.pkg.now) :: r.unmirrored.filter (fun q => w.pkg.now < q.2 + mirrorTicks) }) w :=
  if_neg (by simp [h])

theorem writeCompCons_taken {v : Word} {w : State} (h : compConsOk w.hp.rings v = true) :
    writeCompCons v w = notePoll (postHeld (onHpRings (fun r => { r with compCons := v }) w)) := if_neg (by simp [h])

/-- A write that names a register (R82, R89). -/
theorem hostWrite_register {a : Nat} {data : List Byte} {w : State} {f : State → State} (ha : hostAnswers w = true)
    (hlen : data.length = 4) (hreg : writeRegister a (w32 (leNat data)) = some f) : hostWrite a data w = f w := by
  rw [hostWrite, if_neg (by simp [ha]), if_pos (by simp [hlen]), hreg]

/-- A read where the port answers (R83). -/
theorem hostRead_answered {a n : Nat} {w : State} (ha : hostAnswers w = true) :
    hostRead a n w = (if a == 0 && n != 0 then notePoll else id) (onHp (fun h => { h with readData := hpRead w n a }) w) := by
  rw [hostRead, if_neg (by simp [ha])]
  dsimp only
  split <;> rfl

/-- The transaction `f` with a byte that breaks off, as HP_ERRORS sees it. -/
def brokenByte (f : State → State) (received sent : Nat) (w : State) : State :=
  if hostAnswers w then countErrors 1 (f (hostCrosses received sent w)) else f (hostCrosses received sent w)

/-- Settles O17: each transaction crosses the port, and its write has its effect. -/
theorem hostTransactionsRun : Obligations.HostTransactionsRun := by
  unfold Obligations.HostTransactionsRun
  rintro s b w rfl hw
  have hhp : w.hp = s.begun.hp := by rw [hw, hostCrosses_hp]
  have hnow : w.pkg.now = s.begun.pkg.now := by rw [hw, hostCrosses_now]
  refine ⟨fun len x ha hlen hx => ?_, fun len ha => ?_, fun v ha hok => ?_, fun v ha hok => ?_, fun v ha h4 hmax => ?_, fun ha => ?_,
    fun ha => ?_, fun v ha hmax => ?_, fun addr data f ha hlen hreg => ?_, fun addr data ha hreg hign => ?_,
    fun cmd ha hcmd => ?_, fun addr data ha => ?_⟩
  · refine exec_of_machine (f := fun s => hostRead 0 len (hostCrosses 0 len s)) rfl ?_
    rw [← hx, hostRead_answered (by rw [hx, hostAnswers_hostCrosses, ha]), if_pos (by simp [hlen])]
  · refine exec_of_machine (f := fun s => hostRead 0 len (hostCrosses 0 len s)) rfl ?_
    rw [hostCrosses, if_neg (by simp [ha]), hostRead, if_pos (by simp [ha])]
  · refine exec_of_registerWrite (f := writeSubProd v) rfl ha hw ((writeSubProd_taken (by rw [hhp, hok])).trans ?_)
    rw [hnow]
  · exact exec_of_registerWrite (f := writeCompCons v) rfl ha hw (writeCompCons_taken (by rw [hhp, hok]))
  · exact exec_of_registerWrite (f := writeDummy v) rfl ha hw (if_neg (by simp; omega))
  · exact exec_of_registerWrite (f := writeRingReset 0) rfl ha hw rfl
  · refine exec_of_registerWrite (f := writeRingReset 1) rfl ha hw ?_
    rw [← hhp]
    rfl
  · exact exec_of_registerWrite (f := writeBulkRelease v) rfl ha hw (if_neg (by omega))
  · refine exec_of_machine (f := fun s => hostWrite addr.toNat data (hostCrosses data.length 0 s)) rfl ?_
    rw [hlen, ← hw]
    exact hostWrite_register (by rw [hw, hostAnswers_hostCrosses, ha]) hlen hreg
  · refine exec_of_machine (f := fun s => hostWrite addr.toNat data (hostCrosses data.length 0 s)) rfl ?_
    have hhp' : (hostCrosses data.length 0 s.begun).hp = s.begun.hp := hostCrosses_hp ..
    rw [hostWrite_burst (by rw [hostAnswers_hostCrosses, ha]) hreg]
    simp only [onHp, onHpRings, HostPort.burst, hhp', hign, Bool.false_eq_true, if_false]
  · exact exec_of_machine (f := fun s => if validCommand cmd || !hostAnswers s then s else countErrors 1 s) rfl (if_neg (by simp [ha, hcmd]))
  · exact ⟨exec_of_machine (f := brokenByte (hostWrite addr.toNat data) data.length 0) rfl (if_pos ha),
      exec_of_machine (f := brokenByte (hostRead addr.toNat data.length) 0 data.length) rfl (if_pos ha)⟩

/-- A packet that passes its checks is routed as its command (R99). -/
theorem takePacket_routes {svc : Bool} {b : List Byte} {w : State} {c : Ctx} {i : Instr} (h : packetError w svc b = none)
    (hc : c = { src := portSender w.pkg svc (pkTag b), tile := BitVec.ofNat 4 (pkTile b), cls := BitVec.ofNat 2 (pkClass b)
                epoch := policyEpoch w.pkg w.pkg.lead (portSender w.pkg svc (pkTag b)), ordered := leAt b 1 1 == 1 })
    (hi : commandOf c (pkOp b) (pkPayload b) = some i) :
    takePacket svc b w = onPkg (routeCommand c (pkOp b) (pkPayload b) i) (addTag svc (pkTag b) (pkOp b) (pkTile b) c.ordered w) := by
  subst hc
  rw [takePacket, h]
  dsimp only
  rw [hi]

/-- A submission that cannot be framed halts the ring (R91). -/
theorem takeNext_halts {w : State} {hdr : List Byte} (hhdr : hdr = ringGet w.hp.rings.subMem w.hp.rings.subCons.toNat 8)
    (hframe : frames (pkLen hdr) w.hp.rings.subUsed = false) :
    takeNext w = onPkg (packetAnswer false hdr stBadLength true) (onHpRings (fun r => { r with halted := true }) w) := by
  rw [takeNext]
  rw [← hhdr, if_pos (by simp [hframe])]

/-- Settles O18: each event of the host port finds the port as it needs it. -/
theorem hostEventsRun : Obligations.HostEventsRun := by
  unfold Obligations.HostEventsRun
  rintro s b rfl
  refine ⟨fun hdr pkt c i hmay hhdr hframe hpkt herr hc hi => ?_, fun hdr hmay hhdr hframe => ?_, fun ha => ?_,
    fun ha hon habs => ?_, fun k x hx hheld => ?_⟩
  · rw [exec_packetTake hmay hhdr rfl hframe hpkt, takePacket_routes herr hc hi]
  · refine exec_of_machine (f := fun s => if mayTake s then takeNext s else s) rfl ?_
    rw [if_pos hmay, takeNext_halts hhdr hframe]
  · exact exec_of_machine (f := fun s => if hostAnswers s then refreshSpaced s else s) rfl (if_pos ha)
  · change execHostAbsent s = _
    rw [execHostAbsent, machine_runs, if_neg (by simp [ha, hon, habs])]
  · change execBulkTimeout k s = _
    rw [execBulkTimeout, machine_runs]
    dsimp only
    rw [hx]
    dsimp only
    rw [if_neg (ne_true_of_eq_false hheld)]

/-- Settles O19: each step of a handover or of a takeover finds it where it needs it. -/
theorem leadEventsRun : Obligations.LeadEventsRun := by
  unfold Obligations.LeadEventsRun
  rintro s b rfl
  refine ⟨fun h hh hno hidle hbefore => ?_, fun h q hh hno hend hq => ?_, fun h hh hquiet hon => ?_, fun h a hh ha => ?_,
    fun hmay hlost => ?_, fun q hawake hdriven hoff hq hmay => ?_⟩
  · have hidle' : ¬ (busSending s.start || h.startAt + 2 * msTicks ≤ s.start.now) = true := by
      have hidle' : busSending s.start = false := hidle
      have hbefore' : s.start.now < h.startAt + 2 * msTicks := hbefore
      simpa [hidle'] using hbefore'
    have hh' : s.start.sh.handover = some h := hh
    change execHandoverBusQuiet s = _
    rw [execHandoverBusQuiet, package_runs, hh']
    dsimp only
    rw [hno, if_neg (by decide), if_neg hidle']
    rfl
  · have hend' : (busSending s.start || h.startAt + 2 * msTicks ≤ s.start.now) = true := by
      rw [Bool.or_eq_true, decide_eq_true_iff]
      exact hend
    have hh' : s.start.sh.handover = some h := hh
    change execHandoverBusQuiet s = _
    rw [execHandoverBusQuiet, package_runs, hh']
    dsimp only
    rw [hno, if_neg (by decide), if_pos hend', hq]
    rfl
  · have hh' : s.start.sh.handover = some h := hh
    have hon' : online s.start (1 - s.start.lead % 2) = true := hon
    change execHandoverMirrorComplete s = _
    rw [execHandoverMirrorComplete, package_runs, hh']
    dsimp only
    rw [if_neg (by simpa using hquiet), if_pos hon']
    rfl
  · have hh' : s.start.sh.handover = some h := hh
    change execHandoverCsTimeout s = _
    rw [execHandoverCsTimeout, package_runs, hh']
    dsimp only
    rw [ha]
    rfl
  · change execLeadTakeover s = _
    rw [execLeadTakeover, machine_runs, if_pos (by simp [hmay, hlost])]
  · subst hq
    change execLeadBootTimeout s = _
    rw [execLeadBootTimeout, machine_runs, if_neg (by simp [hawake, hdriven, hoff])]
    dsimp only
    rw [if_pos hmay]

end Sys2Proof.Machine
end

section
/-!
PROOFS. Events of the fabric, of tiles in and out of service, and of the loop and table engines.
-/

namespace Sys2Proof.Machine

/-- A request that no bridge and no test holds arrives at the time it was sent for (R35). -/
theorem requestArrives_at {r : FabricReq} {p : Pkg} {o : Outstanding} {u : Nat}
    (hout : (p.tile r.origin).fabric.out.find? (fun o => o.req == r && o.reply.isNone) = some o) (hfirst : hasArrived p r = false)
    (hlocal : localOf p r.tile.toNat = some u) (hroute : (route p r.origin (meetingTile p r u)).isNone = false)
    (htest : testHolds p r.origin (meetingTile p r u) = false) :
    requestArrives r p = requestAt u o (advanceTo o.sentAt p) := by
  rw [requestArrives, hout]
  dsimp only
  rw [hlocal, if_neg (by simp [hfirst, htest])]
  dsimp only
  rw [hroute, if_neg Bool.false_ne_true]

/-- A reply that no test holds arrives (R37, R38). -/
theorem replyArrives_at {t id : Nat} {p : Pkg} {o : Outstanding} {rep : FabReply}
    (hout : (p.tile t).fabric.out.find? (fun o => o.req.id == id && o.reply.isSome) = some o) (hrep : o.reply = some rep)
    (htest : testHolds p ((localOf p rep.tile.toNat).getD p.lead) t = false) :
    replyArrives t id p = replyBack o rep (forAll (List.range p.n) (fun u => freeFlights u (isRequest o.req))
      (onTile t (fun tl => { tl with fabric := { tl.fabric with out := tl.fabric.out.filter (fun x => x.req != o.req) } }) p)) := by
  rw [replyArrives, hout]
  dsimp only
  rw [hrep]
  dsimp only
  rw [htest, if_neg Bool.false_ne_true]

/-- An incarnation that a tile had not learned (R45, R46). -/
theorem takesAnnouncement_new {t u : Nat} {p q : Pkg} {inc : Byte} (ht : online p t = true) (hu : online p u = true) (hne : t ≠ u)
    (hinc : inc = (p.tile u).boot.incarnation) (hnew : (p.tile t).fabric.learned.getD (ownNo p u) 0 ≠ inc)
    (hq : q = onTile t (fun tl => { tl with fabric := { tl.fabric with
      learned := tl.fabric.learned.set (ownNo p u) inc
      copies := tl.fabric.copies.mapVals (fun k r => if k / 1048576 == ownNo p u then staleForm r else r) } }) p) :
    takesAnnouncement t u p = raiseWith t 72 (ownNo p u + 256 * inc.toNat)
      (if holdsModel (p.tile u) && (p.tile t).fabric.learned.getD (ownNo p u) 0 != 0 then retractPlan q else q) := by
  rw [takesAnnouncement]
  dsimp only
  rw [← hinc, ← hq, if_neg (by simpa [ht, hu, hne] using hnew)]

/-- Settles O20: each event of the fabric and of a tile's service finds its tile as it needs it. -/
theorem fabricEventsRun : Obligations.FabricEventsRun := by
  unfold Obligations.FabricEventsRun
  rintro s p tile t rfl rfl hn
  refine ⟨fun r o u ha hout hfirst hlocal hroute htest => ?_, fun id o rep ha hout hrep htest => ?_, fun id w hw => ?_,
    fun tx n ha hbr hup => ?_, fun hmark => ?_, fun u inc q hu hton huon hne hinc hnew hq => ?_, fun code hst => ?_,
    fun code hst ha => ?_, fun ha hst => ?_, fun ok ha hst => ?_⟩
  · change execFabricRequest r s = _
    rw [execFabricRequest, package_runs, if_pos ha, requestArrives_at hout hfirst hlocal hroute htest]
  · change execFabricReply tile id s = _
    rw [execFabricReply, tile_runs hn, if_pos ha, replyArrives_at hout hrep htest]
  · change execAdmissionTimeout tile id s = _
    rw [execAdmissionTimeout, tile_runs hn, admissionPasses, hw]
  · change execBridgeParityError tile tx n s = _
    rw [execBridgeParityError, tile_runs hn, if_pos ha, parityError, if_neg (by simp only [hbr, hup]; decide)]
  · change execOfflineMark tile s = _
    rw [execOfflineMark, tile_runs hn, makeMark, if_pos hmark]
  · change execIncarnationAnnounce tile u s = _
    rw [execIncarnationAnnounce, tile_runs hn, if_pos hu, takesAnnouncement_new hton huon hne hinc hnew hq]
  · change execTileFault tile code s = _
    rw [execTileFault, tile_runs hn]
    dsimp only
    rw [hst]
  · change execTileFault tile code s = _
    rw [execTileFault, tile_runs hn]
    dsimp only
    rw [hst]
    dsimp only
    rw [if_pos ha]
  · change execTileRestart tile s = _
    rw [execTileRestart, tile_runs hn, if_pos (by simp only [ha, hst]; decide)]
  · change execBootComplete tile ok s = _
    rw [execBootComplete, if_pos hn, machine_runs, if_pos]
    · rfl
    · have ha' : awake s.begun.pkg = true := ha
      have hst' : (s.begun.pkg.tile tile.toNat).boot.state = .restarting := hst
      simp only [ha', hst']
      decide

/-- Settles O21: each event of the engines and the clocks finds its unit as it needs it. -/
theorem loopEventsRun : Obligations.LoopEventsRun := by
  unfold Obligations.LoopEventsRun
  rintro s p tile t rfl rfl hn
  refine ⟨fun group at_ q hdue hon hq hen hnew => ?_, fun group hwait hon => ?_, fun slot hready hlate => ?_, fun slot hlate => ?_,
    fun machine hlate => ?_, fun machine hready hlate => ?_, fun q hup hq => ?_, fun hset => ?_,
    fun vio vhold vhv last q hup hlast hq => ?_, fun hon hsecs => ?_, fun hon h0 hsub => ?_, fun hpower => ?_⟩
  · change execRateGroupBoundary tile group s = _
    rw [execRateGroupBoundary, tile_runs hn]
    dsimp only
    rw [hdue]
    dsimp only
    rw [← hq, if_neg (by simp [hon]), if_pos (by simp [hen, hnew])]
  · change execRemoteReadTimeout tile group s = _
    rw [execRemoteReadTimeout, tile_runs hn]
    dsimp only
    rw [if_neg (by simp [hon, hwait])]
  · change execSlotEvaluation tile slot s = _
    rw [execSlotEvaluation, tile_runs hn]
    dsimp only
    rw [if_neg (ne_true_of_eq_false hlate), if_pos hready]
  · change execSlotEvaluation tile slot s = _
    rw [execSlotEvaluation, tile_runs hn]
    dsimp only
    rw [if_pos hlate]
  · change execMachineEvaluation tile machine s = _
    rw [execMachineEvaluation, tile_runs hn]
    dsimp only
    rw [if_pos hlate]
  · change execMachineEvaluation tile machine s = _
    rw [execMachineEvaluation, tile_runs hn]
    dsimp only
    rw [if_neg (ne_true_of_eq_false hlate), if_pos hready]
  · change execGovernorWindow tile s = _
    rw [execGovernorWindow, tile_runs hn, if_neg (ne_true_of_eq_false hup)]
    dsimp only
    rw [← hq]
  · change execVcoreSettled tile s = _
    rw [execVcoreSettled, tile_runs hn, if_neg (by simp [hset])]
  · change execTmrTick tile vio vhold vhv s = _
    rw [execTmrTick, tile_runs hn, if_neg (ne_true_of_eq_false hup)]
    dsimp only
    rw [← hlast, ← hq]
  · change execCalendarMinute tile s = _
    rw [execCalendarMinute, tile_runs hn]
    dsimp only
    have hoff : ¬(s.start.sh.rtc.secs.toNat % 60 == 0 && s.start.sh.rtc.sub == 0) = true := by
      rw [Bool.and_eq_true, beq_iff_eq, beq_iff_eq]
      exact fun ⟨h, k⟩ => hsecs.elim (· h) (· k)
    rw [if_pos hon, if_neg hoff]
  · change execCalendarMinute tile s = _
    rw [execCalendarMinute, tile_runs hn]
    dsimp only
    rw [if_pos hon, if_pos (by simp [h0, hsub])]
  · change execFlashWriteComplete tile s = _
    rw [execFlashWriteComplete, tile_runs hn, if_neg]
    · cases nextWrite (s.start.tile tile.toNat) <;> rfl
    · rcases hpower with h | h <;> simp [h]

end Sys2Proof.Machine
end

section
/-!
PROOFS. Events of the channels, the converters, the profile engines and the angle trackers.
-/

namespace Sys2Proof.Machine

/-- Settles O22: each event of a channel finds it in the state that it needs. -/
theorem channelEventsRun : Obligations.ChannelEventsRun := by
  unfold Obligations.ChannelEventsRun
  rintro s p tile t ch c x rfl rfl hn rfl hx hreset
  refine ⟨fun uv => ?_, fun hmode hsense => ?_, ?_, fun q hiso hq => ?_, ?_, fun hlow => ?_, ?_, fun hon => ?_, fun group amps q hq => ?_,
    fun q htrip hlatch hmode hretry hq hcool => ?_, fun hatt hon => ?_, fun uA hon hpad hcmd => ?_, fun hmode hiso hvhv => ?_,
    fun hhold => ?_, fun meas next q hnext hq => ?_⟩
  · change execComparatorEdge tile ch uv s = _
    rw [execComparatorEdge, tile_runs hn, if_neg (ne_true_of_eq_false hreset), pinVoltage]
    simp only [beq_iff_eq]
  · change execInputFilterExpiry tile ch s = _
    rw [execInputFilterExpiry, tile_runs hn]
    dsimp only
    rw [← hx, if_neg (by simp [hreset, hmode])]
  · change execIsolationOpen tile ch s = _
    rw [execIsolationOpen, tile_runs hn]
    dsimp only
    rw [if_neg (ne_true_of_eq_false hreset)]
  · change execIsolationClose tile ch s = _
    rw [execIsolationClose, tile_runs hn]
    dsimp only
    rw [← hx, ← hq, if_neg (by simp [hreset, hiso])]
  · change execVhvThreshold tile true s = _
    rw [execVhvThreshold, tile_runs hn, if_neg (by simp)]
    dsimp only
    rw [if_pos (by simp [hreset])]
  · change execVhvThreshold tile false s = _
    rw [execVhvThreshold, tile_runs hn, if_neg (by simp [hlow])]
    dsimp only
    rw [if_neg (by simp)]
  · change execBlankingEnd tile ch s = _
    rw [execBlankingEnd, tile_runs hn]
    dsimp only
    rw [if_neg (ne_true_of_eq_false hreset), ← hx]
  · change execLimitTrip tile ch s = _
    rw [execLimitTrip, tile_runs hn]
    dsimp only
    rw [← hx, if_neg (by simp [hreset, hon])]
  · change execBudgetTrip tile group amps s = _
    rw [execBudgetTrip, tile_runs hn, if_neg (ne_true_of_eq_false hreset), budgetActs]
    have hat : (((s.start.tile tile.toNat).budgetAt.find? group.toNat).map (· + 100 * usTicks)).getD 0
        = ((s.start.tile tile.toNat).budgetAt.find? group.toNat).elim 0 (fun a => a + 100 * usTicks) := by
      cases (s.start.tile tile.toNat).budgetAt.find? group.toNat <;> rfl
    rw [hat, ← hq]
  · change execChannelRetry tile ch s = _
    rw [execChannelRetry, tile_runs hn]
    dsimp only
    rw [← hx, ← hq, if_neg (by simpa [hreset, htrip, hlatch, hretry] using hmode), if_neg (ne_true_of_eq_false hcool)]
  · change execChannelAttemptReset tile ch s = _
    rw [execChannelAttemptReset, tile_runs hn]
    dsimp only
    rw [← hx, if_neg (by simpa [hreset, hon] using hatt)]
  · change execOpenLoad tile ch s = _
    rw [execOpenLoad, tile_runs hn]
    dsimp only
    rw [hpad, ← hx]
    dsimp only
    rw [if_neg (by simpa [hreset, hon] using hcmd)]
  · change execGateFault tile ch s = _
    rw [execGateFault, tile_runs hn]
    dsimp only
    rw [← hx, if_neg (by simp [hreset, hmode, hiso, hvhv])]
  · change execHoldLimitExpiry tile ch s = _
    rw [execHoldLimitExpiry, tile_runs hn]
    dsimp only
    rw [← hx, if_neg (by simp [hreset, hhold])]
  · change execThermalBudget meas s = _
    rw [execThermalBudget, package_runs, if_neg (ne_true_of_eq_false hreset)]
    dsimp only
    rw [← hnext, ← hq]

/-- A chop that is due switches its gate on again (R305). -/
theorem chopTime_on {t e d due : Nat} {p q : Pkg} {x : Engine} (hx : x = (p.tile t).engine e) (hrun : x.phase = .running)
    (hchop : x.run.chop = true) (hgate : x.gateA = false) (hd : d = Nat.max (x.run.tOff + x.run.toff) (x.run.tOn + 20 * usTicks))
    (hdue : due = if p.now < d then d else if chopCmp p t e then Nat.max d (x.run.tOff + 8 * x.run.toff) else p.now)
    (hend : due < x.run.endAt) (hq : q = advanceTo due p) (hlow : chopCmp q t e = false) :
    chopTime t e p = onEng t e (fun y => { y with
      gateA := true, gateB := y.binding.any fpTwo, run := { y.run with tOn := q.now } }) q := by
  have hgateB (b : Option Word) : (match b with | some b => fpTwo b | none => false) = b.any fpTwo := by cases b <;> rfl
  delta chopTime
  dsimp only
  rw [← hx, ← hd, ← hdue, ← hq, if_neg (by simp [hrun, hchop, hgate]; omega), if_pos (by simp [hlow])]
  congr 1
  funext y
  cases y.binding <;> rfl

/-- Settles O23: each event of an engine finds it in the phase that it needs. -/
theorem engineEventsRun : Obligations.EngineEventsRun := by
  unfold Obligations.EngineEventsRun
  rintro s p tile t rfl rfl hn
  refine ⟨fun adc src p1 hp1 hon hst htrig => ?_, fun adc src hon hmode hst htrig => ?_, fun adc input d rest hon hend => ?_,
    fun adc input a d p1 ha hon hend hbusy hd hp1 => ?_, fun ref q href hreset hq => ?_, fun ref h0 h3 => ?_, fun e hrun => ?_,
    fun e x d due q hx hrun hchop hgate hd hdue hend hq hlow => ?_, fun e code w hrun hw hopen hdue => ?_, fun e w hw => ?_,
    fun e hrun => ?_, fun k x hx hon hst => ?_, fun k at_ q hat hq => ?_⟩
  · change execSeqTrigger tile adc src s = _
    rw [execSeqTrigger, tile_runs hn, if_pos hon, regularTrigger]
    rw [← hp1, if_pos (by simp [regularOn, hst, htrig])]
  · change execUrgentTrigger tile adc src s = _
    rw [execUrgentTrigger, tile_runs hn, if_pos (by simp [hon, injectedOn, hmode, hst, htrig])]
  · change execSeqEntryResult tile adc input s = _
    rw [execSeqEntryResult, tile_runs hn]
    dsimp only
    rw [if_neg (by simp [hon]), hend]
  · change execSeqEntryResult tile adc input s = _
    rw [execSeqEntryResult, tile_runs hn]
    dsimp only
    rw [if_neg (by simp [hon]), ← ha, hend]
    dsimp only
    rw [← hd, ← hp1, if_neg (by simp [hbusy])]
  · change execRefSettled tile ref s = _
    rw [execRefSettled, tile_runs hn, if_neg (by simpa [hreset] using href)]
    dsimp only
    rw [← hq]
  · change execReferenceLost tile ref s = _
    rw [execReferenceLost, tile_runs hn, if_neg (by simpa using And.intro h0 h3)]
  · change execInstructionTimeEnd tile e s = _
    rw [execInstructionTimeEnd, tile_runs hn]
    dsimp only
    rw [if_neg (by simp [hrun])]
  · change execChopOffTime tile e s = _
    rw [execChopOffTime, tile_runs hn, chopTime_on hx hrun hchop hgate hd hdue hend hq hlow]
  · change execDetectSample tile e code s = _
    rw [execDetectSample, tile_runs hn, if_neg (by simp [hrun])]
  · change execDetectWindowEnd tile e s = _
    rw [execDetectWindowEnd, tile_runs hn, hw]
  · change execShutterEnd tile e s = _
    rw [execShutterEnd, tile_runs hn]
    dsimp only
    rw [if_neg (by simp [hrun])]
  · change execToothWindowClose tile k s = _
    rw [execToothWindowClose, tile_runs hn]
    dsimp only
    rw [← hx, if_neg (by rcases hst with h | h <;> simp [hon, h])]
  · change execAngleFiringDue tile k s = _
    rw [execAngleFiringDue, tile_runs hn, hat]
    dsimp only
    rw [← hq]

end Sys2Proof.Machine
end

section
/-!
PROOFS. Events of the steppers and the fans, the predictor, the rings, the counters and the entropy source.
-/

namespace Sys2Proof.Machine

/-- Settles O24: each event of a stepper or a fan finds it in the state that it needs. -/
theorem motionEventsRun : Obligations.MotionEventsRun := by
  unfold Obligations.MotionEventsRun
  rintro s p tile t unit u x f rfl rfl hn rfl hx hf
  refine ⟨fun hst => ?_, fun hst => ?_, fun hst => ?_, fun at_ hat hst => ?_, fun hlive hnew => ?_, fun hlive hdone => ?_,
    fun k due hk hdue hlive => ?_, fun hlive hst hsus => ?_, fun hlive hst hsus => ?_, fun hlive hst hsus => ?_,
    fun g hg hlive hst hsus hatt => ?_, fun c hc hlive => ?_, fun q hlive hq => ?_⟩
  · change execStepDue tile unit s = _
    rw [execStepDue, tile_runs hn]
    dsimp only
    rw [← hx, if_neg (by simp [hst])]
  · change execDwellEnd tile unit s = _
    rw [execDwellEnd, tile_runs hn]
    dsimp only
    rw [← hx, if_neg (by simp [hst])]
  · change execHomeStep tile unit s = _
    rw [execHomeStep, tile_runs hn]
    dsimp only
    rw [← hx, if_neg (by simp [hst])]
  · change execHoldTimeEnd tile unit s = _
    rw [execHoldTimeEnd, tile_runs hn]
    dsimp only
    rw [← hx, hat]
    dsimp only
    rw [if_neg (by simp [hst])]
  · change execTachSpeedUpdate tile unit s = _
    rw [execTachSpeedUpdate, tile_runs hn]
    dsimp only
    rw [← hf, if_neg (by simp [hlive])]
    cases hs : f.samples with
    | nil => rfl
    | cons a r => rw [if_neg (by simpa using hnew a r hs)]
  · obtain ⟨a, r, hs, hnow⟩ := hdone
    change execTachSpeedUpdate tile unit s = _
    rw [execTachSpeedUpdate, tile_runs hn]
    dsimp only
    rw [← hf, if_neg (by simp [hlive]), hs]
    dsimp only
    rw [if_pos (by simp [hnow])]
  · change execTachLostTimeout tile unit s = _
    rw [execTachLostTimeout, tile_runs hn]
    dsimp only
    rw [← hf, hk, hdue]
    dsimp only
    rw [if_pos hlive]
  · change execStartWindowEnd tile unit s = _
    rw [execStartWindowEnd, tile_runs hn]
    dsimp only
    rw [← hf, if_neg (by simp [hlive, hst, hsus])]
  · change execBackoffEnd tile unit s = _
    rw [execBackoffEnd, tile_runs hn]
    dsimp only
    rw [← hf, if_neg (by simp [hlive, hst, hsus])]
  · change execTachLossSecond tile unit s = _
    rw [execTachLossSecond, tile_runs hn]
    dsimp only
    rw [← hf, if_neg]
    rcases hst with h | ⟨h, hlost⟩
    · simp [hlive, h, hsus]
    · simp [hlive, h, hsus, Option.isSome_iff_ne_none.mpr hlost]
  · change execFanAttemptReset tile unit s = _
    rw [execFanAttemptReset, tile_runs hn]
    dsimp only
    rw [← hf, hg]
    dsimp only
    rw [if_neg (by simpa [hlive, hsus, hst] using hatt)]
  · change execBaselineLevelEnd tile unit s = _
    rw [execBaselineLevelEnd, tile_runs hn]
    dsimp only
    rw [← hf, hc]
    dsimp only
    rw [if_pos hlive]
  · change execAgeingSample tile unit s = _
    rw [execAgeingSample, tile_runs hn]
    dsimp only
    rw [if_neg (by simp [hlive]), ← hf, ← hq]

/-- A bracket that its nodes' tiles can simulate (R286). -/
theorem bracketDone_simulates {p q : Pkg} {e : Eval} {b : Plan} (he : p.sh.planner.eval = some e)
    (hb : e.brackets[e.done.length]? = some b) (hnodes : e.nodes.all (fun n => online p n.1) = true)
    (hcoord : online p (planCoord p) = true)
    (hq : q = onPlanner (fun x => { x with eval := some { e with done := e.done ++ [simulate p e b] } }) p) :
    bracketDone p = (if e.done.length + 1 = e.brackets.length then finishEval { e with done := e.done ++ [simulate p e b] } q else q) := by
  rw [bracketDone, he]
  dsimp only
  rw [hb]
  dsimp only
  rw [if_pos (by simp only [hnodes, hcoord]; decide), ← hq]
  simp only [List.length_append, List.length_cons, List.length_nil, beq_iff_eq]

@[simp] theorem onEntropy_entropy (t : Nat) (f : Entropy → Entropy) (p : Pkg) :
    ((onEntropy t f p).tile t).entropy = f (p.tile t).entropy := by
  rw [onEntropy, onTile_tile]

theorem conditionSamples_first {t : Nat} {samples : BitVec 1024} {p : Pkg} (h : (p.tile t).entropy.started = false) :
    conditionSamples t samples p = onEntropy t (fun e => { e with started := true }) p := by
  rw [conditionSamples]
  dsimp only
  rw [if_pos (by simp [h])]

/-- The samples that a source which has started conditions (R478). -/
theorem conditionSamples_started {t : Nat} {samples : BitVec 1024} {p q q1 : Pkg} (hstarted : (p.tile t).entropy.started = true)
    (hq : q = onEntropy t (fun e => { e with pool := (e.pool ++ sha256 (le 128 samples.toNat)).take 512 }) p)
    (hq1 : q1 = if !(p.tile t).entropy.ready && 512 ≤ poolBits (q.tile t).entropy then
      raise t 90 (onEntropy t (fun e => { e with ready := true }) q) else q) :
    conditionSamples t samples p = serveEntropy t (q1.tile t).entropy.waits q1 := by
  rw [conditionSamples]
  dsimp only
  rw [if_neg (by simp [hstarted]), ← hq, ← hq1]

/-- Samples that pass their tests are conditioned (R476, R478). -/
theorem exec_entropyCondition {s : State} {tile : TileId} {samples : BitVec 1024} {last : Bool} {run : Nat} {p1 : Pkg}
    (hn : tile.toNat < s.pkg.n) (hawake : awake s.start = true) (hfailed : (s.start.tile tile.toNat).entropy.failed = false)
    (hboot : (s.start.tile tile.toNat).boot.state ≠ .offline)
    (htests : healthTests (s.start.tile tile.toNat).entropy samples = (last, run, false))
    (hp1 : p1 = onEntropy tile.toNat (fun e => { e with last := last, run := run }) s.start) :
    exec (.entropyCondition tile samples) s = .next (s.after (conditionSamples tile.toNat samples p1)) := by
  change execEntropyCondition tile samples s = _
  rw [execEntropyCondition, tile_runs hn]
  dsimp only
  rw [htests, if_neg (by simp [hawake, hfailed, hboot])]
  dsimp only
  rw [if_neg Bool.false_ne_true, hp1]

/-- Settles O25: each event of these units finds its unit as it needs it. -/
theorem predictorEventsRun : Obligations.PredictorEventsRun := by
  unfold Obligations.PredictorEventsRun
  rintro s p tile t rfl rfl hn
  refine ⟨fun c mask rest fail htests => ?_, fun hon => ?_, fun ha hen hon => ?_, fun e b q ha he hb hnodes hcoord hq => ?_,
    fun msg hout hon => ?_, fun msg r hout ha => ?_, fun at_ q hat hon hq => ?_, fun ring r hr htrig hon hparam => ?_,
    fun ring r w q hr hw hon hq => ?_, fun n rx tx c q hc hmode ha hq => ?_, fun n hcarry => ?_,
    fun samples last run p1 ha hfailed hboot htests hstarted hp1 => ?_,
    fun samples last run p1 q q1 ha hfailed hboot htests hstarted hp1 hq hq1 => ?_,
    fun recent q ha hfailed hrecent hq => ?_, fun w rest hwaits => ?_, fun w rest q hpend hq => ?_⟩
  · change execSelfTestComplete tile fail s = _
    rw [execSelfTestComplete, tile_runs hn, htests]
  · change execLiveStep tile s = _
    rw [execLiveStep, tile_runs hn, if_neg (by simp [hon])]
  · change execPlanningBoundary s = _
    rw [execPlanningBoundary, package_runs]
    dsimp only
    rw [if_neg (by simp [ha, hen, hon])]
  · change execBracketComplete s = _
    rw [execBracketComplete, package_runs, if_pos ha, bracketDone_simulates he hb hnodes hcoord hq]
  · change execAdviceMessage tile msg s = _
    rw [execAdviceMessage, tile_runs hn, hout]
    dsimp only
    rw [if_pos hon]
  · change execAdviceMessage tile msg s = _
    rw [execAdviceMessage, tile_runs hn, hout]
    dsimp only
    rw [if_pos ha]
  · change execAdviceExpiry tile s = _
    rw [execAdviceExpiry, tile_runs hn, hat]
    dsimp only
    rw [if_neg (by simp [hon]), ← hq]
  · change execRingPeriodTrigger tile ring s = _
    rw [execRingPeriodTrigger, tile_runs hn, hr]
    dsimp only
    rw [if_neg (by simpa [htrig, hon] using hparam)]
  · change execRingSourceTimeout tile ring s = _
    rw [execRingSourceTimeout, tile_runs hn, hr, hw]
    dsimp only
    rw [if_neg (by simp [hon]), ← hq]
  · change execCounterWindow tile n rx tx s = _
    have hup : s.start.inReset = false ∧ s.start.sh.dark.dark = false := by simpa [awake] using ha
    rw [execCounterWindow, tile_runs hn]
    dsimp only
    rw [← hc, if_neg (by simp [hmode, hup]), ← hq]
  · change execCounterWrap tile n s = _
    rw [execCounterWrap, tile_runs hn]
  · have hfirst : (p1.tile tile.toNat).entropy.started = false := by rw [hp1, onEntropy_entropy, hstarted]
    rw [exec_entropyCondition hn ha hfailed hboot htests hp1, conditionSamples_first hfirst]
  · have hlater : (p1.tile tile.toNat).entropy.started = true := by rw [hp1, onEntropy_entropy, hstarted]
    have hready : (p1.tile tile.toNat).entropy.ready = (s.start.tile tile.toNat).entropy.ready := by rw [hp1, onEntropy_entropy]
    rw [exec_entropyCondition hn ha hfailed hboot htests hp1, conditionSamples_started hlater hq (hq1.trans (by rw [hready]))]
  · have hfail : healthFailure tile.toNat s.start = if 3 ≤ recent.length then raise tile.toNat 127 q else q := by
      rw [healthFailure, ← hrecent, ← hq]
    refine ⟨?_, fun samples hboot htests => ?_⟩
    · change execEntropyHealthFailure tile s = _
      rw [execEntropyHealthFailure, tile_runs hn, if_neg (by simp [ha, hfailed]), hfail]
    · change execEntropyCondition tile samples s = _
      rw [execEntropyCondition, tile_runs hn]
      dsimp only
      rw [htests, if_neg (by simp [ha, hfailed, hboot]), if_pos rfl, hfail]
  · change execEntropyWaitExpiry tile s = _
    rw [execEntropyWaitExpiry, tile_runs hn, hwaits]
  · change execPolicySwitch s = _
    rw [execPolicySwitch, package_runs, hpend]
    dsimp only
    rw [← hq]

end Sys2Proof.Machine
end

section
/-!
PROOFS. Events of the supplies, the permits and the die sensors; resets and darkroom.
-/

namespace Sys2Proof.Machine

/-- Settles O26: each event of a supply finds its tile as it needs it. -/
theorem supplyEventsRun : Obligations.SupplyEventsRun := by
  unfold Obligations.SupplyEventsRun
  rintro s p tile t rfl rfl hn
  refine ⟨fun ha hon => ?_, fun ha hon => ?_, fun h a q hat ha hon hq => ?_, fun k x q ha hx hper hq => ?_, fun t0 t1 t2 t3 q hq => ?_,
    fun hno => ?_, ?_, fun hno => ?_, ?_, fun ht => ?_, fun ht => ?_, fun hcharged hstop => ?_, fun hhold => ?_⟩
  · change execRateOfRiseSample tile s = _
    rw [execRateOfRiseSample, tile_runs hn, if_pos (by simp [ha, hon])]
  · change execPermitEvaluation s = _
    rw [execPermitEvaluation, package_runs, if_pos (by simp [ha, hon])]
  · change execCopyStaleTimeout h s = _
    rw [execCopyStaleTimeout, package_runs, hat]
    dsimp only
    rw [if_pos (by simp [ha, hon]), ← hq]
  · change execPermitPulse k s = _
    rw [execPermitPulse, package_runs, if_pos ha, pulsePermit]
    dsimp only
    rw [← hx, if_neg (by simp [hper]), hq]
    cases x.pulseAt <;> rfl
  · change execDieTemperature tile t0 t1 t2 t3 s = _
    rw [execDieTemperature, tile_runs hn]
    dsimp only
    rw [← hq]
  · change execPowerFailWarning tile true s = _
    rw [execPowerFailWarning, tile_runs hn]
    dsimp only
    rw [if_pos (by simp [hno])]
  · change execPowerFailWarning tile false s = _
    rw [execPowerFailWarning, tile_runs hn]
    dsimp only
    rw [if_neg (by simp)]
  · change execStopBath tile true s = _
    rw [execStopBath, tile_runs hn, if_neg (by decide), if_neg (ne_true_of_eq_false hno)]
  · change execStopBath tile false s = _
    rw [execStopBath, tile_runs hn, if_pos (by decide)]
  · change execVholdCharge tile true s = _
    rw [execVholdCharge, tile_runs hn]
    dsimp only
    rw [if_pos rfl, if_neg (by simpa using ht)]
  · change execVholdCharge tile true s = _
    rw [execVholdCharge, tile_runs hn, ht]
    rfl
  · change execVholdCharge tile false s = _
    rw [execVholdCharge, tile_runs hn]
    dsimp only
    rw [if_neg Bool.false_ne_true, if_pos (by simp [hcharged, hstop])]
  · change execHoldupPageDone tile s = _
    rw [execHoldupPageDone, tile_runs hn, if_pos hhold]
    rfl

theorem begun_pkg (s : State) : s.begun.pkg = s.start := rfl

theorem packageReset_awake {cause : Nat} {w : State} (h : w.pkg.inReset = false) :
    packageReset cause w = { w with pkg := enterReset cause w.pkg, hp := HostPort.reset } := if_neg (ne_true_of_eq_false h)

theorem exec_tapInstruction {s : State} {tile : TileId} {instr : TapInstr} {q : State} (hn : tile.toNat < s.pkg.n)
    (hq : q = onPkg (loadTap tile.toNat instr) s.begun) :
    exec (.tapInstruction tile instr) s = .next (drain (if tapForces instr then onPkg (fun p => permitsLow (chansOff tile.toNat p)) q
      else if tapForces (s.begun.pkg.tile tile.toNat).boot.tap then packageReset 1 q else q)) := by
  change execTapInstruction tile instr s = _
  rw [execTapInstruction, if_pos hn, machine_runs, hq]

/-- Settles O27: each of these events finds the package in the state that it needs. -/
theorem resetEventsRun : Obligations.ResetEventsRun := by
  unfold Obligations.ResetEventsRun
  rintro s b tile t rfl rfl hn
  refine ⟨fun hreset => ⟨?_, ?_, ?_, ?_⟩, fun straps powerUp q hreset hq => ?_, fun hreset hdark => ?_,
    fun instr q hq => ⟨fun hf => ?_, fun hf hwas => ?_, fun hf hwas => ?_⟩, ?_, fun q ha hon hdriven hq hdark => ?_,
    fun source hreset hdark hwaking hmay => ?_, fun source hreset hdark hwaking hmay => ?_, fun q hreset hwaking hq => ?_⟩
  · change execResetN s = _
    rw [execResetN, machine_runs, packageReset_awake hreset]
  · change execVcc11Low s = _
    rw [execVcc11Low, machine_runs, packageReset_awake hreset]
  · change execVanaLow s = _
    rw [execVanaLow, machine_runs, packageReset_awake hreset]
  · change execBrownOut s = _
    rw [execBrownOut, machine_runs, packageReset_awake hreset]
  · change execResetRelease straps powerUp s = _
    rw [execResetRelease, machine_runs, if_neg (by simp [hreset])]
    dsimp only
    rw [← hq]
  · change execCoreRegulatorFault tile s = _
    rw [begun_pkg] at hreset hdark ⊢
    rw [execCoreRegulatorFault, tile_runs hn, if_neg (by simpa [hreset] using hdark)]
  · rw [exec_tapInstruction hn hq, if_pos hf]
  · rw [exec_tapInstruction hn hq, if_neg (ne_true_of_eq_false hf), if_pos hwas]
  · rw [exec_tapInstruction hn hq, if_neg (ne_true_of_eq_false hf), if_neg (ne_true_of_eq_false hwas)]
  · rfl
  · change execDarkroomCheck s true = _
    rw [execDarkroomCheck, machine_runs, if_neg (by simp [ha, hon, hdriven])]
    dsimp only
    rw [← hq, if_pos hdark]
  · change execDarkroomWake source s = _
    rw [begun_pkg] at hreset hdark hwaking hmay ⊢
    rw [execDarkroomWake, package_runs, if_neg (by simp [hreset, hdark, hmay]), if_neg (ne_true_of_eq_false hwaking)]
  · change execDarkroomWake source s = _
    rw [begun_pkg] at hreset hdark hwaking hmay ⊢
    rw [execDarkroomWake, package_runs, if_neg (by simp [hreset, hdark, hmay]), if_pos hwaking]
  · change execDarkroomResume s = _
    rw [execDarkroomResume, machine_runs, if_neg (by simp [hreset, hwaking])]
    dsimp only
    rw [← hq]

end Sys2Proof.Machine
end

section
/-!
PROOFS. Events of the tether: received frames and timers.
-/

namespace Sys2Proof.Machine

/-- A frame that is sound, new and signed is taken (R414, R415). -/
theorem received_valid {ft : Byte} {lengthOk : Bool} {f : TFrame} {g : Pkg → Pkg} {p p0 : Pkg} {v : Nat} (hrun : tetherRuns p = true)
    (hp0 : p0 = onTether (fun te => { te with silent := none }) (countPort 0x12 p.now (18 + f.payload.length) 0 p))
    (hv : frameVerdict p ft lengthOk f = .valid v) : received ft lengthOk f g p = g (acceptFrame ft v p0) := by
  rw [received, if_neg (by simp [hrun])]
  dsimp only
  rw [hv, ← hp0]

/-- A request that a linked package takes for the first time (R421). -/
theorem gotRequest_new {r : FabricReq} {q : Pkg} (hopen : linkOpen q.sh.tether = true) (hnew : q.sh.tether.serving.contains r.id = false)
    (hop : r.op ≠ .unpair) :
    gotRequest r q = onTile q.lead (fun tl => { tl with fabric := { tl.fabric with
        nextId := tl.fabric.nextId + 1
        out := tl.fabric.out ++ [{ req := { r with id := tl.fabric.nextId, origin := q.lead, purpose := .far r.id (asksDie r) }
                                   sentAt := q.now, limit := q.now + admissionTicks r.cls.toNat }] } })
      (onTether (fun te => { te with serving := te.serving ++ [r.id] }) q) := by
  rw [gotRequest, hopen, hnew, if_neg (by decide), if_neg (by simpa using hop)]

/-- Settles O28: each frame has its verdict, and each timer its link. -/
theorem tetherEventsRun : Obligations.TetherEventsRun := by
  unfold Obligations.TetherEventsRun
  rintro s p rfl
  refine ⟨fun f v p0 hrun hp0 => ⟨fun q hq hv hopen => ?_, fun q hq hv => ?_, fun q q1 hq hv hopen hq1 => ?_, fun q q1 hq hv hq1 => ?_,
      fun q r hq hv hopen hnew hop => ?_, fun q id rep hq hv hwaits => ?_, fun hv => ?_, fun id hv => ?_, fun q hq hv hopen => ?_,
      fun q hq hv hkey hnear hfar => ?_⟩,
    fun x q hx hq => ?_, fun at_ hsilent hmay hat => ?_, fun hsilent hmay hat => ?_, fun hrun hopen => ?_, fun hrun hfar hopen => ?_,
    fun q ha hst hq => ?_, fun ha hopen => ?_, fun ha hst hann hsync => ?_⟩
  · change execHello f s = _
    rw [execHello, package_runs, received_valid hrun hp0 hv, ← hq]
  · change execIdle f s = _
    rw [execIdle, package_runs, received_valid hrun hp0 hv, ← hq]
    rfl
  · change execTime f s = _
    rw [execTime, machine_runs]
    dsimp only
    rw [begun_pkg, received_valid hrun hp0 hv, ← hq, ← hq1]
    rfl
  · change execClose f s = _
    rw [execClose, package_runs, received_valid hrun hp0 hv, ← hq]
    dsimp only
    rw [← hq1]
  · change execTetherRequest f (some r) s = _
    rw [execTetherRequest, package_runs, received_valid hrun hp0 hv, ← hq]
    dsimp only
    rw [gotRequest_new hopen hnew hop]
  · change execTetherReply f id (some rep) s = _
    rw [execTetherReply, package_runs, received_valid hrun hp0 hv, ← hq]
  · change execTetherRequest f none s = _
    rw [execTetherRequest, package_runs, received_valid hrun hp0 hv]
    rfl
  · change execTetherReply f id none s = _
    rw [execTetherReply, package_runs, received_valid hrun hp0 hv]
  · change execAnnounce f s = _
    rw [execAnnounce, package_runs, received_valid hrun hp0 hv, ← hq]
  · change execPair f s = _
    rw [execPair, package_runs, received_valid hrun hp0 hv, ← hq]
  · change execPairTimeout s = _
    rw [execPairTimeout, package_runs, hx]
    dsimp only
    rw [← hq]
    cases x.ctx <;> rfl
  · change execHelloTimer s = _
    rw [execHelloTimer, package_runs, hsilent]
    dsimp only
    rw [if_neg (by simp [hmay]), hat]
  · change execHelloTimer s = _
    rw [execHelloTimer, package_runs, hsilent]
    dsimp only
    rw [if_neg (by simp [hmay]), hat]
  · change execIdleTimer s = _
    rw [execIdleTimer, package_runs]
    dsimp only
    rw [hrun, hopen, if_neg (by decide)]
  · change execTimeTimer s = _
    rw [execTimeTimer, package_runs]
    dsimp only
    rw [if_neg (by simp [hrun, hfar, hopen])]
  · change execTetherSuspect s = _
    rw [execTetherSuspect, package_runs]
    dsimp only
    rw [if_neg (by simp [ha, hst]), ← hq]
  · change execTetherLost s = _
    rw [execTetherLost, package_runs]
    dsimp only
    rw [if_neg (by simp [ha, hopen])]
  · change execResyncComplete s = _
    rw [execResyncComplete, package_runs]
    dsimp only
    rw [if_neg (by simp [ha, hst, hann, hsync])]

end Sys2Proof.Machine
end

section
/-!
PROOFS. Events of the RS-485 ports.
-/

namespace Sys2Proof.Machine

/-- A frame that no reset of the bus cut is taken whole (R430, R504). -/
theorem rsFrame_whole {b : RsPort} {n : Nat} {g : Pkg → Pkg} {p : Pkg} (h : wasCut p (rsTicks (rsOf p b).cfg n) = false) :
    rsFrame b n g p = g (countPort (busSource (.rs b)) p.now n 0 p) := if_neg (ne_true_of_eq_false h)

/-- An MS/TP frame that is sound and whole reaches its row (R436). -/
theorem mstpIn_takes {b : RsPort} {f : MstpFrame} {g : RsState → Pkg → Pkg} {p q p0 : Pkg} {r0 : RsState} (hq : q = busDue p)
    (hlisten : rsListens q b 1 = true) (hr0 : r0 = rsOf q b) (hcut : wasCut q (rsTicks r0.cfg (frameChars f)) = false)
    (hsound : frameSound f = true)
    (hp0 : p0 = onRs b (nodeHears f) (mstpHeard b f.src (countPort (busSource (.rs b)) q.now (frameChars f) 0 q))) :
    mstpIn b f g p = g r0 p0 := by
  subst hr0
  rw [mstpIn, ← hq, if_neg (by simp [hlisten]), rsFrame_whole hcut]
  rw [if_neg (by simp [hsound]), rsOf_countPort, ← hp0]

/-- What the end of a frame of an RS-485 port does (R437, R439). -/
theorem rsSent_ends {b : RsPort} {p q : Pkg} {x : Option Ctx} {f : List Byte} (hsend : (rsOf p b).sending = some (x, f))
    (hq : q = countTx (.rs b) (onRs b (fun y => { y with sending := none }) (countPort (busSource (.rs b)) p.now 0 f.length p))) :
    rsSent b p = (if (rsOf p b).mode == 1 then onRs b (nodeSent q.now x.isSome (f.getD 2 0) (f.getD 3 0))
        (x.elim q (fun c => finish c 0x81 stOk q.lead q))
      else (rsOf p b).polling.elim (x.elim q (fun c => finish c 0x81 stOk q.lead q)) (fun y =>
        onRs b (fun z => { z with polling := some { y with deadline := some (q.now + rcTimeout z.cfg * msTicks) } })
          (x.elim q (fun c => finish c 0x81 stOk q.lead q)))) := by
  have hlead : (countPort (busSource (.rs b)) p.now 0 f.length p).lead = q.lead := by
    rw [hq]
    cases b <;> rfl
  have hnow : (countPort (busSource (.rs b)) p.now 0 f.length p).now = q.now := by
    rw [hq]
    rfl
  rw [rsSent]
  dsimp only
  rw [hsend]
  dsimp only
  rw [hlead, hnow, ← hq]
  cases x <;> cases (rsOf p b).polling <;> rfl

/-- A POLL_ITEM of the list comes due at its change or at its period (R431, R432). -/
theorem exec_pollItemDue {s : State} {port : RsPort} {item : BitVec 9} {list e : List Byte} (ha : busAwake s.start = true)
    (hrun : (rsOf s.start port).running = true) (hmode : (rsOf s.start port).mode = 3) (hlist : list = portTable s.start 1 port)
    (he : e = plItem list item.toNat) (hne : list ≠ []) (hitem : item.toNat < plCount list) (hserver : piServer e ≠ 0) :
    exec (.pollItemDue port item) s = .next (s.after (itemDue port item.toNat e
      (if (piWrites e && piOnChange e && ((rsOf s.start port).seen.find? item.toNat).any (fun x => x != sourceNow s.start e)) = true
        then s.start
        else advanceTo (nextMultiple (piPeriod e * msTicks)
          (((rsOf s.start port).dueAt.find? item.toNat).elim s.start.now (fun a => Nat.max s.start.now (a + 1)))) s.start))) := by
  change execPollItemDue port item s = _
  rw [execPollItemDue, package_runs]
  dsimp only
  rw [← hlist, ← he, if_neg (by simp [ha, hrun, hmode, hne, hserver]; omega), apply_ite (itemDue port item.toNat e)]
  cases (rsOf s.start port).seen.find? item.toNat <;> cases (rsOf s.start port).dueAt.find? item.toNat <;> rfl

theorem exec_rsFrameSent {s : State} {port : RsPort} (ha : busAwake s.start = true) :
    exec (.busFrameSent (.rs port)) s = .next (s.after (rsSent port s.start)) := by
  change execBusFrameSent (.rs port) s = _
  rw [execBusFrameSent, package_runs, if_neg (by simp [ha])]

/-- Settles O29: each event of a port finds the port in the mode and the state that it needs. -/
theorem busEventsRun : Obligations.BusEventsRun := by
  unfold Obligations.BusEventsRun
  rintro s p port r rfl hr ha
  refine ⟨fun hmode hstop => ?_, fun hon hstop => ?_, fun frame q hrun hmode hcrc hcut hq haddr hserv hsend => ?_, fun x hx => ?_,
    fun item list e hrun hmode hlist he hne hitem hserver => ⟨fun hch => ?_, fun hch => ?_⟩, fun hrun hmode hsend hpoll => ?_,
    fun x hrun hmode hsend hpoll hask hdead => ?_, fun frame x q hlisten hcut hq hcrc hpoll hdead => ?_, fun x d hpoll hd => ?_,
    fun f q r0 p0 hq hlisten hr0 hcut hsound hp0 => ⟨fun mine wants answers p1 htype hmine hfor hwants hans hp1 => ?_,
      fun htype hdst hfree => ?_, fun htype hdst hfree => ?_, fun htype hdst hfree => ?_⟩,
    fun src limit hrep hlisten => ?_, fun hlisten hidle => ?_, fun hmode hrun hsend => ?_,
    fun x f q hsend hq => ⟨fun c hx hmode => ?_, fun hx hmode => ?_, fun y hx hmode hpoll => ?_, fun hx hmode hpoll => ?_⟩⟩
  · change execBusStart (.rs port) s = _
    rw [execBusStart, package_runs, if_neg (by simp [ha])]
    dsimp only
    rw [← hr, if_neg (by simpa [hstop] using hmode)]
  · change execBusStart .t1s s = _
    rw [execBusStart, package_runs, if_neg (by simp [ha])]
    dsimp only
    rw [if_neg (by simp [hon, hstop])]
  · subst hr
    change execModbusRequest port frame s = _
    rw [execModbusRequest, package_runs]
    dsimp only
    rw [if_neg (by simp [ha, hrun, hmode]), rsFrame_whole hcut, ← hq]
    rw [if_neg (by simp [hcrc]), if_neg (by rcases haddr with h | h <;> simp [h]), if_neg (by simp [hserv, hsend])]
  · change execServerWaitExpiry port s = _
    rw [execServerWaitExpiry, package_runs]
    rw [← hr, hx]
  · subst hr
    rw [exec_pollItemDue ha hrun hmode hlist he hne hitem hserver, if_pos hch]
  · subst hr
    rw [exec_pollItemDue ha hrun hmode hlist he hne hitem hserver, if_neg (ne_true_of_eq_false hch)]
  · change execModbusSilence port s = _
    rw [execModbusSilence, package_runs]
    dsimp only
    rw [← hr, if_neg (by simp [ha, hrun, hmode, hsend]), hpoll]
  · change execModbusSilence port s = _
    rw [execModbusSilence, package_runs]
    dsimp only
    rw [← hr, if_neg (by simp [ha, hrun, hmode, hsend]), hpoll]
    dsimp only
    rw [if_neg (by simp [hask, hdead])]
  · subst hr
    change execModbusResponse port frame s = _
    rw [execModbusResponse, package_runs, if_neg (by simp [hlisten]), rsFrame_whole hcut, ← hq]
    dsimp only
    rw [if_neg (by simp [hcrc]), hq, rsOf_countPort, hpoll]
    dsimp only
    rw [if_pos hdead]
  · change execResponseTimeout port s = _
    rw [execResponseTimeout, package_runs]
    rw [← hr, hpoll]
    dsimp only
    rw [hd]
  · change execMstpDataFrame port f.ftype f.dst f.src f.toMstpRest s = _
    rw [execMstpDataFrame, package_runs, mstpIn_takes hq hlisten hr0 hcut hsound hp0]
    dsimp only
    rw [← hmine, ← hwants, ← hans, ← hp1, if_neg (by rcases htype with h | h <;> simp [h]),
      if_neg (by rcases hfor with h | h <;> simp [h])]
  · change execMstpToken port f s = _
    rw [execMstpToken, package_runs, mstpIn_takes hq hlisten hr0 hcut hsound hp0]
    rw [if_pos (by simp [htype, hdst, hfree])]
  · change execMstpControlFrame port f.ftype f.dst f.src f.toMstpRest s = _
    rw [execMstpControlFrame, package_runs, mstpIn_takes hq hlisten hr0 hcut hsound hp0]
    dsimp only
    rw [if_neg (by simp [hdst, hfree]), if_pos (by simp [htype])]
  · change execMstpControlFrame port f.ftype f.dst f.src f.toMstpRest s = _
    rw [execMstpControlFrame, package_runs, mstpIn_takes hq hlisten hr0 hcut hsound hp0]
    dsimp only
    rw [if_neg (by simp [hdst, hfree]), if_neg (by rw [htype]; decide), if_pos (by simp [htype])]
  · change execReplyPostponed port s = _
    rw [execReplyPostponed, package_runs]
    rw [← hr, hrep]
    dsimp only
    rw [if_neg (by simp [hlisten])]
  · change execTokenRegeneration port s = _
    rw [execTokenRegeneration, package_runs, ← hr, if_neg (by simp [hlisten, hidle])]
  · change execRxErr port s = _
    rw [execRxErr, package_runs]
    dsimp only
    rw [← hr, if_neg (by simpa [ha, hrun, hsend] using hmode)]
    simp only [beq_iff_eq]
  all_goals
    subst hr
    rw [exec_rsFrameSent ha, rsSent_ends hsend hq]
  · rw [if_pos (by simp [hmode]), hx]
    rfl
  · rw [if_pos (by simp [hmode]), hx]
    rfl
  · rw [if_neg (by simpa using hmode), hx, hpoll]
    rfl
  · rw [if_neg (by simpa using hmode), hx, hpoll]
    rfl

end Sys2Proof.Machine
end

section
/-!
PROOFS. Events of the T1S port, the service port, the panel, the keys and the update.
-/

namespace Sys2Proof.Machine

/-- A T1S frame that no reset of the bus cut is taken whole (R448, R504). -/
theorem t1sIn_whole {len : Nat} {g : Pkg → Pkg} {p : Pkg} (h : wasCut p (t1sTicks len) = false) :
    t1sIn len g p = onT1s (fun y => beginT1s p.now (hearT1s p.now len y)) (g (countPort (busSource .t1s) p.now len 0 p)) := by
  rw [t1sIn, if_neg (ne_true_of_eq_false h)]

/-- Settles O30: each event of the two ports finds its port as it needs it. -/
theorem t1sServiceEventsRun : Obligations.T1sServiceEventsRun := by
  unfold Obligations.T1sServiceEventsRun
  rintro s p r rfl hr
  refine ⟨fun frame len m ha hrun h60 hmax hlen hcut hmatch => ?_, fun q ha hrun hplca hsend hq => ?_, fun ha hrun hfollow => ?_,
    fun ha hrun hfollow => ?_, fun ha hrun hsend => ?_, fun c f ha hsend => ?_, ?_, fun hdet => ?_, fun baud hworks hno hlo hhi => ?_,
    fun hbaud => ?_, fun packet b c i hworks hbaud hword hmax hlen hb herr hc hi => ?_, fun hworks hbaud => ?_⟩
  · subst hlen hr
    change execT1sFrame frame (fcsOf frame) s = _
    rw [execT1sFrame, package_runs, if_neg (by simp [ha, hrun]), t1sIn_whole hcut]
    rw [if_neg (by simp), if_neg (by simp; omega), countPort_sh, hmatch]
  · change execT1sCollision s = _
    rw [execT1sCollision, package_runs]
    dsimp only
    rw [← hr, if_neg, ← hq]
    have hbusy : r.sending.isNone = false := by rw [← Option.not_isSome, hsend, Bool.not_true]
    simpa [ha, hrun, hbusy] using hplca
  · change execBeaconTimeout s = _
    rw [execBeaconTimeout, package_runs]
    dsimp only
    rw [← hr, if_neg (by simp [ha, hrun, hfollow])]
  · change execBeacon s = _
    rw [execBeacon, package_runs, ← hr, if_neg (by simp [ha, hrun, hfollow])]
  · change execJabber s = _
    rw [execJabber, package_runs]
    dsimp only
    rw [← hr, if_neg]
    have hbusy : r.sending.isNone = false := by rw [← Option.not_isSome, hsend, Bool.not_true]
    simp [ha, hrun, hbusy]
  · change execBusFrameSent .t1s s = _
    rw [execBusFrameSent, package_runs, if_neg (by simp [ha]), ← hr, hsend]
  · rfl
  · rfl
  · change execServiceBaudLock baud s = _
    rw [execServiceBaudLock, package_runs, if_neg (by simp [hworks, hno]; omega)]
  · change execServiceUnlockTimeout s = _
    rw [execServiceUnlockTimeout, package_runs, if_neg (by simp [hbaud])]
  · change execServicePacket packet s = _
    rw [execServicePacket, machine_runs, begun_pkg, if_neg (by simp [hworks, hbaud]; omega)]
    dsimp only
    rw [if_neg (by simp; omega), if_neg (by simp [hlen]), ← hb, takePacket_routes herr hc hi]
  · change execServiceGapTimeout s = _
    rw [execServiceGapTimeout, package_runs, if_neg (by simp [hworks, hbaud])]

/-- The end of a phase of an update that runs (R481, R484). -/
theorem exec_panelPhase {s : State} {c : Ctx} {states : BitVec 40} {w : List Byte} {phase at_ : Nat}
    (hon : panelServed s.start = true) (hrun : s.start.sh.panel.running = some (c, states, w, phase, at_)) :
    exec .panelPhase s = .next (s.after
      (if readyToStart s.start.sh.panel && s.start.sh.panel.startAt ≤ at_ then
        startUpdate at_ (cutUpdate stSuperseded (advanceTo at_ s.start))
      else if s.start.sh.panel.stopAtPhase then cutUpdate stSuperseded (advanceTo at_ s.start)
      else if wvPhases w ≤ phase + 1 then endUpdate c states (advanceTo at_ s.start)
      else onPanel (fun x => { x.drivePhase w states (phase + 1) with running := some (c, states, w, phase + 1, at_ + phaseTicks) })
        (advanceTo at_ s.start))) := by
  change execPanelPhase s = _
  rw [execPanelPhase, package_runs, if_pos hon, panelPhase, hrun]

/-- Settles O31: each event of the panel, the keys and the update finds them as it needs them. -/
theorem panelUpdateEventsRun : Obligations.PanelUpdateEventsRun := by
  unfold Obligations.PanelUpdateEventsRun
  rintro s p rfl
  refine ⟨fun hon hidle hready => ?_, fun c states w phase at_ hon hrun hstop hcut hphase => ?_,
    fun c states w phase at_ hon hrun hstop hcut hphase => ?_, fun c states w phase at_ hon hrun hready hstart => ?_,
    fun ohm c states w ha hcrack hwait hon => ?_, fun hrails => ?_, fun hrails => ?_, ?_, fun pressed hon hkeys => ?_, fun hon => ?_,
    fun k a hon hdown hacc => ?_, fun enc inputB level => ?_, fun enc inputB x hon henc hx hdiff => ?_, fun c hdr her => ?_,
    fun hbusy hnone horder hretry hhand => ?_, fun at_ hretry hhand => ?_, fun hst => ?_⟩
  · change execPanelPhase s = _
    rw [execPanelPhase, package_runs, if_pos hon, panelPhase, hidle]
    dsimp only
    rw [if_pos hready]
  · rw [exec_panelPhase hon hrun, if_neg (ne_true_of_eq_false hcut), if_neg (ne_true_of_eq_false hstop), if_neg (by omega)]
  · rw [exec_panelPhase hon hrun, if_neg (ne_true_of_eq_false hcut), if_neg (ne_true_of_eq_false hstop), if_pos hphase]
  · rw [exec_panelPhase hon hrun, if_pos (by simp [hready, hstart])]
  · change execCrackCheck ohm s = _
    rw [execCrackCheck, package_runs]
    dsimp only
    rw [hwait]
    dsimp only
    rw [if_pos (by simp [ha, hcrack, hon])]
    rfl
  · change execPanelRailsPresent s = _
    rw [execPanelRailsPresent, package_runs, if_neg (ne_true_of_eq_false hrails)]
  · change execPanelRailsCollapse s = _
    rw [execPanelRailsCollapse, package_runs, if_pos hrails]
  · rfl
  · change execKeyScan pressed s = _
    rw [execKeyScan, package_runs, if_pos (by simp [hon, hkeys])]
  · change execKeyInterrupt s = _
    rw [execKeyInterrupt, package_runs, if_pos hon, writeChanges]
  · change execStuckKey k s = _
    rw [execStuckKey, package_runs]
    dsimp only
    rw [if_neg (by simp [hon, hdown]), ← hacc]
  · rfl
  · change execEncoderSettle enc inputB s = _
    rw [execEncoderSettle, package_runs, if_pos (by simp [hon, henc])]
  · change execNegativeErase s = _
    rw [execNegativeErase, package_runs, negativeErased, her]
  · change execActivationNextTile s = _
    rw [execActivationNextTile, package_runs]
    dsimp only
    rw [if_neg (by simp [hbusy, hnone, horder, hretry, hhand])]
  · change execHandoverRetry s = _
    rw [execHandoverRetry, package_runs, hretry]
    dsimp only
    rw [if_neg (by simp [hhand])]
  · change execHealthWindowEnd s = _
    rw [execHealthWindowEnd, package_runs, if_neg (by simp [hst])]

end Sys2Proof.Machine
end

-- What a unit's work leaves of the other units.
section
/-!
PROOFS. Views that do not see the notes of a tile's work, its drives, its loops or the passing of time; and the operations that such
views do not see: the writes of points, and what they note.
-/

namespace Sys2Proof.Machine

namespace View

/-- The view sees nothing of the notes of tile `t`'s work, nor of the events that its machines have seen. -/
structure Notes (V : View) (t : Nat) : Prop where
  tile : V.Forgets t (fun x => x.settled.noNotes)
  since : ∀ m x, V.machine t m { x with since := 0 } = V.machine t m x

/-- The view sees nothing of the drives of tile `t` either. -/
structure Drives (V : View) (t : Nat) : Prop where
  tile : V.Forgets t (fun x => x.settled.noDrives)
  since : ∀ m x, V.machine t m { x with since := 0 } = V.machine t m x

/-- The view sees nothing of the loop engine of tile `t` either. -/
structure Loops (V : View) (t : Nat) : Prop where
  tile : V.Forgets t (fun x => x.settled.noLoops)
  since : ∀ m x, V.machine t m { x with since := 0 } = V.machine t m x

/-- The view sees nothing of the clocks of the package, nor of the counters of its tiles. -/
structure Later (V : View) : Prop where
  pkg : ∀ p q : Pkg, p.noClocks = q.noClocks → V.pkg p.settled = V.pkg q.settled
  tile : ∀ u, V.Forgets u Tile.noCounters

/-- The view sees nothing of the commands that the package refused for lack of room. -/
def Uncounted (V : View) : Prop :=
  ∀ p : Pkg, ∀ c, V.pkg (onShared (fun x => { x with counts := c }) p).settled = V.pkg p.settled

section
variable {V : View} {t : Nat}

@[simp] theorem Drives.notes (h : V.Drives t) : V.Notes t where
  tile x y hxy := h.tile x y (by
    have hd := congrArg Tile.noDrives hxy
    exact hd)
  since := h.since

@[simp] theorem Loops.notes (h : V.Loops t) : V.Notes t where
  tile x y hxy := h.tile x y (by
    have hd := congrArg Tile.noLoops hxy
    exact hd)
  since := h.since

@[simp] theorem Notes.quiet (h : V.Notes t) : V.Quiet t where
  tile x y hxy := h.tile x y (by
    have hd := congrArg (fun z : Tile => z.settled.noNotes) hxy
    exact hd)
  since := h.since

variable {p : Pkg}

/-- A change of the notes of a tile. -/
theorem of_onNotes (h : V.Notes t) {f : Tile → Tile} (hf : (f (p.tile t)).settled.noNotes = (p.tile t).settled.noNotes)
    (hm : (f (p.tile t)).machines = (p.tile t).machines) : V.of (onTile t f p) = V.of p := of_onTile h.tile hf hm

/-- A change of the drives of a tile. -/
theorem of_onDrives (h : V.Drives t) {f : Tile → Tile} (hf : (f (p.tile t)).settled.noDrives = (p.tile t).settled.noDrives)
    (hm : (f (p.tile t)).machines = (p.tile t).machines) : V.of (onTile t f p) = V.of p := of_onTile h.tile hf hm

/-- A change of the loop engine of a tile. -/
theorem of_onLoops (h : V.Loops t) {f : Tile → Tile} (hf : (f (p.tile t)).settled.noLoops = (p.tile t).settled.noLoops)
    (hm : (f (p.tile t)).machines = (p.tile t).machines) : V.of (onTile t f p) = V.of p := of_onTile h.tile hf hm

/-! Sequences of operations. -/

theorem of_forAll {α : Type} {f : α → Pkg → Pkg} (hf : ∀ a q, V.of (f a q) = V.of q) (l : List α) : V.of (forAll l f p) = V.of p :=
  foldl_keeps V.of (fun q a => f a q) (fun q a => hf a q) l p

theorem of_foldl {α : Type} {f : Pkg → α → Pkg} (hf : ∀ q a, V.of (f q a) = V.of q) (l : List α) : V.of (l.foldl f p) = V.of p :=
  foldl_keeps V.of f hf l p

/-! Time that passes. -/

@[simp] theorem of_advance (h : V.Later) (k : Nat) : V.of (advance k p) = V.of p :=
  of_eq_iff.mpr ⟨h.pkg _ _ (advance_noClocks k p), fun u => h.tile u _ _ (advance_tile k p u), fun u m => by
    have hm := congrArg (fun x : Tile => x.machine m) (advance_tile k p u)
    exact congrArg (V.machine u m) hm⟩

@[simp] theorem of_advanceTo (h : V.Later) (at_ : Nat) : V.of (advanceTo at_ p) = V.of p := of_advance h _

/-! Free values, and commands that end. -/

@[simp] theorem of_takeFree : V.of (takeFree p).2 = V.of p := rfl

@[simp] theorem of_q16Word (x : Int) : V.of (q16Word x p).2 = V.of p := by
  unfold q16Word
  split <;> rfl

@[simp] theorem of_pulseHz (ch : Chan) : V.of (pulseHz ch p).2 = V.of p := by
  unfold pulseHz
  split <;> rfl

/-- A machine's note of a refused action is out of sight, on any tile. -/
@[simp] theorem of_noteMachine (u m : Nat) (st : Byte) : V.of (noteMachine u m st p) = V.of p := of_samePkg (samePkg_noteMachine ..)

/-! Points, and what the writes of points note. -/

@[simp] theorem of_overflowed (h : V.Notes t) (l : List Nat) : V.of (overflowed t l p) = V.of p :=
  of_foldl (fun _ i => of_raiseWith h.quiet 93 i) l

theorem touchMonitor_notes (k : Key) (x : Tile) : (touchMonitor k x).settled.noNotes = x.settled.noNotes := by
  unfold touchMonitor
  split <;> rfl

@[simp] theorem of_putRec_of_notes (h : V.Notes t) (k : Key) (r : Rec) : V.of (putRec t k r p) = V.of p := by
  rw [putRec, of_snoop h.quiet]
  exact of_onNotes h ((touchMonitor_notes ..).trans rfl) (touchMonitor_machines ..)

@[simp] theorem of_putNow (h : V.Notes t) (k : Key) (v : Word) (q : Quality) : V.of (putNow t k v q p) = V.of p := of_putRec_of_notes h _ _

@[simp] theorem of_goOffline (h : V.Notes t) (k : Key) : V.of (goOffline t k p) = V.of p := by
  unfold goOffline
  split
  · rfl
  · split
    · rfl
    · exact of_putNow h ..

@[simp] theorem of_putItems (h : V.Notes t) (unit : Nat) (vs : List Word) : V.of (putItems t unit vs p) = V.of p :=
  of_foldl (fun _ _ => of_putNow h ..) _

@[simp] theorem of_dropItems (h : V.Notes t) (unit : Nat) : V.of (dropItems t unit p) = V.of p :=
  of_forAll (fun _ _ => of_goOffline h _) _

@[simp] theorem of_countOverridden (h : V.Notes t) : V.of (countOverridden t p) = V.of p := of_onNotes h rfl rfl

@[simp] theorem of_refusedByPolicy (h : V.Notes t) : V.of (refusedByPolicy t p) = V.of p := by
  rw [refusedByPolicy, of_raise h.quiet]
  exact of_onNotes h rfl rfl

@[simp] theorem of_denyCommit (h : V.Notes t) (op : Byte) (c : Ctx) : V.of (denyCommit t op c p) = V.of p := by
  rw [denyCommit, of_finish _ _ _ (by decide), of_refusedByPolicy h]

end

end View

end Sys2Proof.Machine
end

section
/-!
PROOFS. What the changes of a tile's drives leave of the tile: its converters and its claims.
-/

namespace Sys2Proof.Machine

/-- A tile without what drives and measures. -/
def Tile.noUnits (x : Tile) : Tile :=
  { x with chans := [], conv := {}, engines := [], trackers := [], steppers := [], fans := [], counting := [], claims := [] }

section
variable (now : Nat) (b : Bool) (x : Tile)

@[simp] theorem conv_noUnits (c : Converters) : { x with conv := c }.noUnits = x.noUnits := rfl

@[simp] theorem onAdc_noUnits (f : Adc → Adc) : (x.onAdc b f).noUnits = x.noUnits := by
  unfold Tile.onAdc
  split <;> rfl

@[simp] theorem onReg_noUnits (f : Sequence → Sequence) : (onReg b f x).noUnits = x.noUnits := onAdc_noUnits ..
@[simp] theorem onInj_noUnits (f : Sequence → Sequence) : (onInj b f x).noUnits = x.noUnits := onAdc_noUnits ..
@[simp] theorem setIdle_noUnits (on : Bool) : (setIdle on x).noUnits = x.noUnits := by simp [setIdle]

@[simp] theorem switched_noUnits : (switched now b x).noUnits = x.noUnits := by
  unfold switched
  dsimp only
  split
  · rfl
  · split <;> simp

@[simp] theorem breakInterleave_noUnits : (breakInterleave b x).noUnits = x.noUnits := by
  unfold breakInterleave
  split <;> simp

@[simp] theorem beginReg_noUnits : (beginReg now b x).noUnits = x.noUnits := by
  unfold beginReg
  dsimp only
  repeat' split
  all_goals simp

@[simp] theorem startPass_noUnits : (startPass now b x).noUnits = x.noUnits := by simp [startPass]

@[simp] theorem endPass_noUnits : (endPass now b x).noUnits = x.noUnits := by
  unfold endPass
  dsimp only
  repeat' split
  all_goals simp

@[simp] theorem resumeB_noUnits : (resumeB now x).noUnits = x.noUnits := by
  unfold resumeB
  repeat' split
  all_goals simp

@[simp] theorem injectedEnded_noUnits : (injectedEnded now b x).noUnits = x.noUnits := by
  unfold injectedEnded
  repeat' split
  all_goals simp

@[simp] theorem nextEntry_noUnits : (nextEntry now b x).noUnits = x.noUnits := by
  unfold nextEntry
  dsimp only
  repeat' split
  all_goals simp

@[simp] theorem onEngine_noUnits (e : Nat) (f : Engine → Engine) : (x.onEngine e f).noUnits = x.noUnits := rfl
@[simp] theorem onChan_noUnits (c : Nat) (f : Chan → Chan) : (Tile.onChan c f x).noUnits = x.noUnits := rfl

@[simp] theorem openWindow_noUnits (e : Nat) : (openWindow now e x).noUnits = x.noUnits := by simp [openWindow]

@[simp] theorem grantB_noUnits : (grantB now x).noUnits = x.noUnits := by
  unfold grantB
  split
  · rfl
  · split <;> simp

@[simp] theorem releaseB_noUnits (openAt : Nat) : (releaseB now openAt x).noUnits = x.noUnits := by simp [releaseB]

@[simp] theorem endEntry_noUnits : (endEntry b now x).noUnits = x.noUnits := by
  unfold endEntry
  dsimp only
  split <;> simp

@[simp] theorem startInjected_noUnits : (startInjected now b x).noUnits = x.noUnits := by simp [startInjected]

@[simp] theorem stopReg_noUnits : (stopReg now b x).noUnits = x.noUnits := by
  unfold stopReg
  dsimp only
  repeat' split
  all_goals simp

@[simp] theorem startReg_noUnits (mode trig : Byte) : (startReg now b mode trig x).noUnits = x.noUnits := by
  unfold startReg
  dsimp only
  repeat' split
  all_goals simp

@[simp] theorem stopInj_noUnits : (stopInj now b x).noUnits = x.noUnits := by
  unfold stopInj
  dsimp only
  repeat' split
  all_goals simp

@[simp] theorem stopConverters_noUnits : (stopConverters now x).noUnits = x.noUnits := by
  have hall : (stopConverters now x).noUnits = (switched now true (switched now false x)).noUnits := by
    unfold stopConverters
    generalize switched now true (switched now false x) = y
    rfl
  rw [hall, switched_noUnits, switched_noUnits]

@[simp] theorem resumeConverters_noUnits : (resumeConverters now x).noUnits = x.noUnits := by
  unfold resumeConverters
  lift_lets
  extract_lets go
  have hgo : ∀ b y, (go b y).noUnits = y.noUnits := by
    intro b y
    simp only [go]
    split
    · simp
    · split
      · split <;> simp
      all_goals simp
  rw [hgo, hgo]

@[simp] theorem releaseClaims_noUnits (who : Claimer) : (releaseClaims who x).noUnits = x.noUnits := rfl
@[simp] theorem setClaims_noUnits (who : Claimer) (ks : List Key) : (setClaims who ks x).noUnits = x.noUnits := rfl

end

end Sys2Proof.Machine
end

section
/-!
PROOFS. What the work of a tile's drives leaves as it was: one lemma for each operation on its channels, converters, engines, trackers,
steppers and fans. A view that does not see the drives of the tile sees nothing of it.
-/

namespace Sys2Proof.Machine

@[simp] theorem stOk_ne_stCapacity : stOk ≠ stCapacity := by decide
@[simp] theorem stSuperseded_ne_stCapacity : stSuperseded ≠ stCapacity := by decide
@[simp] theorem stBadParam_ne_stCapacity : stBadParam ≠ stCapacity := by decide
@[simp] theorem stBadState_ne_stCapacity : stBadState ≠ stCapacity := by decide
@[simp] theorem stRefusedState_ne_stCapacity : stRefusedState ≠ stCapacity := by decide
@[simp] theorem stPolicyChanged_ne_stCapacity : stPolicyChanged ≠ stCapacity := by decide

theorem bits_lt {w : Nat} (r : BitVec w) (hi lo : Nat) : bits r hi lo < 2 ^ (hi + 1 - lo) := (r.extractLsb' lo (hi + 1 - lo)).isLt

theorem keyClass_gateKey_ne {g : Nat} (hg : g < 64) : keyClass (gateKey g) ≠ 8 := by
  unfold keyClass gateKey key
  omega

namespace View

section
variable {V : View} {p : Pkg}

@[simp] theorem of_finishFire (t : Nat) (s : FireSrc) (st : Byte) (pl : List Byte) (hst : st ≠ stCapacity) :
    V.of (finishFire t s st pl p) = V.of p := by
  unfold finishFire
  split
  · exact of_finishWith _ _ _ _ hst
  · exact of_noteMachine ..
  · rfl

@[simp] theorem of_finishStep (t : Nat) (c : StepCmd) (st : Byte) (v : Int) (hst : st ≠ stCapacity) :
    V.of (finishStep t c st v p) = V.of p := by
  unfold finishStep
  dsimp only
  split
  · exact of_finishWith _ _ _ _ hst
  · exact of_finishWith _ _ _ _ hst
  · exact of_finishWith _ _ _ _ hst
  · exact of_noteMachine ..
  · exact of_noteMachine ..
  · rfl

end

section
variable {V : View} {t : Nat} (h : V.Drives t) {p : Pkg}
include h

@[simp] theorem Drives.quiet : V.Quiet t := h.notes.quiet

/-- A change of what drives and measures on a tile. -/
@[simp] theorem of_units {f : Tile → Tile} (hf : (f (p.tile t)).noUnits = (p.tile t).noUnits) : V.of (onTile t f p) = V.of p :=
  of_onDrives h (by
    have hd := congrArg (fun x : Tile => x.settled.noDrives) hf
    exact hd) (by
    have hm := congrArg Tile.machines hf
    exact hm)

@[simp] theorem of_onTile_onChan (c : Nat) (f : Chan → Chan) : V.of (onTile t (Tile.onChan c f) p) = V.of p := of_units h rfl

/-! Channels, their faults and drives. -/

@[simp] theorem of_syncChan (c : Nat) : V.of (syncChan t c p) = V.of p := by
  simp [syncChan, h, apply_ite V.of]

@[simp] theorem of_onChan (c : Nat) (f : Chan → Chan) : V.of (onChan t c f p) = V.of p :=
  (of_syncChan h _).trans (of_units h rfl)

@[simp] theorem of_setFault (c flag : Nat) : V.of (setFault t c flag p) = V.of p := by
  unfold setFault
  split <;> simp [h]

@[simp] theorem of_writeDrive (c : Nat) (eng : Bool) (v : Word) (q : Quality) : V.of (writeDrive t c eng v q p).1 = V.of p := by
  unfold writeDrive
  dsimp only
  split
  · rfl
  · split <;> simp [h]

@[simp] theorem of_applyWrite (k : Key) (v : Word) (q : Quality) (hk : keyClass k ≠ 8) : V.of (applyWrite t k v q p) = V.of p := by
  unfold applyWrite
  dsimp only
  split
  · split <;> simp [h]
  · split <;> simp [h]
  · rw [of_putNow h.notes]
    exact of_units h rfl
  · exact absurd ‹_› hk
  · simp [h]

@[simp] theorem of_ownerWrite (k : Key) (v : Word) (q : Quality) (hk : keyClass k ≠ 8) : V.of (ownerWrite t k v q p) = V.of p := by
  unfold ownerWrite
  split <;> simp [h, hk]

@[simp] theorem of_onAllChans (f : Nat → Chan → Chan) : V.of (onAllChans t f p) = V.of p :=
  of_forAll (fun c _ => of_onChan h c _) _

@[simp] theorem of_settleChans : V.of (settleChans t p) = V.of p := by
  simp [settleChans, h]

@[simp] theorem of_chansToSafelight : V.of (chansToSafelight t p) = V.of p := by
  simp [chansToSafelight, h]

@[simp] theorem of_tripChannel (c flag : Nat) : V.of (tripChannel t c flag p) = V.of p := by
  unfold tripChannel
  dsimp only
  split <;> simp [h]

@[simp] theorem of_applyConfig (c : Nat) (r : BitVec 256) : V.of (applyConfig t c r p) = V.of p := by
  unfold applyConfig
  dsimp only
  split
  · rw [of_forAll (fun k _ => of_goOffline h.notes k), of_onChan h]
  · rw [of_onChan h]

@[simp] theorem of_releaseChannel (c : Nat) : V.of (releaseChannel t c p) = V.of p := by
  simp [releaseChannel, h]

@[simp] theorem of_flagSensor (c : Nat) : V.of (flagSensor t c p) = V.of p := by
  simp [flagSensor, h, apply_ite V.of]

/-! Converters: results, triggers and passes. -/

@[simp] theorem of_writeSub0 (c : Nat) (e : BitVec 64) (ref r : Nat) (top iso : Bool) (pins : List (Nat × Int)) (at_ : Nat) : V.of (writeSub0 t c e ref r top iso pins at_ p) = V.of p := by
  simp [writeSub0, h]

@[simp] theorem of_writeResult (b : Bool) (d : EndedEntry) (x : ConvInput) : V.of (writeResult t b d x p) = V.of p := by
  unfold writeResult
  dsimp only
  repeat' split
  all_goals simp [h]

@[simp] theorem of_skipEntry (ref : Nat) : V.of (skipEntry t ref p) = V.of p := by
  unfold skipEntry
  split
  · rfl
  · rw [of_raise h.quiet]
    exact of_units h rfl

/-! Profile engines. -/

@[simp] theorem of_onEng (e : Nat) (f : Engine → Engine) : V.of (onEng t e f p) = V.of p :=
  of_units h rfl

@[simp] theorem of_onRun (e : Nat) (f : EngineRun → EngineRun) : V.of (onRun t e f p) = V.of p := by
  simp [onRun, h]

@[simp] theorem of_engineItems (e : Nat) : V.of (engineItems t e p) = V.of p := by
  simp [engineItems, h]

@[simp] theorem of_showGates (e : Nat) : V.of (showGates t e p) = V.of p := by
  unfold showGates
  dsimp only
  repeat' split
  all_goals simp [h]

@[simp] theorem of_urgentAt (b : Bool) (at_ : Nat) : V.of (urgentAt t b at_ p) = V.of p := by
  unfold urgentAt
  dsimp only
  split <;> simp [h]

@[simp] theorem of_triggerAt (b : Bool) (src at_ : Nat) : V.of (triggerAt t b src at_ p) = V.of p := by
  simp [triggerAt, h, apply_ite V.of]

@[simp] theorem of_finishEntry (b : Bool) (last : Nat) : V.of (finishEntry t b last p) = V.of p := by
  unfold finishEntry
  split <;> simp [h]

@[simp] theorem of_catchUpOne (b : Bool) (at_ : Nat) : V.of (catchUpOne t b at_ p) = V.of p := by
  unfold catchUpOne
  dsimp only
  split
  · rfl
  · rw [of_finishEntry h]
    split
    · exact of_units h (onAdc_noUnits ..)
    · exact of_skipEntry h _

@[simp] theorem of_catchUp (at_ : Nat) : V.of (catchUp t at_ p) = V.of p :=
  of_forAll (fun _ _ => of_catchUpOne h ..) _

@[simp] theorem of_urgent (b : Bool) : V.of (urgent t b p) = V.of p := by
  unfold urgent
  dsimp only
  split <;> simp [h]

@[simp] theorem of_regularTrigger (b : Bool) (src : Nat) : V.of (regularTrigger t b src p) = V.of p := by
  unfold regularTrigger
  dsimp only
  split <;> simp [h]

@[simp] theorem of_trigger (src : Nat) : V.of (trigger t src p) = V.of p := by
  unfold trigger
  split
  · rfl
  · refine of_forAll (fun b q => ?_) _
    dsimp only
    split
    · rfl
    · split <;> simp [h]

@[simp] theorem of_closeWindow (e : Nat) (confirmed : Bool) : V.of (closeWindow t e confirmed p) = V.of p := by
  unfold closeWindow
  dsimp only
  repeat' split
  all_goals simp [h]

@[simp] theorem of_askWindow (e : Nat) (w : Word) : V.of (askWindow t e w p) = V.of p := by
  unfold askWindow
  dsimp only
  rw [of_units h (by simp), of_catchUp h, of_closeWindow h]

@[simp] theorem of_dropHeld (e : Nat) (st : Byte) (hst : st ≠ stCapacity) : V.of (dropHeld t e st p) = V.of p := by
  unfold dropHeld
  split
  · rfl
  · rw [of_finishFire _ _ _ _ hst, of_onEng h]

@[simp] theorem of_endProfile (e : Nat) (st : Byte) (aborted : Bool) (hst : st ≠ stCapacity) : V.of (endProfile t e st aborted p) = V.of p := by
  unfold endProfile
  extract_lets p1 p2 x p3 pl p4 p5
  have h3 : V.of p3 = V.of p := by simp [p3, p2, p1, h]
  have h4 : V.of p4 = V.of p3 := by
    simp only [p4]
    split <;> simp [hst]
  have h5 : V.of p5 = V.of p4 := by
    simp only [p5]
    split <;> simp [h]
  rw [of_engineItems h, h5, h4, h3]

@[simp] theorem of_abortProfile (e flag : Nat) : V.of (abortProfile t e flag p) = V.of p := by
  simp [abortProfile, h]

@[simp] theorem of_startTimed (e : Nat) (b w : Word) : V.of (startTimed t e b w p) = V.of p := by
  simp [startTimed, h, apply_ite V.of]

@[simp] theorem of_chopOff (e : Nat) : V.of (chopOff t e p) = V.of p := by
  simp [chopOff, h]

@[simp] theorem of_zeroTime (e : Nat) (b w : Word) : V.of (zeroTime t e b w p) = V.of p := by
  unfold zeroTime
  dsimp only
  split <;> simp [h]

@[simp] theorem of_runInstrs (fuel : Nat) (e : Nat) : V.of (runInstrs fuel t e p) = V.of p := by
  induction fuel generalizing p with
  | zero => exact of_abortProfile h e 7
  | succ fuel ih =>
    rw [runInstrs]
    dsimp only
    split
    · split
      · split <;> simp [h]
      · split
        · exact of_abortProfile h e 7
        · split
          · simp [h]
          · rw [ih, of_zeroTime h]
    · simp [h]

@[simp] theorem of_nextInstr (e : Nat) : V.of (nextInstr t e p) = V.of p := by
  simp [nextInstr, h]

@[simp] theorem of_startFire (e program : Nat) (b : Word) (src : FireSrc) : V.of (startFire t e program b src p) = V.of p := by
  unfold startFire
  dsimp only
  rw [of_runInstrs h, of_engineItems h]
  exact of_units h rfl

@[simp] theorem of_fire (e program : Nat) (b : Word) (src : FireSrc) : V.of (fire t e program b src p) = V.of p := by
  delta fire
  extract_lets p1 p2
  have h1 : V.of p1 = V.of p := by
    simp only [p1]
    split <;> rfl
  have h2 : V.of p2 = V.of p := by
    simp [p2, h, h1]
  split
  · simp
  · split
    · rw [of_startFire h, h1]
    · split
      · exact h2
      · rw [of_engineItems h, h2]

@[simp] theorem of_cancelProfile (e : Nat) : V.of (cancelProfile t e p) = V.of p := by
  unfold cancelProfile
  extract_lets x p0 p1
  have h0 : V.of p0 = V.of p := of_onEng h e _
  have h1 : V.of p1 = V.of p := by
    simp only [p1]
    split
    · simp [h, h0]
    · split <;> simp [h, h0]
  split <;> simp [h1]

@[simp] theorem of_tripEngine (c : Nat) : V.of (tripEngine t c p) = V.of p := by
  unfold tripEngine
  split <;> simp [h]

@[simp] theorem of_endShutter (e : Nat) : V.of (endShutter t e p) = V.of p := by
  have hidle : V.of (onTile t (fun tl => (releaseClaims (.engine e) tl).onEngine e (fun y => { y with phase := .idle, held := none })) p) = V.of p :=
    of_units h rfl
  unfold endShutter
  dsimp only
  split
  · rw [of_engineItems h, hidle]
  · split
    · rw [of_engineItems h, of_finishFire _ _ _ _ (by decide), of_refusedByPolicy h.notes, hidle]
    · split
      · rw [of_startFire h, hidle]
      · rw [of_engineItems h, of_finishFire _ _ _ _ (by decide), hidle]

@[simp] theorem of_detect (e code : Nat) (hl : V.Later) : V.of (detect t e code p) = V.of p := by
  unfold detect
  dsimp only
  split
  · rfl
  · split
    · rfl
    · split
      · simp [h, hl]
      · split <;> simp [h, hl]

@[simp] theorem of_chopTime (e : Nat) (hl : V.Later) : V.of (chopTime t e p) = V.of p := by
  delta chopTime
  extract_lets x r d1 d2 due p1
  have h1 : V.of p1 = V.of p := of_advanceTo hl _
  split
  · rfl
  · split
    · rw [of_onEng h, h1]
    · split
      · rw [of_abortProfile h, h1]
      · exact h1

@[simp] theorem of_chopEdge (c : Nat) (hl : V.Later) : V.of (chopEdge t c p) = V.of p := by
  unfold chopEdge
  dsimp only
  repeat' split
  all_goals simp [h, hl]

/-! Steppers. -/

@[simp] theorem of_onStep (u : Nat) (f : Stepper → Stepper) : V.of (onStep t u f p) = V.of p :=
  of_units h rfl

@[simp] theorem of_driveGates (u pat : Nat) : V.of (driveGates t u pat p) = V.of p := by
  have hg : ∀ i < 4, keyClass (gateKey (scBase ((p.tile t).stepper u).cfg + i)) ≠ 8 := by
    intro i hi
    have hb : scBase ((p.tile t).stepper u).cfg < 2 ^ 5 := bits_lt ..
    exact keyClass_gateKey_ne (by omega)
  unfold driveGates
  simp only [forAll, show List.range 4 = [0, 1, 2, 3] from rfl, List.foldl]
  rw [of_ownerWrite h _ _ _ (hg 3 (by decide)), of_ownerWrite h _ _ _ (hg 2 (by decide)), of_ownerWrite h _ _ _ (hg 1 (by decide)),
    of_ownerWrite h _ _ _ (hg 0 (by decide))]

@[simp] theorem of_energise (u : Nat) : V.of (energise t u p) = V.of p := by
  simp [energise, h]

@[simp] theorem of_deenergise (u : Nat) : V.of (deenergise t u p) = V.of p := by
  simp [deenergise, h]

@[simp] theorem of_stepperItems (u : Nat) : V.of (stepperItems t u p) = V.of p := by
  simp [stepperItems, h]

@[simp] theorem of_stepperFault (u flag : Nat) : V.of (stepperFault t u flag p) = V.of p := by
  unfold stepperFault
  split <;> simp [h]

@[simp] theorem of_endStepCmd (u : Nat) (st : Byte) (v : Int) (hst : st ≠ stCapacity) : V.of (endStepCmd t u st v p) = V.of p := by
  unfold endStepCmd
  split
  · rfl
  · rw [of_finishStep _ _ _ _ hst, of_onStep h]

@[simp] theorem of_startMove (u : Nat) : V.of (startMove t u p) = V.of p := by
  simp [startMove, h, apply_ite V.of]

@[simp] theorem of_startHome (u : Nat) (dir : Int) : V.of (startHome t u dir p) = V.of p := by
  simp [startHome, h]

@[simp] theorem of_arrived (u : Nat) : V.of (arrived t u p) = V.of p := by
  unfold arrived
  dsimp only
  repeat' split
  all_goals simp [h]

@[simp] theorem of_govern (u : Nat) : V.of (govern t u p) = V.of p := by
  unfold govern
  dsimp only
  split <;> simp [h]

@[simp] theorem of_takeStep (u : Nat) : V.of (takeStep t u p) = V.of p := by
  simp [takeStep, h, apply_ite V.of]

@[simp] theorem of_takeOver (u : Nat) (c : StepCmd) : V.of (takeOver t u c p) = V.of p := by
  simp [takeOver, h]

@[simp] theorem of_stepperMove (u : Nat) (target : Int) (src : FireSrc) : V.of (stepperMove t u target src p) = V.of p := by
  delta stepperMove
  extract_lets x p1 p2
  have h1 : V.of p1 = V.of p := by
    simp only [p1]
    split <;> rfl
  have h2 : V.of p2 = V.of p := by simp [p2, h, h1]
  split
  · simp
  · split
    · simp
    · rw [of_stepperItems h]
      split
      · split <;> simp [h, h2]
      · exact h2

@[simp] theorem of_stepperStop (u : Nat) (src : FireSrc) : V.of (stepperStop t u src p) = V.of p := by
  delta stepperStop
  extract_lets x p1 p2
  have h1 : V.of p1 = V.of p := by
    simp only [p1]
    split <;> rfl
  have h2 : V.of p2 = V.of p := by simp [p2, h, h1]
  split
  · simp
  · rw [of_stepperItems h]
    split <;> simp [h, h2]

@[simp] theorem of_stepperHome (u : Nat) (dir : Int) (c : Ctx) : V.of (stepperHome t u dir c p) = V.of p := by
  unfold stepperHome
  dsimp only
  split <;> simp [h]

@[simp] theorem of_endHome (u : Nat) (ok : Bool) : V.of (endHome t u ok p) = V.of p := by
  unfold endHome
  split <;> simp [h]

@[simp] theorem of_homingStep (u : Nat) : V.of (homingStep t u p) = V.of p := by
  simp [homingStep, h]

@[simp] theorem of_homeDue (u : Nat) : V.of (homeDue t u p) = V.of p := by
  simp [homeDue, h, apply_ite V.of]

@[simp] theorem of_tripStepper (c : Nat) : V.of (tripStepper t c p) = V.of p := by
  unfold tripStepper
  split <;> simp [h]

@[simp] theorem of_configStepper (u : Nat) (r : BitVec 256) : V.of (configStepper t u r p) = V.of p := by
  unfold configStepper
  extract_lets x old new first moved p0 p1 p2 p3
  have h0 : V.of p0 = V.of p := by
    simp only [p0]
    split <;> simp [h]
  have h1 : V.of p1 = V.of p := by rw [of_units h (setClaims_noUnits ..), h0]
  have h2 : V.of p2 = V.of p := (of_forAll (fun g _ => of_releaseChannel h g) _).trans h1
  have h3 : V.of p3 = V.of p := (of_onStep h u _).trans h2
  split <;> simp [h, h3]

/-! Fans. -/

@[simp] theorem of_onFanU (u : Nat) (f : Fan → Fan) : V.of (onFanU t u f p) = V.of p :=
  of_units h rfl

@[simp] theorem of_fanFlag (u i : Nat) (on : Bool) : V.of (fanFlag t u i on p) = V.of p := by
  unfold fanFlag
  dsimp only
  split <;> simp [h]

@[simp] theorem of_fanItems (u : Nat) : V.of (fanItems t u p) = V.of p := by
  simp [fanItems, h, apply_ite V.of]

@[simp] theorem of_driveFan (u : Nat) : V.of (driveFan t u p) = V.of p := by
  unfold driveFan
  extract_lets x p1 p2
  have h1 : V.of p1 = V.of p := of_onFanU h u _
  have h2 : V.of p2 = V.of p1 := by
    simp only [p2]
    split
    · rfl
    · exact of_ownerWrite h _ _ _ (keyClass_gateKey_ne (Nat.lt_trans (bits_lt x.cfg 4 0) (by decide)))
  rw [of_fanItems h, h2, h1]

@[simp] theorem of_startFan (u : Nat) : V.of (startFan t u p) = V.of p := by
  simp [startFan, h]

@[simp] theorem of_fanOff (u : Nat) : V.of (fanOff t u p) = V.of p := by
  simp [fanOff, h]

@[simp] theorem of_releaseFan (u : Nat) : V.of (releaseFan t u p) = V.of p := by
  unfold releaseFan
  rw [of_releaseChannel h]
  exact of_units h rfl

@[simp] theorem of_fanFailed (u : Nat) : V.of (fanFailed t u p) = V.of p := by
  unfold fanFailed
  dsimp only
  split <;> simp [h]

@[simp] theorem of_fanStarted (u : Nat) : V.of (fanStarted t u p) = V.of p := by
  simp [fanStarted, h]

@[simp] theorem of_fanObey (u : Nat) : V.of (fanObey t u p) = V.of p := by
  unfold fanObey
  dsimp only
  repeat' split
  all_goals simp [h]

@[simp] theorem of_fanEdge (c : Nat) : V.of (fanEdge t c p) = V.of p :=
  of_units h rfl

@[simp] theorem of_readSupply (u : Nat) : V.of (readSupply t u p) = V.of p := by
  unfold readSupply
  dsimp only
  split <;> simp [h]

@[simp] theorem of_captureFails (u : Nat) : V.of (captureFails t u p) = V.of p := by
  unfold captureFails
  split <;> simp [h]

@[simp] theorem of_tachLost (u : Nat) : V.of (tachLost t u p) = V.of p := by
  unfold tachLost
  dsimp only
  split <;> simp [h]

@[simp] theorem of_fanStall (u : Nat) : V.of (fanStall t u p) = V.of p := by
  simp [fanStall, h]

@[simp] theorem of_judgeLoss (u : Nat) : V.of (judgeLoss t u p) = V.of p := by
  simp [judgeLoss, h, apply_ite V.of]

@[simp] theorem of_fanUpdate (u : Nat) : V.of (fanUpdate t u p) = V.of p := by
  unfold fanUpdate
  extract_lets x sp supply measure y z p1
  have h1 : V.of p1 = V.of p := by simp [p1, h]
  repeat' split
  all_goals simp [h, h1]

@[simp] theorem of_tripFan (c : Nat) : V.of (tripFan t c p) = V.of p := by
  refine of_forAll (fun u q => ?_) _
  dsimp only
  split <;> simp [h]

@[simp] theorem of_untripFan (c : Nat) : V.of (untripFan t c p) = V.of p := by
  refine of_forAll (fun u q => ?_) _
  dsimp only
  split
  · split <;> simp [h]
  · rfl

@[simp] theorem of_tripFans : V.of (tripFans t p) = V.of p :=
  of_forAll (fun c _ => of_tripFan h c) _

@[simp] theorem of_startLevel (u level : Nat) : V.of (startLevel t u level p) = V.of p := by
  simp [startLevel, h]

@[simp] theorem of_ageingFlags (u : Nat) (i : Word) : V.of (ageingFlags t u i p) = V.of p := by
  simp [ageingFlags, h, apply_ite V.of]

@[simp] theorem of_ageFan (u : Nat) : V.of (ageFan t u p) = V.of p := by
  unfold ageFan
  dsimp only
  repeat' split
  all_goals simp [h]

@[simp] theorem of_configFan (u : Nat) (r : BitVec 256) : V.of (configFan t u r p) = V.of p := by
  unfold configFan
  extract_lets x was leaves p1 p2
  have h1 : V.of p1 = V.of p := by
    simp only [p1]
    split <;> simp [h]
  have h2 : V.of p2 = V.of p := (of_units h rfl).trans h1
  split <;> simp [h, h1, h2]

/-! Angle trackers. -/

@[simp] theorem of_onTrk (k : Nat) (f : Tracker → Tracker) : V.of (onTrk t k f p) = V.of p :=
  of_units h rfl

@[simp] theorem of_trackerItems (k : Nat) : V.of (trackerItems t k p) = V.of p := by
  simp [trackerItems, h]

@[simp] theorem of_loseSync (k : Nat) : V.of (loseSync t k p) = V.of p := by
  simp [loseSync, h]

@[simp] theorem of_fireAngle (k : Nat) (f : Firing) : V.of (fireAngle t k f p) = V.of p := by
  unfold fireAngle
  dsimp only
  repeat' split
  all_goals simp [h]

@[simp] theorem of_fireDue (k : Nat) (f : Firing → Bool) : V.of (fireDue t k f p) = V.of p := by
  unfold fireDue
  rw [of_forAll (fun f _ => of_fireAngle h k f)]
  exact of_onTrk h k _

@[simp] theorem of_scheduleTooth (k tk : Nat) : V.of (scheduleTooth t k tk p) = V.of p := by
  simp [scheduleTooth, h, apply_ite V.of]

@[simp] theorem of_toothFirings (k tk : Nat) : V.of (toothFirings t k tk p) = V.of p := by
  simp [toothFirings, h]

@[simp] theorem of_acceptTooth (k n at_ : Nat) : V.of (acceptTooth t k n at_ p) = V.of p := by
  simp [acceptTooth, h]

@[simp] theorem of_anomaly (k : Nat) : V.of (anomaly t k p) = V.of p := by
  unfold anomaly
  dsimp only
  split <;> simp [h]

@[simp] theorem of_synthTooth (k n at_ : Nat) : V.of (synthTooth t k n at_ p) = V.of p := by
  simp [synthTooth, h]

@[simp] theorem of_emptyWindow (k : Nat) : V.of (emptyWindow t k p) = V.of p := by
  simp [emptyWindow, h, apply_ite V.of]

@[simp] theorem of_acquire (k at_ : Nat) (i j : Option Nat) : V.of (acquire t k at_ i j p) = V.of p := by
  simp [acquire, h, apply_ite V.of]

@[simp] theorem of_rejectEdge (k : Nat) : V.of (rejectEdge t k p) = V.of p := by
  simp [rejectEdge, h]

@[simp] theorem of_followEdge (early : Bool) (fuel : Nat) (k : Nat) (at_ : Nat) : V.of (followEdge early fuel t k at_ p) = V.of p := by
  induction fuel generalizing p with
  | zero => rfl
  | succ fuel ih =>
    rw [followEdge]
    dsimp only
    split
    · rfl
    · split
      · rw [ih, of_emptyWindow h]
      · split
        · simp [h]
        · split <;> simp [h]

@[simp] theorem of_trackerEdge (k : Nat) : V.of (trackerEdge t k p) = V.of p := by
  simp [trackerEdge, h, apply_ite V.of]

@[simp] theorem of_trackersEdge (c : Nat) (level : Bool) : V.of (trackersEdge t c level p) = V.of p := by
  refine of_forAll (fun k q => ?_) _
  dsimp only
  split <;> simp [h]

/-! What a trip, an edge or a measurement sets going. -/

@[simp] theorem of_faultOwners (c : Nat) : V.of (faultOwners t c p) = V.of p := by
  simp [faultOwners, h]

@[simp] theorem of_tripOff (c flag : Nat) : V.of (tripOff t c flag p) = V.of p := by
  simp [tripOff, h]

@[simp] theorem of_driveBack (c : Nat) : V.of (driveBack t c p) = V.of p := by
  simp [driveBack, h]

@[simp] theorem of_takeLevel (c : Nat) : V.of (takeLevel t c p) = V.of p := by
  unfold takeLevel
  dsimp only
  split <;> simp [h]

@[simp] theorem of_takePulse (c : Nat) (level : Bool) : V.of (takePulse t c level p) = V.of p := by
  unfold takePulse
  dsimp only
  split <;> simp [h]

@[simp] theorem of_comparatorChange (c : Nat) (level : Bool) (hl : V.Later) : V.of (comparatorChange t c level p) = V.of p := by
  simp [comparatorChange, h, hl, apply_ite V.of]

@[simp] theorem of_pinVoltage (w : Nat) (uv : Int) (hl : V.Later) : V.of (pinVoltage t w uv p) = V.of p := by
  refine of_forAll (fun c q => ?_) _
  dsimp only
  split
  · rfl
  · exact of_comparatorChange h c _ hl

@[simp] theorem of_startInj (b : Bool) (mode trig : Byte) : V.of (startInj t b mode trig p) = V.of p := by
  simp [startInj, h, apply_ite V.of]

end

end View

end Sys2Proof.Machine
end

section
/-!
PROOFS. Rows that a view does not see, and the events of a tile's drives.
-/

namespace Sys2Proof.Machine

/-- What `run` makes of a state is a package that the view cannot tell from the one the step found. -/
def View.Keeps (V : View) (run : State → Host.Outcome State Fault Refusal) : Prop :=
  ∀ s t, run s = .next t → ∃ q, t = s.after q ∧ V.of q = V.of s.start

namespace View

variable {V : View}

theorem keeps_lift {f : Pkg → Pkg} (hf : ∀ p, V.of (f p) = V.of p) : V.Keeps (lift f) := by
  intro s t hrun
  cases hrun
  exact ⟨_, rfl, hf _⟩

theorem keeps_liftTile {u : TileId} {f : Nat → Pkg → Pkg} (hf : ∀ p, V.of (f u.toNat p) = V.of p) : V.Keeps (liftTile u f) := by
  intro s t hrun
  unfold liftTile at hrun
  split at hrun
  · exact keeps_lift hf s t hrun
  · cases hrun

/-- A change of the counters of a tile. -/
theorem of_onNoCounters {t : Nat} (hc : V.Forgets t Tile.noCounters) {f : Tile → Tile} {p : Pkg}
    (hf : (f (p.tile t)).noCounters = (p.tile t).noCounters) : V.of (onTile t f p) = V.of p :=
  of_onTile hc hf (by
    have hm := congrArg Tile.machines hf
    exact hm)

/-- The same for a view of later instants. -/
theorem of_onCounters (hl : V.Later) {t : Nat} {f : Tile → Tile} {p : Pkg} (hf : (f (p.tile t)).noCounters = (p.tile t).noCounters) :
    V.of (onTile t f p) = V.of p := of_onNoCounters (hl.tile t) hf

section
variable {u : TileId} (hl : V.Later) (h : V.Drives u.toNat)
include hl h

/-! Events of channels. -/

theorem keeps_comparatorEdge (pin : BitVec 5) (pinUv : Int) : V.Keeps (execComparatorEdge u pin pinUv) := keeps_liftTile fun p => by
  split <;> simp [h, hl]

theorem keeps_inputFilterExpiry (ch : BitVec 5) : V.Keeps (execInputFilterExpiry u ch) := keeps_liftTile fun p => by
  dsimp only
  split <;> simp [h, hl]

omit hl in
theorem keeps_isolationOpen (ch : BitVec 5) : V.Keeps (execIsolationOpen u ch) := keeps_liftTile fun p => by
  dsimp only
  split <;> simp [h]

theorem keeps_isolationClose (ch : BitVec 5) : V.Keeps (execIsolationClose u ch) := keeps_liftTile fun p => by
  dsimp only
  split <;> simp [h, hl]

theorem keeps_blankingEnd (ch : BitVec 5) : V.Keeps (execBlankingEnd u ch) := keeps_liftTile fun p => by
  dsimp only
  split <;> simp [h, hl]

theorem keeps_limitTrip (ch : BitVec 5) : V.Keeps (execLimitTrip u ch) := keeps_liftTile fun p => by
  dsimp only
  split <;> simp [h, hl]

theorem keeps_channelRetry (ch : BitVec 5) : V.Keeps (execChannelRetry u ch) := keeps_liftTile fun p => by
  dsimp only
  split
  · rfl
  · split <;> simp [h, hl]

theorem keeps_channelAttemptReset (ch : BitVec 5) : V.Keeps (execChannelAttemptReset u ch) := keeps_liftTile fun p => by
  dsimp only
  split <;> simp [h, hl]

omit hl in
theorem keeps_openLoad (ch : BitVec 5) : V.Keeps (execOpenLoad u ch) := keeps_liftTile fun p => by
  dsimp only
  split
  · split <;> simp [h]
  · rfl

omit hl in
theorem keeps_gateFault (ch : BitVec 5) : V.Keeps (execGateFault u ch) := keeps_liftTile fun p => by
  dsimp only
  split <;> simp [h]

theorem keeps_holdLimitExpiry (ch : BitVec 5) : V.Keeps (execHoldLimitExpiry u ch) := keeps_liftTile fun p => by
  dsimp only
  split <;> simp [h, hl]

/-- A budget trip, where the view does not see when a budget tripped last. -/
theorem keeps_budgetTrip (hb : V.Forgets u.toNat (fun x => { x with budgetAt := [] })) (group : BitVec 2) (amps : List Int) :
    V.Keeps (execBudgetTrip u group amps) := keeps_liftTile fun p => by
  split
  · rfl
  · unfold budgetActs
    dsimp only
    rw [of_forAll (fun c _ => of_tripOff h c fBudget), of_onTile hb rfl rfl, of_advanceTo hl]

omit hl in
/-- A crossing of the VHV threshold, where the view does not see on which side VHV is. -/
theorem keeps_vhvThreshold (hv : V.Forgets u.toNat (fun x => { x with supply := { x.supply with vhvLow := false } })) (low : Bool) :
    V.Keeps (execVhvThreshold u low) := keeps_liftTile fun p => by
  have hlow : V.of (onAllChans u.toNat (fun _ => vhvChan p.now low)
      (onTile u.toNat (fun tl => { tl with supply := { tl.supply with vhvLow := low } }) p)) = V.of p :=
    (of_onAllChans h _).trans (of_onTile hv rfl rfl)
  dsimp only
  split
  · rfl
  · split
    · rw [of_forAll (fun c _ => by simp [h]), hlow]
    · exact hlow

/-! Events of converters. -/

omit hl in
theorem keeps_seqTrigger (adc : Bool) (src : Byte) : V.Keeps (execSeqTrigger u adc src) := keeps_liftTile fun p => by
  split <;> simp [h]

omit hl in
theorem keeps_urgentTrigger (adc : Bool) (src : Byte) : V.Keeps (execUrgentTrigger u adc src) := keeps_liftTile fun p => by
  split <;> simp [h]

theorem keeps_seqEntryResult (adc : Bool) (input : ConvInput) : V.Keeps (execSeqEntryResult u adc input) := keeps_liftTile fun p => by
  dsimp only
  split
  · rfl
  · split
    · simp [h, hl]
    · split
      · rfl
      · rw [of_finishEntry h]
        split <;> simp [h, hl]

theorem keeps_refSettled (ref : BitVec 2) : V.Keeps (execRefSettled u ref) := keeps_liftTile fun p => by
  dsimp only
  split
  · rfl
  · refine (of_units h (conv_noUnits ..)).trans ((of_catchUp h _).trans ?_)
    split <;> simp [hl]

omit hl in
theorem keeps_referenceLost (ref : BitVec 2) : V.Keeps (execReferenceLost u ref) := keeps_liftTile fun p => by
  dsimp only
  split
  · rfl
  · exact (of_units h (conv_noUnits ..)).trans (of_catchUp h _)

/-! Events of profile engines and angle trackers. -/

theorem keeps_instructionTimeEnd (engine : BitVec 3) : V.Keeps (execInstructionTimeEnd u engine) := keeps_liftTile fun p => by
  dsimp only
  split <;> simp [h, hl]

theorem keeps_chopOffTime (engine : BitVec 3) : V.Keeps (execChopOffTime u engine) :=
  keeps_liftTile fun _ => of_chopTime h _ hl

theorem keeps_detectSample (engine : BitVec 3) (code : BitVec 14) : V.Keeps (execDetectSample u engine code) :=
  keeps_liftTile fun p => by
    split <;> simp [h, hl]

theorem keeps_detectWindowEnd (engine : BitVec 3) : V.Keeps (execDetectWindowEnd u engine) := keeps_liftTile fun p => by
  split <;> simp [h, hl]

theorem keeps_shutterEnd (engine : BitVec 3) : V.Keeps (execShutterEnd u engine) := keeps_liftTile fun p => by
  dsimp only
  split <;> simp [h, hl]

theorem keeps_toothWindowClose (tracker : BitVec 1) : V.Keeps (execToothWindowClose u tracker) := keeps_liftTile fun p => by
  dsimp only
  split <;> simp [h, hl]

theorem keeps_angleFiringDue (tracker : BitVec 1) : V.Keeps (execAngleFiringDue u tracker) := keeps_liftTile fun p => by
  dsimp only
  split <;> simp [h, hl]

/-! Events of steppers. -/

theorem keeps_stepDue (unit : BitVec 2) : V.Keeps (execStepDue u unit) := keeps_liftTile fun p => by
  dsimp only
  split <;> simp [h, hl]

theorem keeps_dwellEnd (unit : BitVec 2) : V.Keeps (execDwellEnd u unit) := keeps_liftTile fun p => by
  dsimp only
  split <;> simp [h, hl]

theorem keeps_homeStep (unit : BitVec 2) : V.Keeps (execHomeStep u unit) := keeps_liftTile fun p => by
  dsimp only
  split <;> simp [h, hl]

theorem keeps_holdTimeEnd (unit : BitVec 2) : V.Keeps (execHoldTimeEnd u unit) := keeps_liftTile fun p => by
  dsimp only
  split
  · rfl
  · split <;> simp [h, hl]

/-! Events of fans. -/

theorem keeps_tachSpeedUpdate (unit : BitVec 2) : V.Keeps (execTachSpeedUpdate u unit) := keeps_liftTile fun p => by
  dsimp only
  split <;> simp [h, hl]

theorem keeps_tachLostTimeout (unit : BitVec 2) : V.Keeps (execTachLostTimeout u unit) := keeps_liftTile fun p => by
  dsimp only
  split
  · split <;> simp [h, hl]
  · rfl

theorem keeps_startWindowEnd (unit : BitVec 2) : V.Keeps (execStartWindowEnd u unit) := keeps_liftTile fun p => by
  dsimp only
  split
  · rfl
  · split <;> simp [h, hl]

theorem keeps_backoffEnd (unit : BitVec 2) : V.Keeps (execBackoffEnd u unit) := keeps_liftTile fun p => by
  dsimp only
  split <;> simp [h, hl]

theorem keeps_tachLossSecond (unit : BitVec 2) : V.Keeps (execTachLossSecond u unit) := keeps_liftTile fun p => by
  dsimp only
  split <;> simp [h, hl]

theorem keeps_fanAttemptReset (unit : BitVec 2) : V.Keeps (execFanAttemptReset u unit) := keeps_liftTile fun p => by
  dsimp only
  split
  · split <;> simp [h, hl]
  · rfl

theorem keeps_ageingSample (unit : BitVec 2) : V.Keeps (execAgeingSample u unit) := keeps_liftTile fun p => by
  dsimp only
  split <;> simp [h, hl]

end

/-! A self test. -/

/-- The tests that a tile runs. -/
theorem of_onTests {t : Nat} {p : Pkg} (ht : V.Forgets t (fun x => { x with counters := { x.counters with tests := [] } })) (h : V.Drives t)
    (f : List (Ctx × Word) → List (Ctx × Word)) : V.of (onTests t f p) = V.of p := by
  have hnoted : ∀ q : Pkg, V.of (onTile t (fun tl => { tl with counters := { tl.counters with tests := f tl.counters.tests } }) q) = V.of q :=
    fun _ => of_onTile ht rfl rfl
  unfold onTests
  dsimp only
  split
  · exact hnoted p
  · rw [of_units h, hnoted, of_catchUp h]
    split
    · exact stopConverters_noUnits ..
    · exact resumeConverters_noUnits ..

theorem keeps_selfTestComplete {u : TileId} (ht : V.Forgets u.toNat (fun x => { x with counters := { x.counters with tests := [] } }))
    (h : V.Drives u.toNat) (failMask : Word) : V.Keeps (execSelfTestComplete u failMask) := keeps_liftTile fun p => by
  split
  · rfl
  · rw [of_reply, of_onTests ht h]

end View

end Sys2Proof.Machine
end

section
/-!
PROOFS. What an event of one tile leaves as it was: the loop engine, the rings, the counters, the entropy source, the supply and the
advice; and the frame of all of them.
-/

namespace Sys2Proof.Machine

/-- A tile without its governor. -/
def Tile.noGov (x : Tile) : Tile := { x with gov := {} }

namespace View

variable {V : View}

section
variable {t : Nat} {p : Pkg}

/-! The loop engine. -/

/-- A view that does not see the loop engine does not see the governor. -/
@[simp] theorem Loops.gov (h : V.Loops t) : V.Forgets t Tile.noGov := fun x y hxy => h.tile x y (by
  have hg := congrArg (fun z : Tile => z.settled.noLoops) hxy
  exact hg)

@[simp] theorem of_onGov (hg : V.Forgets t Tile.noGov) (f : Governor → Governor) : V.of (onGov t f p) = V.of p := of_onTile hg rfl rfl
@[simp] theorem of_onGrp (h : V.Loops t) (g : Nat) (f : Group → Group) : V.of (onGrp t g f p) = V.of p := of_onLoops h rfl rfl
@[simp] theorem of_loopEnds (h : V.Loops t) : V.of (loopEnds t p) = V.of p := of_onLoops h rfl rfl
@[simp] theorem of_onSlot (h : V.Loops t) (n : Nat) (f : Slot → Slot) : V.of (onTile t (Tile.onSlot n f) p) = V.of p := of_onLoops h rfl rfl
@[simp] theorem of_recordSlack (h : V.Loops t) (g slack : Nat) : V.of (recordSlack t g slack p) = V.of p := of_onGrp h g _

@[simp] theorem of_raiseCore (h : V.Forgets t Tile.noGov) (hu : V.Uncounted) (mv : Nat) : V.of (raiseCore t mv p) = V.of p := by
  unfold raiseCore
  dsimp only
  split
  · rfl
  · split
    · exact (of_onShared (hu _ _)).trans (of_onGov h _)
    · exact of_onGov h _

@[simp] theorem of_govSlack (h : V.Forgets t Tile.noGov) (hu : V.Uncounted) (slack : Nat) : V.of (govSlack t slack p) = V.of p := by
  unfold govSlack
  extract_lets g p1 soon
  have h1 : V.of p1 = V.of p := of_onGov h _
  split
  · rw [of_raiseCore h hu, h1]
  · exact h1

@[simp] theorem of_workDone (h : V.Loops t) (hu : V.Uncounted) (g : Nat) : V.of (workDone t g p) = V.of p := by
  unfold workDone
  dsimp only
  split <;> simp [h, hu]

theorem loopLoupe_noCounters (chain spoiled : Bool) (addr latency now : Nat) (x : Tile) :
    (loopLoupe chain spoiled addr latency now x).noCounters = x.noCounters := by
  unfold loopLoupe
  dsimp only
  split <;> rfl

@[simp] theorem of_loopToken (hl : V.Later) (slot : Nat) (spoiled : Bool) : V.of (loopToken t slot spoiled p) = V.of p :=
  of_onCounters hl (by simp [loopLoupe_noCounters])

/-! Rings, counters and the entropy source. -/

@[simp] theorem of_recordPoint (h : V.Quiet t) (i : Nat) (x : Rec) (at_ : Nat) : V.of (recordPoint t i x at_ p).1 = V.of p :=
  of_notes h (notes_recordPoint ..)

@[simp] theorem of_flushWaits (h : V.Notes t) (i fuel : Nat) : V.of (flushWaits t i fuel p) = V.of p := by
  induction fuel generalizing p with
  | zero => rfl
  | succ fuel ih =>
    rw [flushWaits]
    split
    · split
      · rw [ih, of_overflowed h, of_recordPoint h.quiet]
        exact of_onNotes h rfl rfl
      · rfl
    · rfl

@[simp] theorem of_sourceArrived (h : V.Notes t) (i at_ : Nat) (r : Rec) : V.of (sourceArrived t i at_ r p) = V.of p := by
  unfold sourceArrived
  dsimp only
  split
  · rfl
  · exact (of_flushWaits h _ _).trans (of_onNotes h rfl rfl)

@[simp] theorem of_setRing (h : V.Notes t) (i : Nat) (r : Ring) : V.of (setRing t i r p) = V.of p := of_onNotes h rfl rfl

@[simp] theorem of_firePeriod (h : V.Notes t) (i : Nat) (r : Ring) : V.of (firePeriod t i r p) = V.of p := by
  unfold firePeriod
  dsimp only
  split
  · rw [of_overflowed h, of_recordPoint h.quiet, of_setRing h]
  · exact (of_issue h.quiet _ _ _ _ _).trans ((of_onNotes h rfl rfl).trans (of_setRing h i _))

@[simp] theorem of_takeWrap (hl : V.Later) (h : V.Quiet t) (n : Nat) : V.of (takeWrap t n p) = V.of p := by
  have hcarry : ∀ c, V.of (onTile t (fun x => { x with counters := { x.counters with carries := x.counters.carries.erase c } }) p) = V.of p :=
    fun _ => of_onCounters hl rfl
  unfold takeWrap
  dsimp only
  split
  · rfl
  · split
    · refine (of_onCounters hl ?_).trans (hcarry _)
      simp
    · split
      · refine (of_onCounters hl ?_).trans (hcarry _)
        simp
      · refine (of_raise h _).trans ((of_onCounters hl ?_).trans (hcarry _))
        simp

end

section
variable {t : Nat} {p : Pkg} (h : V.Notes t) (he : V.Forgets t (fun x => { x with entropy := {} }))
include he

theorem of_onEntropy (f : Entropy → Entropy) : V.of (onEntropy t f p) = V.of p := of_onTile he rfl rfl

include h

theorem of_serveEntropy (l : List EntropyWait) : V.of (serveEntropy t l p) = V.of p := by
  induction l generalizing p with
  | nil => exact of_onEntropy he _
  | cons w rest ih =>
    rw [serveEntropy]
    split
    · rw [ih, of_denyCommit h]
    · split
      · rw [ih, of_reply, of_onEntropy he]
      · exact of_onEntropy he _

theorem of_healthFailure : V.of (healthFailure t p) = V.of p := by
  have hends : ∀ q : Pkg, ∀ l : List EntropyWait, V.of (raise t 91 (forAll l (fun w => finish w.ctx 0xB3 stNotReady t) q)) = V.of q :=
    fun q l => (of_raise h.quiet _).trans (of_forAll (fun _ _ => of_finish _ _ _ (by decide)) l)
  unfold healthFailure
  dsimp only
  split
  · rw [of_raise h.quiet, hends, of_onEntropy he]
  · rw [hends, of_onEntropy he]

theorem of_conditionSamples (samples : BitVec 1024) : V.of (conditionSamples t samples p) = V.of p := by
  unfold conditionSamples
  dsimp only
  split
  · exact of_onEntropy he _
  · rw [of_serveEntropy h he]
    split
    · rw [of_raise h.quiet, of_onEntropy he, of_onEntropy he]
    · exact of_onEntropy he _

end

/-! The supply, and advice. -/

section
variable {t : Nat} {p : Pkg}

theorem of_onSupply (hs : V.Forgets t (fun x => { x with supply := {} })) (f : Supply → Supply) : V.of (onSupply t f p) = V.of p :=
  of_onTile hs rfl rfl

@[simp] theorem of_measureDie (h : V.Notes t) (hs : V.Forgets t (fun x => { x with supply := {} })) : V.of (measureDie t p) = V.of p := by
  unfold measureDie
  extract_lets die p1 out p2
  have h1 : V.of p1 = V.of p := of_foldl (fun _ _ => of_putNow h ..) _
  have h2 : V.of p2 = V.of p := (of_onSupply hs (fun s => { s with outside := out })).trans h1
  split
  · rw [of_raise h.quiet, h2]
  · exact h2

theorem of_onAdvice (ha : V.Forgets t (fun x => { x with pred := {} })) (f : Advice → Advice) : V.of (onAdvice t f p) = V.of p :=
  of_onTile ha rfl rfl

/-- The three variables of advice. -/
theorem adviceKeys_class {var : Nat} {k : Key} (hk : k ∈ adviceKeys var) : keyClass k = 7 := by
  obtain ⟨i, hi, rfl⟩ := List.mem_map.mp hk
  have hlt : i < 3 := List.mem_range.mp hi
  unfold key keyClass
  omega

/-- A write of a point that has no owner's work behind it. -/
theorem of_ownerWrite_of_plain (h : V.Notes t) {k : Key} (hk : keyClass k = 7) (v : Word) (q : Quality) :
    V.of (ownerWrite t k v q p) = V.of p := by
  unfold ownerWrite applyWrite
  split
  · exact of_countOverridden h
  · simp only [hk]
    exact of_putNow h ..

theorem of_writeAdvice (h : V.Notes t) (vs : List Word) (q : Quality) : V.of (writeAdvice t vs q p) = V.of p := by
  unfold writeAdvice
  have hkeys : ∀ x ∈ (adviceKeys (p.tile t).pred.advice.var).zip vs, keyClass x.1 = 7 :=
    fun x hx => adviceKeys_class (List.of_mem_zip hx).1
  generalize (adviceKeys (p.tile t).pred.advice.var).zip vs = l at hkeys
  induction l generalizing p with
  | nil => rfl
  | cons x xs ih =>
    rw [forAll, List.foldl_cons]
    exact (ih (fun y hy => hkeys y (List.mem_cons_of_mem _ hy))).trans (of_ownerWrite_of_plain h (hkeys x (List.mem_cons_self ..)) _ _)

theorem of_restoreAdvice (h : V.Notes t) (ha : V.Forgets t (fun x => { x with pred := {} })) : V.of (restoreAdvice t p) = V.of p := by
  unfold restoreAdvice
  dsimp only
  rw [of_onAdvice ha]
  split
  · exact of_writeAdvice h _ _
  · exact of_writeAdvice h _ _

end

/-! The events. -/

section
variable {u : TileId} (hl : V.Later)
include hl

theorem keeps_slotEvaluation (h : V.Loops u.toNat) (hu : V.Uncounted) (slot : BitVec 9) : V.Keeps (execSlotEvaluation u slot) :=
  keeps_liftTile fun p => by
    dsimp only
    split
    · simp [h, hl]
    · split <;> simp [h, hl, hu]

theorem keeps_governorWindow (h : V.Loops u.toNat) : V.Keeps (execGovernorWindow u) := keeps_liftTile fun p => by
  dsimp only
  split <;> simp [h, hl]

theorem keeps_ringPeriodTrigger (h : V.Notes u.toNat) (ring : BitVec 15) : V.Keeps (execRingPeriodTrigger u ring) :=
  keeps_liftTile fun p => by
    split
    · rfl
    · split <;> simp [h, hl]

theorem keeps_ringSourceTimeout (h : V.Notes u.toNat) (ring : BitVec 15) : V.Keeps (execRingSourceTimeout u ring) :=
  keeps_liftTile fun p => by
    dsimp only
    split
    · split <;> simp [h, hl]
    · rfl

theorem keeps_counterWindow (n : BitVec 3) (received sent : Nat) : V.Keeps (execCounterWindow u n received sent) :=
  keeps_liftTile fun p => by
    dsimp only
    split
    · rfl
    · exact (of_onCounters hl rfl).trans (of_advanceTo hl _)

theorem keeps_counterWrap (h : V.Quiet u.toNat) (n : BitVec 3) : V.Keeps (execCounterWrap u n) :=
  keeps_liftTile fun _ => of_takeWrap hl h _

theorem keeps_entropyWaitExpiry (h : V.Notes u.toNat) (he : V.Forgets u.toNat (fun x => { x with entropy := {} })) :
    V.Keeps (execEntropyWaitExpiry u) := keeps_liftTile fun p => by
  dsimp only
  split
  · rfl
  · rw [of_serveEntropy h he, of_finish _ _ _ (by decide), of_onEntropy he, of_advanceTo hl]

theorem keeps_adviceExpiry (h : V.Notes u.toNat) (ha : V.Forgets u.toNat (fun x => { x with pred := {} })) : V.Keeps (execAdviceExpiry u) :=
  keeps_liftTile fun p => by
    dsimp only
    split
    · rfl
    · split
      · rfl
      · split
        · rw [of_restoreAdvice h ha, of_advanceTo hl]
        · rw [of_onAdvice ha, of_writeAdvice h, of_advanceTo hl]

end

section
variable {u : TileId} (h : V.Notes u.toNat)
include h

theorem keeps_entropyCondition (he : V.Forgets u.toNat (fun x => { x with entropy := {} })) (samples : BitVec 1024) :
    V.Keeps (execEntropyCondition u samples) := keeps_liftTile fun p => by
  dsimp only
  split
  · rfl
  · split
    · exact of_healthFailure h he
    · rw [of_conditionSamples h he, of_onEntropy he]

theorem keeps_entropyHealthFailure (he : V.Forgets u.toNat (fun x => { x with entropy := {} })) : V.Keeps (execEntropyHealthFailure u) :=
  keeps_liftTile fun p => by
    split
    · rfl
    · exact of_healthFailure h he

theorem keeps_dieTemperature (hs : V.Forgets u.toNat (fun x => { x with supply := {} })) (t0 t1 t2 t3 : Word) :
    V.Keeps (execDieTemperature u t0 t1 t2 t3) := keeps_liftTile fun p => by
  dsimp only
  split
  · rw [of_measureDie h hs, of_onSupply hs]
  · exact of_onSupply hs _

theorem keeps_powerFailWarning (hs : V.Forgets u.toNat (fun x => { x with supply := {} })) (active : Bool) :
    V.Keeps (execPowerFailWarning u active) := keeps_liftTile fun p => by
  unfold raiseSupply
  dsimp only
  split
  · split
    · exact of_onSupply hs _
    · exact (of_raise h.quiet _).trans (of_onSupply hs _)
  · exact of_onSupply hs _

end

end View

end Sys2Proof.Machine
end

section
namespace Sys2Proof.Machine

/-! The frames of the statements, as views. -/

/-- What `onlyParts` compares. -/
def nowView (shared : Shared → Shared) (tile : Nat → Tile → Tile) : View :=
  partsView (fun p => { p with sh := shared p.sh }) tile (fun _ _ => MachineSt.noted) (fun _ _ _ => rfl)

/-- What `onlyPartsLater` compares. -/
def laterView (shared : Shared → Shared) (tile : Nat → Tile → Tile) : View :=
  partsView (fun p => { p with now := 0, sh := { shared p.sh with rtc := {} } }) (fun u x => { tile u x with counters := {} })
    (fun _ _ => MachineSt.noted) (fun _ _ _ => rfl)

section
variable {shared : Shared → Shared} {tile : Nat → Tile → Tile} {run : State → Host.Outcome State Fault Refusal} {s t : State}

theorem onlyParts_of_keeps (h : (nowView shared tile).Keeps run) (hrun : run s = .next t) : onlyParts shared tile s t := by
  obtain ⟨q, rfl, hq⟩ := h s t hrun
  exact sameParts_of_view hq

theorem onlyPartsLater_of_keeps (h : (laterView shared tile).Keeps run) (hrun : run s = .next t) : onlyPartsLater shared tile s t := by
  obtain ⟨q, rfl, hq⟩ := h s t hrun
  exact sameParts_of_view hq

/-- A view of a tile that what `g` takes out of it does not change. -/
theorem nowView_forgets {u : Nat} {g : Tile → Tile} (h : ∀ x, tile u (g x) = tile u x) : (nowView shared tile).Forgets u (fun x => g x.settled) := by
  intro x y hxy
  have hg : g x.settled = g y.settled := hxy
  change tile u x.settled = tile u y.settled
  rw [← h, hg, h]

theorem laterView_forgets {u : Nat} {g : Tile → Tile} (h : ∀ x, tile u (g x) = tile u x) :
    (laterView shared tile).Forgets u (fun x => g x.settled) := by
  intro x y hxy
  have hg : g x.settled = g y.settled := hxy
  change ({ tile u x.settled with counters := {} } : Tile) = { tile u y.settled with counters := {} }
  rw [← h, hg, h]

/-- The same of what `g` takes out before the way of completions is. -/
theorem View.Forgets.of_settled {V : View} {u : Nat} {g : Tile → Tile} (h : V.Forgets u (fun x => g x.settled))
    (hg : ∀ x, (g x).settled = g x.settled) : V.Forgets u g := by
  intro x y hxy
  refine h x y ?_
  change g x.settled = g y.settled
  rw [← hg, hxy, hg]

theorem setShared_congr {p q : Pkg} {x y : Shared} (h : p = q) (k : x = y) : { p with sh := x } = { q with sh := y } := by
  rw [h, k]

theorem laterView_later (hs : ∀ x : Shared, ({ shared { x with rtc := {} } with rtc := {} } : Shared) = { shared x with rtc := {} })
    (ht : ∀ u x, ({ tile u x.noCounters with counters := {} } : Tile) = { tile u x with counters := {} }) : (laterView shared tile).Later where
  pkg p q hpq := by
    have hsettled := congrArg (fun z : Pkg => { z with sh := { z.sh.settled with rtc := {} }, outbox := [], freeCtr := 0 }) hpq
    have hrest := congrArg (fun z : Pkg => { z with sh := {} }) hsettled
    have hsh := congrArg Pkg.sh hsettled
    have hshared : ({ shared p.settled.sh with rtc := {} } : Shared) = { shared q.settled.sh with rtc := {} } := by
      rw [← hs, ← hs q.settled.sh]
      exact congrArg (fun z => ({ shared z with rtc := {} } : Shared)) hsh
    exact setShared_congr hrest hshared
  tile u x y hxy := by
    have hsettled : x.settled.noCounters = y.settled.noCounters := by
      have hc := congrArg (fun z : Tile => z.settled.noCounters) hxy
      exact hc
    change ({ tile u x.settled with counters := {} } : Tile) = { tile u y.settled with counters := {} }
    rw [← ht, hsettled, ht]

theorem laterView_uncounted (hc : ∀ (x : Shared) c, shared { x with counts := c } = shared x) : (laterView shared tile).Uncounted := by
  intro p c
  change ({ p.settled with now := 0, sh := { shared { p.sh.settled with counts := c } with rtc := {} } } : Pkg) = _
  rw [hc]
  rfl

theorem nowView_uncounted (hc : ∀ (x : Shared) c, shared { x with counts := c } = shared x) : (nowView shared tile).Uncounted := by
  intro p c
  change ({ p.settled with sh := shared { p.sh.settled with counts := c } } : Pkg) = _
  rw [hc]
  rfl

end

/-- A mask that stands on one tile does not see the running counts, where it does not on that tile. -/
theorem atTile_noCounters {v : Nat} {mask : Tile → Tile}
    (h : ∀ x, ({ mask x.noCounters with counters := {} } : Tile) = { mask x with counters := {} }) (u : Nat) (x : Tile) :
    ({ atTile v mask u x.noCounters with counters := {} } : Tile) = { atTile v mask u x with counters := {} } := by
  unfold atTile
  split
  · exact h x
  · rfl

/-- What a mask on one tile does not see there. -/
theorem atTile_eq {v : Nat} {mask g : Tile → Tile} (h : ∀ x, mask (g x) = mask x) (x : Tile) : atTile v mask v (g x) = atTile v mask v x := by
  unfold atTile
  rw [if_pos rfl, if_pos rfl, h]

section
variable (shared : Shared → Shared) (v : Nat) {mask : Tile → Tile}

theorem later_forgets {g : Tile → Tile} (hg : ∀ x, (g x).settled = g x.settled) (h : ∀ x, mask (g x) = mask x) :
    (laterView shared (atTile v mask)).Forgets v g := (laterView_forgets (atTile_eq h)).of_settled hg

theorem later_drives (h : ∀ x, mask x.noDrives = mask x) : (laterView shared (atTile v mask)).Drives v where
  tile := laterView_forgets (atTile_eq h)
  since _ _ := rfl

theorem later_loops (h : ∀ x, mask x.noLoops = mask x) : (laterView shared (atTile v mask)).Loops v where
  tile := laterView_forgets (atTile_eq h)
  since _ _ := rfl

theorem later_notes (h : ∀ x, mask x.noNotes = mask x) : (laterView shared (atTile v mask)).Notes v where
  tile := laterView_forgets (atTile_eq h)
  since _ _ := rfl

theorem later_of_mask (h : ∀ x, ({ mask x.noCounters with counters := {} } : Tile) = { mask x with counters := {} }) :
    (laterView id (atTile v mask)).Later := laterView_later (fun _ => rfl) (atTile_noCounters h)

end

/-- Settles O40: every operation of the event is one that a view without the units it acts on does not see. -/
theorem tileEventsKeepTheRest : Obligations.TileEventsKeepTheRest := by
  unfold Obligations.TileEventsKeepTheRest
  have hl (u : TileId) : (laterView id (atTile u.toNat Tile.noDrives)).Later := later_of_mask _ (fun _ => rfl)
  have hd (u : TileId) : (laterView id (atTile u.toNat Tile.noDrives)).Drives u.toNat := later_drives _ _ (fun _ => rfl)
  have hln (u : TileId) : (laterView id (atTile u.toNat Tile.noNotes)).Later := later_of_mask _ (fun _ => rfl)
  have hn (u : TileId) : (laterView id (atTile u.toNat Tile.noNotes)).Notes u.toNat := later_notes _ _ (fun _ => rfl)
  have he (u : TileId) : (laterView id (atTile u.toNat (fun x => { x.noNotes with entropy := {} }))).Forgets u.toNat
      (fun x => { x with entropy := {} }) := later_forgets _ _ (fun _ => rfl) (fun _ => rfl)
  have hs (u : TileId) : (laterView id (atTile u.toNat (fun x => { x.noNotes with supply := {} }))).Forgets u.toNat
      (fun x => { x with supply := {} }) := later_forgets _ _ (fun _ => rfl) (fun _ => rfl)
  intro s t i hexec
  cases i with
  | comparatorEdge u pin pinUv => exact onlyPartsLater_of_keeps (View.keeps_comparatorEdge (hl u) (hd u) pin pinUv) hexec
  | inputFilterExpiry u ch => exact onlyPartsLater_of_keeps (View.keeps_inputFilterExpiry (hl u) (hd u) ch) hexec
  | isolationOpen u ch => exact onlyPartsLater_of_keeps (View.keeps_isolationOpen (hd u) ch) hexec
  | isolationClose u ch => exact onlyPartsLater_of_keeps (View.keeps_isolationClose (hl u) (hd u) ch) hexec
  | blankingEnd u ch => exact onlyPartsLater_of_keeps (View.keeps_blankingEnd (hl u) (hd u) ch) hexec
  | limitTrip u ch => exact onlyPartsLater_of_keeps (View.keeps_limitTrip (hl u) (hd u) ch) hexec
  | channelRetry u ch => exact onlyPartsLater_of_keeps (View.keeps_channelRetry (hl u) (hd u) ch) hexec
  | channelAttemptReset u ch => exact onlyPartsLater_of_keeps (View.keeps_channelAttemptReset (hl u) (hd u) ch) hexec
  | openLoad u ch => exact onlyPartsLater_of_keeps (View.keeps_openLoad (hd u) ch) hexec
  | gateFault u ch => exact onlyPartsLater_of_keeps (View.keeps_gateFault (hd u) ch) hexec
  | holdLimitExpiry u ch => exact onlyPartsLater_of_keeps (View.keeps_holdLimitExpiry (hl u) (hd u) ch) hexec
  | seqTrigger u adc src => exact onlyPartsLater_of_keeps (View.keeps_seqTrigger (hd u) adc src) hexec
  | urgentTrigger u adc src => exact onlyPartsLater_of_keeps (View.keeps_urgentTrigger (hd u) adc src) hexec
  | seqEntryResult u adc input => exact onlyPartsLater_of_keeps (View.keeps_seqEntryResult (hl u) (hd u) adc input) hexec
  | refSettled u ref => exact onlyPartsLater_of_keeps (View.keeps_refSettled (hl u) (hd u) ref) hexec
  | referenceLost u ref => exact onlyPartsLater_of_keeps (View.keeps_referenceLost (hd u) ref) hexec
  | instructionTimeEnd u engine => exact onlyPartsLater_of_keeps (View.keeps_instructionTimeEnd (hl u) (hd u) engine) hexec
  | chopOffTime u engine => exact onlyPartsLater_of_keeps (View.keeps_chopOffTime (hl u) (hd u) engine) hexec
  | detectSample u engine code => exact onlyPartsLater_of_keeps (View.keeps_detectSample (hl u) (hd u) engine code) hexec
  | detectWindowEnd u engine => exact onlyPartsLater_of_keeps (View.keeps_detectWindowEnd (hl u) (hd u) engine) hexec
  | shutterEnd u engine => exact onlyPartsLater_of_keeps (View.keeps_shutterEnd (hl u) (hd u) engine) hexec
  | toothWindowClose u tracker => exact onlyPartsLater_of_keeps (View.keeps_toothWindowClose (hl u) (hd u) tracker) hexec
  | angleFiringDue u tracker => exact onlyPartsLater_of_keeps (View.keeps_angleFiringDue (hl u) (hd u) tracker) hexec
  | stepDue u unit => exact onlyPartsLater_of_keeps (View.keeps_stepDue (hl u) (hd u) unit) hexec
  | dwellEnd u unit => exact onlyPartsLater_of_keeps (View.keeps_dwellEnd (hl u) (hd u) unit) hexec
  | homeStep u unit => exact onlyPartsLater_of_keeps (View.keeps_homeStep (hl u) (hd u) unit) hexec
  | holdTimeEnd u unit => exact onlyPartsLater_of_keeps (View.keeps_holdTimeEnd (hl u) (hd u) unit) hexec
  | tachSpeedUpdate u unit => exact onlyPartsLater_of_keeps (View.keeps_tachSpeedUpdate (hl u) (hd u) unit) hexec
  | tachLostTimeout u unit => exact onlyPartsLater_of_keeps (View.keeps_tachLostTimeout (hl u) (hd u) unit) hexec
  | startWindowEnd u unit => exact onlyPartsLater_of_keeps (View.keeps_startWindowEnd (hl u) (hd u) unit) hexec
  | backoffEnd u unit => exact onlyPartsLater_of_keeps (View.keeps_backoffEnd (hl u) (hd u) unit) hexec
  | tachLossSecond u unit => exact onlyPartsLater_of_keeps (View.keeps_tachLossSecond (hl u) (hd u) unit) hexec
  | fanAttemptReset u unit => exact onlyPartsLater_of_keeps (View.keeps_fanAttemptReset (hl u) (hd u) unit) hexec
  | ageingSample u unit => exact onlyPartsLater_of_keeps (View.keeps_ageingSample (hl u) (hd u) unit) hexec
  | selfTestComplete u failMask =>
    have ht : (laterView id (atTile u.toNat Tile.noDrives)).Forgets u.toNat (fun x => { x with counters := { x.counters with tests := [] } }) := by
      intro x y hxy
      refine (hl u).tile _ x y ?_
      have hc := congrArg Tile.noCounters hxy
      exact hc
    exact onlyPartsLater_of_keeps (View.keeps_selfTestComplete ht (hd u) failMask) hexec
  | vhvThreshold u low =>
    exact onlyPartsLater_of_keeps (View.keeps_vhvThreshold (later_drives _ _ (fun _ => rfl))
      (later_forgets _ _ (fun _ => rfl) (fun _ => rfl)) low) hexec
  | budgetTrip u group amps =>
    exact onlyPartsLater_of_keeps (View.keeps_budgetTrip (later_of_mask _ (fun _ => rfl)) (later_drives _ _ (fun _ => rfl))
      (later_forgets _ _ (fun _ => rfl) (fun _ => rfl)) group amps) hexec
  | slotEvaluation u slot =>
    exact onlyPartsLater_of_keeps (View.keeps_slotEvaluation (laterView_later (fun _ => rfl) (atTile_noCounters (fun _ => rfl)))
      (later_loops _ _ (fun _ => rfl)) (laterView_uncounted (fun _ _ => rfl)) slot) hexec
  | governorWindow u =>
    exact onlyPartsLater_of_keeps (View.keeps_governorWindow (laterView_later (fun _ => rfl) (atTile_noCounters (fun _ => rfl)))
      (later_loops _ _ (fun _ => rfl))) hexec
  | ringPeriodTrigger u ring => exact onlyPartsLater_of_keeps (View.keeps_ringPeriodTrigger (hln u) (hn u) ring) hexec
  | ringSourceTimeout u ring => exact onlyPartsLater_of_keeps (View.keeps_ringSourceTimeout (hln u) (hn u) ring) hexec
  | counterWindow u n received sent => exact onlyPartsLater_of_keeps (View.keeps_counterWindow (hln u) n received sent) hexec
  | counterWrap u n => exact onlyPartsLater_of_keeps (View.keeps_counterWrap (hln u) (hn u).quiet n) hexec
  | entropyCondition u samples =>
    exact onlyPartsLater_of_keeps (View.keeps_entropyCondition (later_notes _ _ (fun _ => rfl)) (he u) samples) hexec
  | entropyHealthFailure u =>
    exact onlyPartsLater_of_keeps (View.keeps_entropyHealthFailure (later_notes _ _ (fun _ => rfl)) (he u)) hexec
  | entropyWaitExpiry u =>
    exact onlyPartsLater_of_keeps (View.keeps_entropyWaitExpiry (later_of_mask _ (fun _ => rfl)) (later_notes _ _ (fun _ => rfl)) (he u)) hexec
  | dieTemperature u t0 t1 t2 t3 =>
    exact onlyPartsLater_of_keeps (View.keeps_dieTemperature (later_notes _ _ (fun _ => rfl)) (hs u) t0 t1 t2 t3) hexec
  | powerFailWarning u active =>
    exact onlyPartsLater_of_keeps (View.keeps_powerFailWarning (later_notes _ _ (fun _ => rfl)) (hs u) active) hexec
  | adviceExpiry u =>
    exact onlyPartsLater_of_keeps (View.keeps_adviceExpiry (later_of_mask _ (fun _ => rfl)) (later_notes _ _ (fun _ => rfl))
      (later_forgets _ _ (fun _ => rfl) (fun _ => rfl))) hexec
  | _ => trivial

end Sys2Proof.Machine
end

section
/-!
PROOFS. Views that do not see what a flash write touches; and the flash checks, commits and switches of tables that they do not see.
-/

namespace Sys2Proof.Machine

/-- A user of a table that the package has, not one tile. -/
def TUser.shared : TUser → Prop
  | .machine _ | .slot _ => False
  | .port _ | .permits | .panel => True

namespace View

/-- The view sees nothing of what a flash write touches, on any tile, nor of the counts of refused commands. -/
structure Writes (V : View) : Prop where
  tile : ∀ t, V.Forgets t (fun x => x.settled.noWrites)
  since : ∀ t m x, V.machine t m { x with since := 0 } = V.machine t m x
  uncounted : V.Uncounted

/-- The view sees of the shared units no more than `g` does. -/
def Unseen (V : View) (g : Shared → Shared) : Prop :=
  ∀ p q : Pkg, ({ p.settled with sh := g p.sh.settled } : Pkg) = { q.settled with sh := g q.sh.settled } → V.pkg p.settled = V.pkg q.settled

variable {V : View} {p : Pkg}

/-- A change of the shared units that leaves what `g` shows of them. -/
theorem of_onUnseen {g f : Shared → Shared} (h : V.Unseen g) (hf : g (f p.sh).settled = g p.sh.settled) : V.of (onShared f p) = V.of p :=
  of_onShared (h _ _ (congrArg (fun y => ({ p.settled with sh := y } : Pkg)) hf))

@[simp] theorem of_countPort (src at_ received sent : Nat) : V.of (countPort src at_ received sent p) = V.of p :=
  of_samePkg (samePkg_countPort ..)

@[simp] theorem of_countRefused (h : V.Uncounted) (cls : Nat) : V.of (countRefused cls p) = V.of p := of_onShared (h _ _)

/-- A completion of any status, where the view does not see what the package refused. -/
@[simp] theorem of_finishWith_uncounted (h : V.Uncounted) (c : Ctx) (op st : Byte) (u : Nat) (pl : List Byte) :
    V.of (finishWith c op st u pl p) = V.of p := by
  rw [finishWith, of_emit]
  split
  · exact of_countRefused h _
  · rfl

@[simp] theorem of_finish_uncounted (h : V.Uncounted) (c : Ctx) (op st : Byte) (u : Nat) : V.of (finish c op st u p) = V.of p :=
  of_finishWith_uncounted h ..

@[simp] theorem of_raiseAll (h : ∀ t, V.Quiet t) (ev : Nat) : V.of (raiseAll ev p) = V.of p := of_foldl (fun _ t => of_raise (h t) ev) _

section
variable (h : V.Writes)
include h

@[simp] theorem Writes.counts : V.Uncounted := h.uncounted

@[simp] theorem Writes.notes (t : Nat) : V.Notes t where
  tile x y hxy := h.tile t x y (by
    have hw := congrArg Tile.noWrites hxy
    exact hw)
  since := h.since t

@[simp] theorem Writes.quiet (t : Nat) : V.Quiet t := (h.notes t).quiet

/-- What the view does not see of a tile. -/
theorem Writes.forgets (t : Nat) {g : Tile → Tile} (hg : ∀ x, (g x).settled = g x.settled) (hw : ∀ x, (g x).noWrites = x.noWrites) :
    V.Forgets t g := by
  intro x y hxy
  refine h.tile t x y ?_
  change x.settled.noWrites = y.settled.noWrites
  rw [← hw x.settled, ← hg, hxy, hg, hw]

/-- A change of what a flash write touches on a tile. -/
theorem of_writes {t : Nat} {f : Tile → Tile} (hf : (f (p.tile t)).settled.noWrites = (p.tile t).settled.noWrites)
    (hm : (f (p.tile t)).machines = (p.tile t).machines) : V.of (onTile t f p) = V.of p := of_onTile (h.tile t) hf hm

/-! The checks before a flash write, and the writes. -/

@[simp] theorem of_countLow (t : Nat) : V.of (countLow t p) = V.of p := of_writes h rfl rfl
@[simp] theorem of_countHot (t : Nat) : V.of (countHot t p) = V.of p := of_writes h rfl rfl
@[simp] theorem of_countWrite (t : Nat) : V.of (countWrite t p) = V.of p := of_writes h rfl rfl

@[simp] theorem of_measureDie_of_writes (t : Nat) : V.of (measureDie t p) = V.of p :=
  of_measureDie (h.notes t) (h.forgets t (fun _ => rfl) (fun _ => rfl))

@[simp] theorem of_flashCheck (tiles : List Nat) : V.of (flashCheck tiles p).2 = V.of p := by
  unfold flashCheck
  extract_lets low rest p1 hot p2
  have h1 : V.of p1 = V.of p := (of_forAll (fun t _ => of_measureDie_of_writes h t) _).trans (of_forAll (fun t _ => of_countLow h t) _)
  have h2 : V.of p2 = V.of p := (of_forAll (fun t _ => of_countHot h t) _).trans h1
  split
  · exact h2
  · split
    · exact h2
    · split
      · exact h2
      · exact (of_forAll (fun t _ => of_countWrite h t) _).trans h2

theorem of_flashCheck_eq {tiles : List Nat} {r : Option Byte} {q : Pkg} (heq : flashCheck tiles p = (r, q)) : V.of q = V.of p := by
  have hcheck := of_flashCheck h (p := p) tiles
  rwa [heq] at hcheck

/-- What a command does that writes the flash once. -/
theorem of_withFlash (c : Ctx) (op : Byte) (t : Nat) (tiles : List Nat) {f : Pkg → Pkg} (hf : ∀ q, V.of (f q) = V.of q) :
    V.of (withFlash c op t tiles f p) = V.of p := by
  unfold withFlash
  split
  next st q heq => rw [of_finish_uncounted h.uncounted, of_flashCheck_eq h heq]
  next q heq => rw [hf, of_flashCheck_eq h heq]

@[simp] theorem of_onSettings (t : Nat) (f : Option Settings → Option Settings) : V.of (onSettings t f p) = V.of p := of_writes h rfl rfl
@[simp] theorem of_writeSettings (f : Settings → Settings) : V.of (writeSettings f p) = V.of p := of_onSettings h ..

/-! Claims and commits of tables. -/

theorem of_claims (t : Nat) {f : Tile → Tile} (hf : ∀ x, ∃ l, f x = { x with claims := l }) : V.of (onTile t f p) = V.of p := by
  obtain ⟨l, hl⟩ := hf (p.tile t)
  exact of_writes h (by rw [hl]; rfl) (by rw [hl])

@[simp] theorem of_reserveClaims (t kind idx : Nat) : V.of (reserveClaims t kind idx p) = V.of p :=
  of_forAll (fun u _ => of_claims h u (fun _ => ⟨_, rfl⟩)) _

@[simp] theorem of_enforceClaims (t kind idx : Nat) (b : List Byte) : V.of (enforceClaims t kind idx b p) = V.of p := by
  unfold enforceClaims
  split
  exact (of_reserveClaims h t kind idx).trans (of_forAll (fun u _ => of_claims h u (fun _ => ⟨_, rfl⟩)) _)

@[simp] theorem of_onCommits (t : Nat) (f : List Commit → List Commit) : V.of (onCommits t f p) = V.of p := of_writes h rfl rfl

@[simp] theorem of_endCommits (t : Nat) (gone : Commit → Bool) (st : Byte) : V.of (endCommits t gone st p) = V.of p := by
  unfold endCommits
  rw [of_forAll (fun x q => (of_finish_uncounted h.uncounted ..).trans (of_reserveClaims h ..)), of_onCommits h]

@[simp] theorem of_startWrite (t fuel : Nat) : V.of (startWrite t fuel p) = V.of p := by
  induction fuel generalizing p with
  | zero => rfl
  | succ fuel ih =>
    rw [startWrite]
    split
    · rfl
    · split
      · rfl
      · split
        next st q heq => rw [ih, of_endCommits h, of_flashCheck_eq h heq]
        next q heq => rw [of_onCommits h, of_flashCheck_eq h heq]

@[simp] theorem of_finishCommits (t : Nat) : V.of (finishCommits t p) = V.of p := by
  unfold finishCommits
  dsimp only
  rw [of_startWrite h, of_forAll (fun x _ => of_finish_uncounted h.uncounted ..), of_onCommits h]

@[simp] theorem of_switchUser (t : Nat) {u : TUser} (hu : u.shared) (x : Commit) : V.of (switchUser t u x p) = V.of p := by
  cases u with
  | machine m => exact hu.elim
  | slot n => exact hu.elim
  | port n => exact of_enforceClaims h ..
  | permits => rfl
  | panel => rfl

@[simp] theorem of_switchAll (t : Nat) {u : TUser} (hu : u.shared) : V.of (switchAll t u p) = V.of p := by
  unfold switchAll
  dsimp only
  rw [of_finishCommits h, of_onCommits h, of_forAll (fun x _ => of_switchUser h t hu x)]

end

end View

end Sys2Proof.Machine
end

section
/-!
PROOFS. What the work of the building buses leaves as it was: one lemma for each operation on the ports.
-/

namespace Sys2Proof.Machine

/-- The shared units without the bus ports. -/
def Shared.noBuses (x : Shared) : Shared := { x with bus0 := {}, bus1 := {}, t1s := {} }

theorem keyClass_busKey (b : RsPort) (i : Nat) : keyClass (busKey b i) = 0xB := by
  have hb : rsNo b < 2 := by cases b <;> decide
  unfold keyClass busKey key
  omega

namespace View

variable {V : View} {p : Pkg}

section
variable (hb : V.Unseen Shared.noBuses)
include hb

@[simp] theorem of_onRs (b : RsPort) (f : RsState → RsState) : V.of (onRs b f p) = V.of p := by
  cases b <;> exact of_onUnseen hb rfl

@[simp] theorem of_onT1s (f : T1sState → T1sState) : V.of (onT1s f p) = V.of p := of_onUnseen hb rfl

@[simp] theorem of_onBusStatus (b : BusPort) (f : BusStatus → BusStatus) : V.of (onBusStatus b f p) = V.of p := by
  cases b with
  | rs q => exact of_onRs hb q _
  | t1s => exact of_onT1s hb _

@[simp] theorem of_countRxOk (b : BusPort) : V.of (countRxOk b p) = V.of p := of_onBusStatus hb b _
@[simp] theorem of_countDropped (b : BusPort) : V.of (countDropped b p) = V.of p := of_onBusStatus hb b _
@[simp] theorem of_countAbandoned (b : BusPort) : V.of (countAbandoned b p) = V.of p := of_onBusStatus hb b _
@[simp] theorem of_countA (b : BusPort) : V.of (countA b p) = V.of p := of_onBusStatus hb b _
@[simp] theorem of_countB (b : BusPort) : V.of (countB b p) = V.of p := of_onBusStatus hb b _
@[simp] theorem of_countTx (b : BusPort) : V.of (countTx b p) = V.of p := of_onBusStatus hb b _
@[simp] theorem of_noteSources (b : RsPort) : V.of (noteSources b p) = V.of p := of_onRs hb b _
@[simp] theorem of_onServing (b : RsPort) (f : Serving → Serving) : V.of (onServing b f p) = V.of p := of_onRs hb b _
@[simp] theorem of_onPolling (b : RsPort) (f : Polling → Polling) : V.of (onPolling b f p) = V.of p := of_onRs hb b _
@[simp] theorem of_sendAttempt (b : RsPort) (x : Polling) : V.of (sendAttempt b x p) = V.of p := of_onRs hb b _

@[simp] theorem of_dropT1s : V.of (dropT1s p) = V.of p := by
  unfold dropT1s
  split <;> simp [hb]

@[simp] theorem of_busDue : V.of (busDue p) = V.of p := by
  unfold busDue
  split <;> simp [hb]

end

@[simp] theorem of_failSends (h : V.Uncounted) (l : List (Ctx × List Byte)) (st : Byte) : V.of (failSends l st p) = V.of p :=
  of_forAll (fun _ _ => of_finish_uncounted h ..) _

/-- A write of a point that nothing but its value hangs on. -/
theorem of_applyWrite_of_class {t : Nat} (h : V.Notes t) {k : Key} (hk : keyClass k = 0xB) (v : Word) (q : Quality) :
    V.of (applyWrite t k v q p) = V.of p := by
  unfold applyWrite
  simp only [hk]
  exact of_putNow h ..

section
variable (h : V.Writes) (hb : V.Unseen Shared.noBuses)
include h hb

@[simp] theorem of_busFault (b : BusPort) (i : Nat) : V.of (busFault b i p) = V.of p := by
  unfold busFault
  split <;> simp [h, hb]

@[simp] theorem of_denyBus (u : Nat) (b : RsPort) : V.of (denyBus u b p) = V.of p := by
  simp [denyBus, h, hb]

@[simp] theorem of_countRxErr (b : BusPort) : V.of (countRxErr b p) = V.of p := by
  unfold countRxErr
  dsimp only
  split <;> simp [h, hb]

@[simp] theorem of_portSwitch (b : RsPort) : V.of (portSwitch b p) = V.of p := by
  have hall : V.of (forAll [0, 1] (fun t => switchAll t (.port (rsNo b))) p) = V.of p :=
    of_forAll (fun t q => of_switchAll (u := .port (rsNo b)) h t trivial) _
  unfold portSwitch
  dsimp only
  split
  · exact hall
  · rw [of_noteSources hb, hall]

@[simp] theorem of_endServing (b : RsPort) (req body : List Byte) : V.of (endServing b req body p) = V.of p := by
  unfold endServing
  split <;> simp [h, hb]

@[simp] theorem of_serverException (b : RsPort) (req : List Byte) (code : Byte) : V.of (serverException b req code p) = V.of p := by
  unfold serverException
  split <;> simp [h, hb]

@[simp] theorem of_serverWrites (b : RsPort) (x : Serving) : V.of (serverWrites b x p) = V.of p := by
  unfold serverWrites
  split
  · exact of_endServing h hb b _ _
  · simp [h, hb, busAccess]

@[simp] theorem of_serverReads (b : RsPort) (map : List Byte) (es : List Nat) : V.of (serverReads b map es p) = V.of p :=
  of_forAll (fun _ _ => (of_onServing hb b _).trans (of_issue (h.quiet _) ..)) es

@[simp] theorem of_serveRequest (b : RsPort) (req : List Byte) : V.of (serveRequest b req p) = V.of p := by
  unfold serveRequest
  dsimp only
  split <;> simp [h, hb]

@[simp] theorem of_endPolling (b : RsPort) : V.of (endPolling b p) = V.of p := by
  simp [endPolling, h, hb]

@[simp] theorem of_itemFails (b : RsPort) (x : Polling) : V.of (itemFails b x p) = V.of p := by
  simp [itemFails, h, hb]

@[simp] theorem of_itemDone (b : RsPort) (x : Polling) (v : Word) : V.of (itemDone b x v p) = V.of p := by
  have hwrite : ∀ q : Pkg, V.of (ownerWrite p.lead (busKey b x.item) v .good q) = V.of q := by
    intro q
    unfold ownerWrite
    split
    · exact of_countOverridden (h.notes _)
    · exact of_applyWrite_of_class (h.notes _) (keyClass_busKey ..) v .good
  unfold itemDone
  rw [of_endPolling h hb]
  exact (hwrite _).trans (of_onRs hb b _)

@[simp] theorem of_clientNext (b : RsPort) (fuel : Nat) : V.of (clientNext b fuel p) = V.of p := by
  induction fuel generalizing p with
  | zero => rfl
  | succ fuel ih =>
    rw [clientNext]
    dsimp only
    split
    · rfl
    · split
      · rw [ih, of_onRs hb]
      · split
        · simp [hb]
        · split
          · rw [ih, of_itemFails h hb, of_denyBus h hb, of_onRs hb, of_onRs hb]
          · simp [h, hb, busAccess]

@[simp] theorem of_clientRun (b : RsPort) : V.of (clientRun b p) = V.of p := by
  unfold clientRun
  dsimp only
  split <;> simp [h, hb]

@[simp] theorem of_takeResponse (b : RsPort) (x : Polling) (rsp : List Byte) : V.of (takeResponse b x rsp p) = V.of p := by
  unfold takeResponse
  dsimp only
  split
  · rfl
  · exact of_itemFails h hb b x
  · exact of_itemDone h hb b x _
  · split
    · exact of_itemDone h hb b x _
    · exact (of_itemDone h hb b x _).trans of_takeFree

@[simp] theorem of_attemptFails (b : RsPort) (x : Polling) : V.of (attemptFails b x p) = V.of p := by
  unfold attemptFails
  split <;> simp [h, hb]

@[simp] theorem of_itemDue (b : RsPort) (i : Nat) (e : List Byte) : V.of (itemDue b i e p) = V.of p := by
  simp [itemDue, h, hb]

@[simp] theorem of_mstpHeard (b : RsPort) (src : Byte) : V.of (mstpHeard b src p) = V.of p := by
  unfold mstpHeard
  split <;> simp [h, hb]

omit h in
@[simp] theorem of_rsSent (b : RsPort) : V.of (rsSent b p) = V.of p := by
  unfold rsSent
  dsimp only
  repeat' split
  all_goals simp [hb]

omit h in
theorem of_rsFrame (b : RsPort) (n : Nat) {g : Pkg → Pkg} (hg : ∀ q, V.of (g q) = V.of q) : V.of (rsFrame b n g p) = V.of p := by
  unfold rsFrame
  dsimp only
  split
  · rw [of_countAbandoned hb, of_countPort]
  · rw [hg, of_countPort]

theorem of_mstpIn (b : RsPort) (f : MstpFrame) {g : RsState → Pkg → Pkg} (hg : ∀ r q, V.of (g r q) = V.of q) :
    V.of (mstpIn b f g p) = V.of p := by
  unfold mstpIn
  dsimp only
  split
  · exact of_busDue hb
  · rw [of_rsFrame hb, of_busDue hb]
    intro q
    split
    · simp [h, hb]
    · rw [hg, of_onRs hb, of_mstpHeard h hb]

omit h in
theorem of_t1sIn (len : Nat) {g : Pkg → Pkg} (hg : ∀ q, V.of (g q) = V.of q) : V.of (t1sIn len g p) = V.of p := by
  unfold t1sIn
  dsimp only
  rw [of_onT1s hb]
  split
  · rw [of_countAbandoned hb, of_countPort]
  · rw [hg, of_countPort]

omit hb in
@[simp] theorem of_putFrame (ring status : Nat) (frame : List Byte) : V.of (putFrame ring status frame p) = V.of p := by
  have hput : ∀ ring us v kind, V.of (putEntry p.lead ring us v kind p).1.1 = V.of p :=
    fun _ _ _ _ => of_notes (h.quiet _) (notes_putEntry ..)
  unfold putFrame
  dsimp only
  rw [of_overflowed (h.notes _)]
  refine (foldl_keeps (fun a : Pkg × List Nat => V.of a.1) _ (fun a g => ?_) _ _).trans (hput ..)
  exact of_notes (h.quiet _) (notes_writeEntry ..)

/-! The events of the ports. -/

theorem keeps_busStart (port : BusPort) : V.Keeps (execBusStart port) := keeps_lift fun p => by
  split
  · rfl
  · cases port with
    | rs b =>
      dsimp only
      split <;> simp [h, hb]
    | t1s =>
      dsimp only
      split <;> simp [hb]

theorem keeps_modbusRequest (port : RsPort) (frame : List Byte) : V.Keeps (execModbusRequest port frame) := keeps_lift fun p => by
  dsimp only
  split
  · rfl
  · refine of_rsFrame hb port _ fun q => ?_
    split
    · split <;> simp [h, hb]
    · split
      · split <;> simp [hb]
      · split <;> simp [h, hb]

theorem keeps_modbusSilence (port : RsPort) : V.Keeps (execModbusSilence port) := keeps_lift fun p => by
  dsimp only
  split
  · rfl
  · split
    · simp [h, hb]
    · split <;> simp [hb]

theorem keeps_modbusResponse (port : RsPort) (frame : List Byte) : V.Keeps (execModbusResponse port frame) := keeps_lift fun p => by
  dsimp only
  split
  · rfl
  · refine of_rsFrame hb port _ fun q => ?_
    split
    · simp [h, hb]
    · split
      · split <;> simp [h, hb]
      · simp [hb]

theorem keeps_mstpDataFrame (port : RsPort) (ftype dst src : Byte) (rest : MstpRest) :
    V.Keeps (execMstpDataFrame port ftype dst src rest) := keeps_lift fun p => by
  refine of_mstpIn h hb port _ fun r q => ?_
  dsimp only
  split
  · simp [hb]
  · split
    · rfl
    · split <;> simp [h, hb]

theorem keeps_mstpToken (port : RsPort) (f : MstpFrame) : V.Keeps (execMstpToken port f) := keeps_lift fun p => by
  refine of_mstpIn h hb port _ fun r q => ?_
  split <;> simp [hb]

theorem keeps_mstpControlFrame (port : RsPort) (ftype dst src : Byte) (rest : MstpRest) :
    V.Keeps (execMstpControlFrame port ftype dst src rest) := keeps_lift fun p => by
  refine of_mstpIn h hb port _ fun r q => ?_
  dsimp only
  split
  · rfl
  · split
    · simp [hb]
    · split <;> simp [hb]

theorem keeps_tokenRegeneration (port : RsPort) : V.Keeps (execTokenRegeneration port) := keeps_lift fun p => by
  split <;> simp [h, hb]

theorem keeps_rxErr (port : RsPort) : V.Keeps (execRxErr port) := keeps_lift fun p => by
  dsimp only
  split
  · rfl
  · split <;> simp [h, hb]

theorem keeps_t1sFrame (frame : List Byte) (fcs : Word) : V.Keeps (execT1sFrame frame fcs) := keeps_lift fun p => by
  split
  · rfl
  · refine of_t1sIn hb _ fun q => ?_
    split
    · simp [h, hb]
    · split
      · rfl
      · split <;> simp [h, hb]

theorem keeps_t1sCollision : V.Keeps execT1sCollision := keeps_lift fun p => by
  dsimp only
  split
  · rfl
  · split <;> simp [hb]

theorem keeps_beaconTimeout : V.Keeps execBeaconTimeout := keeps_lift fun p => by
  dsimp only
  split <;> simp [h, hb]

omit h in
theorem keeps_beacon : V.Keeps execBeacon := keeps_lift fun p => by
  split <;> simp [hb]

theorem keeps_jabber : V.Keeps execJabber := keeps_lift fun p => by
  dsimp only
  split <;> simp [h, hb]

theorem keeps_busFrameSent (port : BusPort) : V.Keeps (execBusFrameSent port) := keeps_lift fun p => by
  split
  · rfl
  · cases port with
    | rs b => exact of_rsSent hb b
    | t1s =>
      dsimp only
      split <;> simp [hb]

section
variable (hl : V.Later)
include hl

theorem keeps_serverWaitExpiry (port : RsPort) : V.Keeps (execServerWaitExpiry port) := keeps_lift fun p => by
  split <;> simp [h, hb, hl]

theorem keeps_pollItemDue (port : RsPort) (item : BitVec 9) : V.Keeps (execPollItemDue port item) := keeps_lift fun p => by
  dsimp only
  split
  · rfl
  · simp [h, hb, hl, apply_ite V.of]

theorem keeps_responseTimeout (port : RsPort) : V.Keeps (execResponseTimeout port) := keeps_lift fun p => by
  split
  · rfl
  · split <;> simp [h, hb, hl]

theorem keeps_replyPostponed (port : RsPort) : V.Keeps (execReplyPostponed port) := keeps_lift fun p => by
  split
  · rfl
  · split <;> simp [hb, hl]

end

end

end View

end Sys2Proof.Machine
end

section
/-!
PROOFS. What the work of the panel, the keys and the service port leaves as it was.
-/

namespace Sys2Proof.Machine

/-- The shared units without the panel, and without the keys. -/
def Shared.noPanel (x : Shared) : Shared := { x with panel := {}, keys := {} }

/-- The shared units without the service port. -/
def Shared.noService (x : Shared) : Shared := { x with service := {} }

namespace View

variable {V : View} {p : Pkg}

section
variable (hp : V.Unseen Shared.noPanel)
include hp

@[simp] theorem of_onPanel (f : Panel → Panel) : V.of (onPanel f p) = V.of p := of_onUnseen hp rfl
@[simp] theorem of_onKeys (f : Keys → Keys) : V.of (onKeys f p) = V.of p := of_onUnseen hp rfl
@[simp] theorem of_onEnc (e : Bool) (f : Encoder → Encoder) : V.of (onEnc e f p) = V.of p := of_onKeys hp _

end

@[simp] theorem of_keyEntry (h : V.Notes 0) (source typ step : Nat) (state : BitVec 16) : V.of (keyEntry source typ step state p) = V.of p := by
  unfold keyEntry
  dsimp only
  rw [of_overflowed h, of_notes h.quiet (notes_putEntry ..)]

section
variable (h : V.Writes) (hp : V.Unseen Shared.noPanel)
include h

@[simp] theorem of_freeWave : V.of (freeWave p) = V.of p := of_switchAll (u := .panel) h 0 trivial

include hp

/-! Panel updates. -/

@[simp] theorem of_dropWaiting (st : Byte) : V.of (dropWaiting st p) = V.of p := by
  unfold dropWaiting
  split <;> simp [h, hp]

@[simp] theorem of_startUpdate (at_ : Nat) : V.of (startUpdate at_ p) = V.of p := by
  unfold startUpdate
  dsimp only
  split
  · split
    · simp [h, hp]
    · split <;> simp [h, hp]
  · rfl

@[simp] theorem of_endUpdate (c : Ctx) (states : BitVec 40) : V.of (endUpdate c states p) = V.of p := by
  simp [endUpdate, h, hp]

@[simp] theorem of_cutUpdate (st : Byte) : V.of (cutUpdate st p) = V.of p := by
  unfold cutUpdate
  split <;> simp [h, hp]

@[simp] theorem of_panelPhase (hl : V.Later) : V.of (panelPhase p) = V.of p := by
  unfold panelPhase
  split
  · dsimp only
    split <;> simp [h, hp, hl]
  · dsimp only
    split
    · simp [h, hp, hl]
    · split
      · simp [h, hp, hl]
      · split <;> simp [h, hp, hl]

@[simp] theorem of_crackResult (boot : Bool) (milliohms : Nat) : V.of (crackResult boot milliohms p) = V.of p := by
  unfold crackResult
  extract_lets x v p1 p2
  have h2 : V.of p2 = V.of p := by
    simp only [p2, p1]
    split <;> simp [h, hp]
  split
  · rw [of_cutUpdate h hp, of_dropWaiting h hp, h2]
  · exact h2

@[simp] theorem of_fastDischarge : V.of (fastDischarge p) = V.of p := by simp [fastDischarge, h, hp]

/-! Keys and encoders. -/

@[simp] theorem of_scanKeys (pressed : BitVec 16) : V.of (scanKeys pressed p) = V.of p := by
  unfold scanKeys
  dsimp only
  split
  · split <;> simp [h, hp]
  · split
    · split <;> simp [h, hp]
    · simp [hp]

@[simp] theorem of_writeChanges : V.of (writeChanges p) = V.of p := by
  unfold writeChanges
  rw [of_forAll (fun c q => by simp [h]), of_onKeys hp]

@[simp] theorem of_quarterStep (e : Bool) (d : Int) : V.of (quarterStep e d p) = V.of p := by
  unfold quarterStep
  dsimp only
  split <;> simp [h, hp]

@[simp] theorem of_encoderSettles (hl : V.Later) (e inputB : Bool) : V.of (encoderSettles e inputB p) = V.of p := by
  unfold encoderSettles
  extract_lets x changed other p1
  have h1 : V.of p1 = V.of p := of_advanceTo hl _
  split
  · rfl
  · split
    · rw [of_onEnc hp, h1]
    · split <;> simp [h, hp, h1]

/-! The events. -/

theorem keeps_panelPhase (hl : V.Later) : V.Keeps execPanelPhase := keeps_lift fun p => by
  split <;> simp [h, hp, hl]

theorem keeps_crackCheck (milliohms : Nat) : V.Keeps (execCrackCheck milliohms) := keeps_lift fun p => by
  extract_lets x asked
  split <;> simp [h, hp]

theorem keeps_panelRailsCollapse : V.Keeps execPanelRailsCollapse := keeps_lift fun p => by
  split <;> simp [h, hp]

theorem keeps_keyScan (hl : V.Later) (pressed : BitVec 16) : V.Keeps (execKeyScan pressed) := keeps_lift fun p => by
  split <;> simp [h, hp, hl]

theorem keeps_keyInterrupt : V.Keeps execKeyInterrupt := keeps_lift fun p => by
  split <;> simp [h, hp]

theorem keeps_stuckKey (hl : V.Later) (k : BitVec 4) : V.Keeps (execStuckKey k) := keeps_lift fun p => by
  dsimp only
  split <;> simp [h, hp, hl]

theorem keeps_encoderSettle (hl : V.Later) (enc inputB : Bool) : V.Keeps (execEncoderSettle enc inputB) := keeps_lift fun p => by
  split <;> simp [h, hp, hl]

end

section
variable (hp : V.Unseen Shared.noPanel)
include hp

theorem keeps_panelRailsPresent : V.Keeps execPanelRailsPresent := keeps_lift fun p => by
  split <;> simp [hp]

theorem keeps_dischargeSwitchRelease : V.Keeps execDischargeSwitchRelease := keeps_lift fun _ => of_onPanel hp _

theorem keeps_encoderEdge (enc inputB level : Bool) : V.Keeps (execEncoderEdge enc inputB level) :=
  keeps_lift fun _ => (of_onEnc hp ..).trans (of_onKeys hp _)

end

/-! The service port. -/

section
variable (hs : V.Unseen Shared.noService)
include hs

@[simp] theorem of_onService (f : Service → Service) : V.of (onService f p) = V.of p := of_onUnseen hs rfl

theorem keeps_svcDetN (level : Bool) : V.Keeps (execSvcDetN level) := keeps_lift fun _ => of_onService hs _

theorem keeps_serviceBaudLock (baud : Nat) : V.Keeps (execServiceBaudLock baud) := keeps_lift fun p => by
  split <;> simp [hs]

theorem keeps_serviceUnlockTimeout (hl : V.Later) : V.Keeps execServiceUnlockTimeout := keeps_lift fun p => by
  split <;> simp [hs, hl]

omit hs in
/-- The count of dropped service bytes is out of every view's sight. -/
@[simp] theorem of_countSvcDropped : V.of (countSvcDropped p) = V.of p := of_onTile' rfl (fun _ => rfl)

theorem keeps_serviceGapTimeout : V.Keeps execServiceGapTimeout := keeps_lift fun p => by
  split <;> simp [hs]

end

end View

end Sys2Proof.Machine
end

section
/-!
PROOFS. What the work of the tether leaves as it was.
-/

namespace Sys2Proof.Machine

/-- The shared units without the tether. -/
def Shared.noTether (x : Shared) : Shared := { x with tether := {} }

/-- A tile without its fabric. -/
def Tile.noFabric (x : Tile) : Tile := { x with fabric := {} }

/-- A tile without its entropy source. -/
def Tile.noEntropy (x : Tile) : Tile := { x with entropy := {} }

namespace View

variable {V : View} {p : Pkg}

/-! Frames on the line are on the way of completions. -/

@[simp] theorem of_departFrame (at_ : Nat) (f : SentFrame) : V.of (departFrame at_ f p) = V.of p := of_samePkg (samePkg_departFrame ..)
@[simp] theorem of_catchLine : V.of (catchLine p) = V.of p := of_samePkg (samePkg_runLine ..)
@[simp] theorem of_lineFrame (f : SentFrame) : V.of (lineFrame f p) = V.of p := of_samePkg (samePkg_lineFrame ..)
@[simp] theorem of_lastFrame (f : SentFrame) : V.of (lastFrame f p) = V.of p := by simp [lastFrame]
@[simp] theorem of_tetherSend (ftype : Byte) (payload : List Byte) : V.of (tetherSend ftype payload p) = V.of p := of_lineFrame _

/-- A change of every tile that the view does not see on any. -/
theorem of_onTiles {f : Nat → Tile → Tile} {g : Nat → Tile → Tile} (h : ∀ t, V.Forgets t (g t)) (hf : ∀ t x, g t (f t x) = g t x)
    (hm : ∀ t x, (f t x).machines = x.machines) : V.of (onTiles f p) = V.of p :=
  of_foldl (fun _ t => of_onTile (h t) (hf t _) (hm t _)) _

section
variable (hte : V.Unseen Shared.noTether)
include hte

@[simp] theorem of_onTether (f : Tether → Tether) : V.of (onTether f p) = V.of p := of_onUnseen hte rfl
@[simp] theorem of_onSession (f : Session → Session) : V.of (onSession f p) = V.of p := of_onTether hte _
@[simp] theorem of_onLink (f : LinkStatus → LinkStatus) : V.of (onLink f p) = V.of p := of_onTether hte _
@[simp] theorem of_acceptFrame (ft : Byte) (v : Nat) : V.of (acceptFrame ft v p) = V.of p := of_onTether hte _
@[simp] theorem of_startSession : V.of (startSession p) = V.of p := of_onTether hte _
@[simp] theorem of_storeKey (key : List Byte) : V.of (storeKey key p) = V.of p := of_onTether hte _
@[simp] theorem of_sendTime : V.of (sendTime p) = V.of p := by simp [sendTime, hte]

theorem of_received (ft : Byte) (lengthOk : Bool) (f : TFrame) {g : Pkg → Pkg} (hg : ∀ q, V.of (g q) = V.of q) :
    V.of (received ft lengthOk f g p) = V.of p := by
  unfold received
  dsimp only
  split
  · rfl
  · split
    · simp [hte]
    · simp [hte]
    · rw [hg]
      simp [hte]

end

section
variable (hte : V.Unseen Shared.noTether) (he : ∀ t, V.Forgets t Tile.noEntropy)
include he

/-- Random bytes that the tether takes. -/
@[simp] theorem of_takePool (n : Nat) : V.of (takePool n p).2 = V.of p :=
  of_onTile (p := { p with freeCtr := _ }) (he _) rfl rfl

include hte

@[simp] theorem of_sendHello : V.of (sendHello p) = V.of p := by
  unfold sendHello
  dsimp only
  split
  · split <;> simp [hte, he]
  · split <;> simp [hte]

@[simp] theorem of_gotHello (payload : List Byte) : V.of (gotHello payload p) = V.of p := by
  unfold gotHello
  extract_lets p1
  have h1 : V.of p1 = V.of p := of_onTether hte _
  split
  · rfl
  · split
    · rw [of_startSession hte, h1]
    · split
      · rw [of_sendHello hte he, h1]
      · exact h1

@[simp] theorem of_sendPair (ctx : Option Ctx) : V.of (sendPair ctx p) = V.of p := by
  unfold sendPair
  dsimp only
  rw [of_tetherSend, of_onTether hte, of_takePool he]

end

section
variable (h : V.Writes) (hte : V.Unseen Shared.noTether) (hf : ∀ t, V.Forgets t Tile.noFabric)

@[simp] theorem of_answerBy (t : Nat) (r : FabricReq) (rep : FabReply) : V.of (answerBy t r rep p) = V.of p := by
  unfold answerBy
  split
  · exact of_onTile' rfl (fun _ => rfl)
  · exact (of_samePkg (samePkg_countDiscarded ..)).trans (of_samePkg (samePkg_freeFlights ..))

@[simp] theorem of_staleFar (hf : ∀ t, V.Forgets t Tile.noFabric) : V.of (staleFar p) = V.of p :=
  of_onTiles hf (fun _ _ => rfl) (fun _ _ => rfl)

include h hte hf

/-! The link goes. -/

@[simp] theorem of_loseLink (st : LinkState) : V.of (loseLink st p) = V.of p := by
  unfold loseLink
  dsimp only
  rw [of_raise (h.quiet _), of_staleFar hf, of_forAll (fun _ _ => of_answerBy ..), of_forAll (fun _ _ => of_emit _), of_onTether hte]

@[simp] theorem of_closeLink (reason : Nat) (st : LinkState) : V.of (closeLink reason st p) = V.of p := by
  unfold closeLink
  split <;> simp [h, hte, hf]

@[simp] theorem of_erasePairing : V.of (erasePairing p) = V.of p := by
  unfold erasePairing
  dsimp only
  rw [of_onTether hte]
  split <;> simp [h, hte, hf]

@[simp] theorem of_applyTetherCfg (r : BitVec 128) : V.of (applyTetherCfg r p) = V.of p := by
  unfold applyTetherCfg
  dsimp only
  split
  · split <;> simp [h, hte, hf]
  · split <;> simp [hte]

@[simp] theorem of_unpair : V.of (unpair p) = V.of p := by
  unfold unpair
  dsimp only
  split
  · simp [h, hte, hf]
  · rw [of_erasePairing h hte hf, of_forAll (fun _ _ => of_lastFrame _), of_onTether hte]

/-! Announcements of the far package. -/

omit h hf in
@[simp] theorem of_hearFar (tile : Nat) (up : Bool) : V.of (hearFar tile up p) = V.of p := by
  unfold hearFar
  dsimp only
  split <;> simp [hte]

@[simp] theorem of_farAnnounces (u : Nat) (inc : Byte) : V.of (farAnnounces u inc p) = V.of p := by
  unfold farAnnounces
  dsimp only
  split
  · rfl
  · refine (of_forAll (fun t _ => of_raiseWith (h.quiet t) ..) _).trans ?_
    refine (of_onTiles hf ?_ ?_).trans ((of_onLink hte _).trans ?_)
    · exact fun _ _ => rfl
    · exact fun _ _ => rfl
    · split <;> simp [hte]

omit hf in
@[simp] theorem of_startResync : V.of (startResync p) = V.of p :=
  of_forAll (fun t _ => of_forAll (fun _ _ => (of_onSession hte _).trans (of_issue (h.quiet t) ..)) _) _

@[simp] theorem of_gotAnnounce (payload : List Byte) : V.of (gotAnnounce payload p) = V.of p := by
  have hall : ∀ l : List Nat, V.of (forAll l (fun u => farAnnounces u ((slice payload u 1).headD 0)) p) = V.of p :=
    of_forAll (fun u _ => of_farAnnounces h hte hf u _)
  unfold gotAnnounce
  dsimp only
  split
  · rfl
  · split
    · exact hall _
    · rw [of_startResync h hte, of_onSession hte, hall]

omit hf in
@[simp] theorem of_linkUp : V.of (linkUp p) = V.of p := by
  unfold linkUp
  dsimp only
  rw [of_raise (h.quiet _)]
  split <;> simp [hte]

end

section
variable (h : V.Writes) (hte : V.Unseen Shared.noTether) (he : ∀ t, V.Forgets t Tile.noEntropy)
include h hte he

/-! Pairing. -/

@[simp] theorem of_gotPair (payload : List Byte) : V.of (gotPair payload p) = V.of p := by
  unfold gotPair
  dsimp only
  split
  · rfl
  · split
    · split
      · rfl
      · split
        next st q heq => exact of_flashCheck_eq h heq
        next q heq =>
          rw [← of_flashCheck_eq h heq]
          split <;> simp [hte, he]
    · split
      · split
        next st q heq =>
          rw [← of_flashCheck_eq h heq]
          split <;> simp [h, hte]
        next q heq => rw [of_storeKey hte, of_flashCheck_eq h heq]
      · rfl

@[simp] theorem of_pairStart (c : Ctx) (t : Nat) : V.of (pairStart c t p) = V.of p := by
  unfold pairStart
  dsimp only
  split <;> simp [hte, he]

/-! The events. -/

theorem keeps_pair (f : TFrame) : V.Keeps (execPair f) := keeps_lift fun _ => of_received hte _ _ _ (fun _ => of_gotPair h hte he _)

omit he in
theorem keeps_pairTimeout (hl : V.Later) : V.Keeps execPairTimeout := keeps_lift fun p => by
  split
  · rfl
  · dsimp only
    split <;> simp [hte, hl]

omit h in
theorem keeps_hello (f : TFrame) : V.Keeps (execHello f) := keeps_lift fun _ => of_received hte _ _ _ (fun _ => of_gotHello hte he _)

omit h he in
theorem keeps_idle (f : TFrame) : V.Keeps (execIdle f) := keeps_lift fun _ => of_received hte _ _ _ (fun _ => rfl)

omit h in
theorem keeps_helloTimer (hl : V.Later) : V.Keeps execHelloTimer := keeps_lift fun p0 => by
  extract_lets p
  have hp : V.of p = V.of p0 := by
    simp only [p]
    split
    · split <;> simp [hte]
    · rfl
  split
  · exact hp
  · rw [of_sendHello hte he]
    split
    · rw [of_advanceTo hl, hp]
    · exact hp

omit h hte he in
theorem keeps_idleTimer (hl : V.Later) : V.Keeps execIdleTimer := keeps_lift fun p => by
  dsimp only
  split <;> simp [hl]

omit h he in
theorem keeps_timeTimer (hl : V.Later) : V.Keeps execTimeTimer := keeps_lift fun p => by
  dsimp only
  split <;> simp [hte, hl]

omit he in
theorem keeps_tetherSuspect (hl : V.Later) : V.Keeps execTetherSuspect := keeps_lift fun p => by
  dsimp only
  split <;> simp [h, hte, hl]

omit he in
theorem keeps_resyncComplete : V.Keeps execResyncComplete := keeps_lift fun p => by
  dsimp only
  split <;> simp [h, hte]

end

section
variable (h : V.Writes) (hte : V.Unseen Shared.noTether) (hf : ∀ t, V.Forgets t Tile.noFabric)
include h hte hf

theorem keeps_close (f : TFrame) : V.Keeps (execClose f) := keeps_lift fun _ => of_received hte _ _ _ (fun q => by
  have hlose : V.of (if linkOpen q.sh.tether then loseLink .lost q else q) = V.of q := by
    split <;> simp [h, hte, hf]
  dsimp only
  split
  · rw [of_onTether hte, hlose]
  · exact hlose)

theorem keeps_announce (f : TFrame) : V.Keeps (execAnnounce f) := keeps_lift fun _ =>
  of_received hte _ _ _ (fun _ => of_gotAnnounce h hte hf _)

theorem keeps_tetherLost (hl : V.Later) : V.Keeps execTetherLost := keeps_lift fun p => by
  dsimp only
  split <;> simp [h, hte, hf, hl]

end

end View

end Sys2Proof.Machine
end

section
/-!
PROOFS. What the work of the planner, the permits, the policies and the thermal budget leaves as it was.
-/

namespace Sys2Proof.Machine

/-- The shared units without the planner. -/
def Shared.noPlanner (x : Shared) : Shared := { x with planner := {} }

/-- The shared units without the permits. -/
def Shared.noPermits (x : Shared) : Shared := { x with permits := {} }

/-- The shared units without the thermal budget. -/
def Shared.noThermal (x : Shared) : Shared := { x with thermal := {} }

/-- The shared units without the policies that wait. -/
def Shared.noPending (x : Shared) : Shared := { x with policyPend := [] }

/-- A tile without its predictor. -/
def Tile.noPred (x : Tile) : Tile := { x with pred := {} }

/-- A tile without its claims. -/
def Tile.noClaims (x : Tile) : Tile := { x with claims := [] }

/-- A tile without its policies. -/
def Tile.noPolicies (x : Tile) : Tile := { x with policies := [] }

theorem spoilWork_noCounters (chain : Bool) (t from_ now : Nat) (x : Tile) : (spoilWork chain t from_ now x).noCounters = x.noCounters :=
  tokensLeave_noCounters chain x 0 0 _ _

namespace View

variable {V : View} {p : Pkg}

@[simp] theorem of_orFree (v : Option Word) : V.of (orFree v p).2 = V.of p := by
  unfold orFree
  split <;> rfl

/-- What the view does not see of the planner's work, on the tiles and in the package. -/
structure Plans (V : View) : Prop where
  notes : ∀ t, V.Notes t
  uncounted : V.Uncounted
  planner : V.Unseen Shared.noPlanner
  counters : ∀ t, V.Forgets t Tile.noCounters
  pred : ∀ t, V.Forgets t Tile.noPred

section
variable (h : V.Plans)
include h

@[simp] theorem Plans.quiet (t : Nat) : V.Quiet t := (h.notes t).quiet

@[simp] theorem of_onPlanner (f : Planner → Planner) : V.of (onPlanner f p) = V.of p := of_onUnseen h.planner rfl

@[simp] theorem of_sendAdvice (typ : Nat) (plan : Word) (expiry : Nat) (vs : List Word) : V.of (sendAdvice typ plan expiry vs p) = V.of p :=
  of_issue (h.quiet _) ..

theorem of_fixersEnd (l : List Ctx) (st : Byte) (co : Nat) : V.of (forAll l (fun c => finish c 0x55 st co) p) = V.of p :=
  of_forAll (fun _ _ => of_finish_uncounted h.uncounted ..) l

@[simp] theorem of_retractPlan : V.of (retractPlan p) = V.of p := by
  unfold retractPlan
  dsimp only
  split
  · rfl
  · rw [of_raise (h.quiet _), of_sendAdvice h, of_onPlanner h, of_fixersEnd h]

@[simp] theorem of_noteShort (fc : List Rec) (civil : Nat) : V.of (noteShort fc civil p) = V.of p := by
  unfold noteShort
  split <;> simp [h]

omit h in
/-- The number of the next free value is out of sight. -/
theorem of_freeCtr (n : Nat) : V.of { p with freeCtr := n } = V.of p := rfl

@[simp] theorem of_sendFix : V.of (sendFix p) = V.of p := by
  unfold sendFix
  dsimp only
  split
  · rw [of_sendAdvice h, of_freeCtr, of_noteShort h, of_orFree]
  · rfl

@[simp] theorem of_fixPlan (pl : Plan) : V.of (fixPlan pl p) = V.of p := by
  unfold fixPlan
  dsimp only
  rw [of_sendFix h, of_raise (h.quiet _), of_onPlanner h, of_fixersEnd h]

@[simp] theorem of_abandonEval : V.of (abandonEval p) = V.of p := by
  unfold abandonEval
  split
  · rfl
  · rw [of_forAll (fun t q => of_onNoCounters (h.counters t) (spoilWork_noCounters ..)), of_onPlanner h]

@[simp] theorem of_claimAdviceVars (hc : ∀ t, V.Forgets t Tile.noClaims) (t var : Nat) : V.of (claimAdviceVars t var p) = V.of p :=
  (of_onTile (hc t) rfl rfl).trans (of_onTile (h.pred t) rfl rfl)

@[simp] theorem of_claimAdvice (hc : ∀ t, V.Forgets t Tile.noClaims) (t : Nat) : V.of (claimAdvice t p) = V.of p := by
  unfold claimAdvice
  split
  · split <;> simp [h, hc]
  · rfl

@[simp] theorem of_planConfig (hc : ∀ t, V.Forgets t Tile.noClaims) (c : Ctx) (t : Nat) (r : BitVec 256) :
    V.of (planConfig c t r p) = V.of p := by
  unfold planConfig
  dsimp only
  split
  · exact of_finish_uncounted h.uncounted ..
  · rw [of_finish_ok, of_forAll (fun t _ => of_claimAdvice h hc t)]
    refine (of_onTiles hc ?_ ?_).trans ?_
    · exact fun _ _ => rfl
    · exact fun _ _ => rfl
    · rw [of_onPlanner h, of_retractPlan h, of_abandonEval h, of_accept]

@[simp] theorem of_planVeto (c : Ctx) (t : Nat) (id : Word) : V.of (planVeto c t id p) = V.of p := by
  have hu := h.uncounted
  unfold planVeto
  dsimp only
  split
  · simp
  · split
    · split <;> simp [h]
    · simp [hu]

/-! A planning cycle. -/

@[simp] theorem of_refreshCopy (hf : ∀ t, V.Forgets t Tile.noFabric) (t : Nat) (hd : Handle) : V.of (refreshCopy t hd p) = V.of p := by
  unfold refreshCopy
  split
  · exact of_onTile (hf t) rfl rfl
  · split <;> simp [h]

@[simp] theorem of_startEval (hf : ∀ t, V.Forgets t Tile.noFabric) : V.of (startEval p) = V.of p := by
  have hcopies : ∀ t q, ∀ l : List Handle,
      V.of (forAll l (fun hd q => if handleTile hd == ownNo q t then q else refreshCopy t hd q) q) = V.of q := by
    intro t q l
    refine of_forAll (fun hd q => ?_) l
    split <;> simp [h, hf]
  unfold startEval
  dsimp only
  rw [of_onPlanner h, of_forAll (fun t q => hcopies t q _)]

@[simp] theorem of_planSlack (hg : ∀ t, V.Forgets t Tile.noGov) (slack : Nat) : V.of (planSlack slack p) = V.of p :=
  of_forAll (fun t _ => (of_govSlack (hg t) h.uncounted slack).trans (of_onGov (hg t) _)) _

@[simp] theorem of_govOverrun (hg : ∀ t, V.Forgets t Tile.noGov) (t : Nat) : V.of (govOverrun t p) = V.of p :=
  (of_raiseCore (hg t) h.uncounted _).trans (of_onGov (hg t) _)

@[simp] theorem of_planningBoundary (hf : ∀ t, V.Forgets t Tile.noFabric) (hg : ∀ t, V.Forgets t Tile.noGov) (absent : Bool) :
    V.of (planningBoundary absent p) = V.of p := by
  unfold planningBoundary
  extract_lets p0 p1 asked p2
  have h0 : V.of p0 = V.of p := of_onPlanner h _
  have h1 : V.of p1 = V.of p := by
    simp only [p1]
    split
    · rw [of_forAll (fun t _ => (of_govOverrun h hg t).trans (of_onGov (hg t) _)), of_abandonEval h, h0]
    · exact h0
  have h2 : V.of p2 = V.of p := by
    simp only [p2]
    split
    · exact h1
    · split <;> simp [h, h1]
  split
  · rw [of_startEval h hf, h2]
  · exact h2

@[simp] theorem of_finishEval (hg : ∀ t, V.Forgets t Tile.noGov) (e : Eval) : V.of (finishEval e p) = V.of p := by
  have hcosts : ∀ q : Pkg, ∀ g : Nat → Word,
      V.of (onTiles (fun t tl => { tl with pred := { tl.pred with latentCost := g t } }) q) = V.of q := by
    intro q g
    refine of_onTiles h.pred ?_ ?_
    · exact fun _ _ => rfl
    · exact fun _ _ => rfl
  unfold finishEval
  dsimp only
  split
  · simp [h, hg]
  · split
    · rw [of_sendAdvice h, of_freeCtr, of_orFree, hcosts, of_onPlanner h, of_planSlack h hg, of_onPlanner h]
    · simp [h, hg]

@[simp] theorem of_bracketDone (hg : ∀ t, V.Forgets t Tile.noGov) : V.of (bracketDone p) = V.of p := by
  unfold bracketDone
  dsimp only
  split
  · rfl
  · split
    · rfl
    · split
      · split <;> simp [h, hg]
      · rfl

theorem keeps_planningBoundary (hl : V.Later) (hf : ∀ t, V.Forgets t Tile.noFabric) (hg : ∀ t, V.Forgets t Tile.noGov) :
    V.Keeps execPlanningBoundary := fun s => keeps_lift (fun p => by
  dsimp only
  split <;> simp [h, hl, hf, hg]) s

theorem keeps_bracketComplete (hg : ∀ t, V.Forgets t Tile.noGov) : V.Keeps execBracketComplete := keeps_lift fun p => by
  split <;> simp [h, hg]

end

/-! Permits. -/

section
variable (hpe : V.Unseen Shared.noPermits)
include hpe

@[simp] theorem of_onPermits (f : Permits → Permits) : V.of (onPermits f p) = V.of p := of_onUnseen hpe rfl

theorem keeps_permitPulse (hl : V.Later) (permit : BitVec 2) : V.Keeps (execPermitPulse permit) := keeps_lift fun p => by
  unfold pulsePermit
  dsimp only
  split
  · split <;> simp [hpe, hl]
  · rfl

theorem keeps_permitEvaluation (hl : V.Later) (h : V.Writes) : V.Keeps execPermitEvaluation := keeps_lift fun p => by
  have hcopies : ∀ q : Pkg, V.of (refreshCopies q) = V.of q := by
    intro q
    refine of_forAll (fun hd r => ?_) _
    split <;> simp [h]
  have hjudge : ∀ q : Pkg, V.of (judgePermits q) = V.of q :=
    fun q => (of_onNotes (h.notes _) rfl rfl).trans (of_onPermits hpe _)
  have hmeasure : ∀ q : Pkg, V.of (measureForPermits q) = V.of q := by
    intro q
    unfold measureForPermits
    split <;> simp [h]
  split
  · unfold evaluatePermits
    dsimp only
    rw [hcopies, hjudge, hmeasure, of_forAll (fun t _ => of_switchAll (u := .permits) h t trivial), of_advanceTo hl]
  · rfl

omit hpe in
theorem keeps_copyStaleTimeout (hl : V.Later) (hf : ∀ t, V.Forgets t Tile.noFabric) (hd : Handle) : V.Keeps (execCopyStaleTimeout hd) :=
  keeps_lift fun p => by
    dsimp only
    split
    · rfl
    · split
      · exact (of_onTile (hf _) rfl rfl).trans (of_advanceTo hl _)
      · rfl

end

/-! Policies. -/

theorem of_switchPolicies (hn : ∀ t, V.Quiet t) (hp : ∀ t, V.Forgets t Tile.noPolicies) (l : List PendPolicy) :
    V.of (switchPolicies l p) = V.of p := by
  refine of_forAll (fun q r => ?_) l
  rw [of_finish_ok, of_raiseAll hn]
  refine of_onTiles hp ?_ ?_
  · exact fun _ _ => rfl
  · exact fun _ _ => rfl

theorem keeps_policySwitch (hl : V.Later) (hn : ∀ t, V.Quiet t) (hp : ∀ t, V.Forgets t Tile.noPolicies) (hs : V.Unseen Shared.noPending) :
    V.Keeps execPolicySwitch := keeps_lift fun p => by
  split
  · rfl
  · dsimp only
    rw [of_switchPolicies hn hp]
    exact (of_onUnseen hs rfl).trans (of_advanceTo hl _)

/-! The thermal budget. -/

section
variable (h : ∀ t, V.Drives t)
include h

@[simp] theorem of_measureAll (meas : List Meas) : V.of (measureAll meas p) = V.of p := of_forAll (fun t _ => of_onAllChans (h t) _) _

@[simp] theorem of_shedHeat (tiles : List Nat) (limit fuel sum : Nat) : V.of (shedHeat tiles limit fuel sum p) = V.of p := by
  induction fuel generalizing sum p with
  | zero => rfl
  | succ fuel ih =>
    rw [shedHeat]
    split
    · rfl
    · split
      · rfl
      · rw [ih, of_tripOff (h _)]

@[simp] theorem of_enforceBudget (tiles : List Nat) (limit : Nat) : V.of (enforceBudget tiles limit p) = V.of p := by
  unfold enforceBudget
  split <;> simp [h]

theorem keeps_thermalBudget (hl : V.Later) (hth : V.Unseen Shared.noThermal) (meas : List Meas) : V.Keeps (execThermalBudget meas) :=
  keeps_lift fun p => by
    have hsums : ∀ q : Pkg, V.of (recordSums q) = V.of q := fun q => of_onUnseen hth rfl
    extract_lets next p1
    have h1 : V.of p1 = V.of p := by rw [hsums, of_measureAll h, of_advanceTo hl]
    split
    · rfl
    · split
      · rw [of_enforceBudget h, h1]
      · rw [of_forAll (fun t _ => of_enforceBudget h [t] _), h1]

end

end View

end Sys2Proof.Machine
end

section
namespace Sys2Proof.Machine

section
variable {shared : Shared → Shared} {tile : Nat → Tile → Tile}

theorem laterView_unseen {g : Shared → Shared} (h : ∀ x, shared (g x) = shared x) : (laterView shared tile).Unseen g := by
  intro p q hpq
  have hrest := congrArg (fun z : Pkg => { z with sh := {}, now := 0 }) hpq
  have hsh : shared p.sh.settled = shared q.sh.settled := by
    have hg := congrArg (fun z : Pkg => shared z.sh) hpq
    have hg' : shared (g p.sh.settled) = shared (g q.sh.settled) := hg
    rwa [h, h] at hg'
  exact setShared_congr hrest (congrArg (fun y : Shared => { y with rtc := {} }) hsh)

theorem laterView_hides {g : Tile → Tile} (hg : ∀ x, (g x).settled = g x.settled) (h : ∀ u x, tile u (g x) = tile u x) (u : Nat) :
    (laterView shared tile).Forgets u g := (laterView_forgets (h u)).of_settled hg

theorem laterView_writes (hc : ∀ (x : Shared) c, shared { x with counts := c } = shared x) (h : ∀ u x, tile u x.noWrites = tile u x) :
    (laterView shared tile).Writes where
  tile u := laterView_forgets (h u)
  since _ _ _ := rfl
  uncounted := laterView_uncounted hc

theorem laterView_notes (h : ∀ u x, tile u x.noNotes = tile u x) (u : Nat) : (laterView shared tile).Notes u where
  tile := laterView_forgets (h u)
  since _ _ := rfl

theorem laterView_drives (h : ∀ u x, tile u x.noDrives = tile u x) (u : Nat) : (laterView shared tile).Drives u where
  tile := laterView_forgets (h u)
  since _ _ := rfl

end

/-- What the frame of the bus events compares. -/
def busesView : View := laterView (fun x => { x with bus0 := {}, bus1 := {}, t1s := {}, counts := {} }) (fun _ => Tile.noWrites)

/-- What the frame of the panel and key events compares. -/
def panelView : View := laterView (fun x => { x with panel := {}, keys := {}, counts := {} }) (fun _ => Tile.noWrites)

/-- What the frame of the service port's events compares. -/
def serviceView : View := laterView (fun x => { x with service := {} }) (fun _ => id)

/-- What the frame of the tether events compares. -/
def tetherView : View := laterView (fun x => { x with tether := {}, counts := {} }) (fun _ x => { x.noRemote with entropy := {} })

/-- What the frame of the planner's events compares. -/
def plannerView : View :=
  laterView (fun x => { x with planner := {}, counts := {} }) (fun _ x => { x.noRemote with pred := {}, gov := {}, counting := [] })

/-- What the frame of the permits' events compares. -/
def permitsView : View := laterView (fun x => { x with permits := {}, counts := {} }) (fun _ => Tile.noRemote)

theorem busesView_later : busesView.Later := laterView_later (fun _ => rfl) (fun _ _ => rfl)
theorem busesView_writes : busesView.Writes := laterView_writes (fun _ _ => rfl) (fun _ _ => rfl)
theorem busesView_unseen : busesView.Unseen Shared.noBuses := laterView_unseen (fun _ => rfl)

theorem panelView_later : panelView.Later := laterView_later (fun _ => rfl) (fun _ _ => rfl)
theorem panelView_writes : panelView.Writes := laterView_writes (fun _ _ => rfl) (fun _ _ => rfl)
theorem panelView_unseen : panelView.Unseen Shared.noPanel := laterView_unseen (fun _ => rfl)

theorem serviceView_later : serviceView.Later := laterView_later (fun _ => rfl) (fun _ _ => rfl)
theorem serviceView_unseen : serviceView.Unseen Shared.noService := laterView_unseen (fun _ => rfl)

theorem tetherView_later : tetherView.Later := laterView_later (fun _ => rfl) (fun _ _ => rfl)
theorem tetherView_writes : tetherView.Writes := laterView_writes (fun _ _ => rfl) (fun _ _ => rfl)
theorem tetherView_unseen : tetherView.Unseen Shared.noTether := laterView_unseen (fun _ => rfl)
theorem tetherView_entropy : ∀ u, tetherView.Forgets u Tile.noEntropy := laterView_hides (fun _ => rfl) (fun _ _ => rfl)
theorem tetherView_fabric : ∀ u, tetherView.Forgets u Tile.noFabric := laterView_hides (fun _ => rfl) (fun _ _ => rfl)

theorem plannerView_later : plannerView.Later := laterView_later (fun _ => rfl) (fun _ _ => rfl)
theorem plannerView_fabric : ∀ u, plannerView.Forgets u Tile.noFabric := laterView_hides (fun _ => rfl) (fun _ _ => rfl)
theorem plannerView_gov : ∀ u, plannerView.Forgets u Tile.noGov := laterView_hides (fun _ => rfl) (fun _ _ => rfl)

theorem plannerView_plans : plannerView.Plans where
  notes := laterView_notes (fun _ _ => rfl)
  uncounted := laterView_uncounted (fun _ _ => rfl)
  planner := laterView_unseen (fun _ => rfl)
  counters := plannerView_later.tile
  pred := laterView_hides (fun _ => rfl) (fun _ _ => rfl)

theorem permitsView_later : permitsView.Later := laterView_later (fun _ => rfl) (fun _ _ => rfl)
theorem permitsView_writes : permitsView.Writes := laterView_writes (fun _ _ => rfl) (fun _ _ => rfl)
theorem permitsView_unseen : permitsView.Unseen Shared.noPermits := laterView_unseen (fun _ => rfl)
theorem permitsView_fabric : ∀ u, permitsView.Forgets u Tile.noFabric := laterView_hides (fun _ => rfl) (fun _ _ => rfl)

open View in
/-- Settles O41: every operation of the event is one that a view without the units it acts on does not see. -/
theorem unitEventsKeepTheRest : Obligations.UnitEventsKeepTheRest := by
  unfold Obligations.UnitEventsKeepTheRest
  intro s t i hexec
  have bus {run} (h : busesView.Keeps run) (hrun : run s = .next t) := onlyPartsLater_of_keeps h hrun
  have panel {run} (h : panelView.Keeps run) (hrun : run s = .next t) := onlyPartsLater_of_keeps h hrun
  have service {run} (h : serviceView.Keeps run) (hrun : run s = .next t) := onlyPartsLater_of_keeps h hrun
  have tether {run} (h : tetherView.Keeps run) (hrun : run s = .next t) := onlyPartsLater_of_keeps h hrun
  have planner {run} (h : plannerView.Keeps run) (hrun : run s = .next t) := onlyPartsLater_of_keeps h hrun
  have permits {run} (h : permitsView.Keeps run) (hrun : run s = .next t) := onlyPartsLater_of_keeps h hrun
  cases i with
  | busStart port => exact bus (keeps_busStart busesView_writes busesView_unseen port) hexec
  | modbusRequest port frame => exact bus (keeps_modbusRequest busesView_writes busesView_unseen port frame) hexec
  | serverWaitExpiry port => exact bus (keeps_serverWaitExpiry busesView_writes busesView_unseen busesView_later port) hexec
  | pollItemDue port item => exact bus (keeps_pollItemDue busesView_writes busesView_unseen busesView_later port item) hexec
  | modbusSilence port => exact bus (keeps_modbusSilence busesView_writes busesView_unseen port) hexec
  | modbusResponse port frame => exact bus (keeps_modbusResponse busesView_writes busesView_unseen port frame) hexec
  | responseTimeout port => exact bus (keeps_responseTimeout busesView_writes busesView_unseen busesView_later port) hexec
  | mstpDataFrame port ftype dst src rest =>
    exact bus (keeps_mstpDataFrame busesView_writes busesView_unseen port ftype dst src rest) hexec
  | mstpToken port frame => exact bus (keeps_mstpToken busesView_writes busesView_unseen port frame) hexec
  | mstpControlFrame port ftype dst src rest =>
    exact bus (keeps_mstpControlFrame busesView_writes busesView_unseen port ftype dst src rest) hexec
  | replyPostponed port => exact bus (keeps_replyPostponed busesView_writes busesView_unseen busesView_later port) hexec
  | tokenRegeneration port => exact bus (keeps_tokenRegeneration busesView_writes busesView_unseen port) hexec
  | rxErr port => exact bus (keeps_rxErr busesView_writes busesView_unseen port) hexec
  | t1sFrame frame fcs => exact bus (keeps_t1sFrame busesView_writes busesView_unseen frame fcs) hexec
  | t1sCollision => exact bus (keeps_t1sCollision busesView_writes busesView_unseen) hexec
  | beaconTimeout => exact bus (keeps_beaconTimeout busesView_writes busesView_unseen) hexec
  | beacon => exact bus (keeps_beacon busesView_unseen) hexec
  | jabber => exact bus (keeps_jabber busesView_writes busesView_unseen) hexec
  | busFrameSent port => exact bus (keeps_busFrameSent busesView_writes busesView_unseen port) hexec
  | panelPhase => exact panel (keeps_panelPhase panelView_writes panelView_unseen panelView_later) hexec
  | crackCheck milliohms => exact panel (keeps_crackCheck panelView_writes panelView_unseen milliohms) hexec
  | panelRailsPresent => exact panel (keeps_panelRailsPresent panelView_unseen) hexec
  | panelRailsCollapse => exact panel (keeps_panelRailsCollapse panelView_writes panelView_unseen) hexec
  | dischargeSwitchRelease => exact panel (keeps_dischargeSwitchRelease panelView_unseen) hexec
  | keyScan pressed => exact panel (keeps_keyScan panelView_writes panelView_unseen panelView_later pressed) hexec
  | keyInterrupt => exact panel (keeps_keyInterrupt panelView_writes panelView_unseen) hexec
  | stuckKey k => exact panel (keeps_stuckKey panelView_writes panelView_unseen panelView_later k) hexec
  | encoderEdge enc inputB level => exact panel (keeps_encoderEdge panelView_unseen enc inputB level) hexec
  | encoderSettle enc inputB => exact panel (keeps_encoderSettle panelView_writes panelView_unseen panelView_later enc inputB) hexec
  | svcDetN level => exact service (keeps_svcDetN serviceView_unseen level) hexec
  | serviceBaudLock baud => exact service (keeps_serviceBaudLock serviceView_unseen baud) hexec
  | serviceUnlockTimeout => exact service (keeps_serviceUnlockTimeout serviceView_unseen serviceView_later) hexec
  | serviceGapTimeout => exact service (keeps_serviceGapTimeout serviceView_unseen) hexec
  | hello f => exact tether (keeps_hello tetherView_unseen tetherView_entropy f) hexec
  | idle f => exact tether (keeps_idle tetherView_unseen f) hexec
  | close f => exact tether (keeps_close tetherView_writes tetherView_unseen tetherView_fabric f) hexec
  | announce f => exact tether (keeps_announce tetherView_writes tetherView_unseen tetherView_fabric f) hexec
  | pair f => exact tether (keeps_pair tetherView_writes tetherView_unseen tetherView_entropy f) hexec
  | pairTimeout => exact tether (keeps_pairTimeout tetherView_writes tetherView_unseen tetherView_later) hexec
  | helloTimer => exact tether (keeps_helloTimer tetherView_unseen tetherView_entropy tetherView_later) hexec
  | idleTimer => exact tether (keeps_idleTimer tetherView_later) hexec
  | timeTimer => exact tether (keeps_timeTimer tetherView_unseen tetherView_later) hexec
  | tetherSuspect => exact tether (keeps_tetherSuspect tetherView_writes tetherView_unseen tetherView_later) hexec
  | tetherLost => exact tether (keeps_tetherLost tetherView_writes tetherView_unseen tetherView_fabric tetherView_later) hexec
  | resyncComplete => exact tether (keeps_resyncComplete tetherView_writes tetherView_unseen) hexec
  | planningBoundary =>
    exact planner (keeps_planningBoundary plannerView_plans plannerView_later plannerView_fabric plannerView_gov) hexec
  | bracketComplete => exact planner (keeps_bracketComplete plannerView_plans plannerView_gov) hexec
  | permitEvaluation => exact permits (keeps_permitEvaluation permitsView_unseen permitsView_later permitsView_writes) hexec
  | copyStaleTimeout hd => exact permits (keeps_copyStaleTimeout permitsView_later permitsView_fabric hd) hexec
  | permitPulse permit => exact permits (keeps_permitPulse permitsView_unseen permitsView_later permit) hexec
  | policySwitch =>
    exact onlyPartsLater_of_keeps (keeps_policySwitch (laterView_later (fun _ => rfl) (fun _ _ => rfl))
      (fun u => (laterView_notes (fun _ _ => rfl) u).quiet) (laterView_hides (fun _ => rfl) (fun _ _ => rfl))
      (laterView_unseen (fun _ => rfl))) hexec
  | thermalBudget meas =>
    exact onlyPartsLater_of_keeps (keeps_thermalBudget (laterView_drives (fun _ _ => rfl)) (laterView_later (fun _ => rfl) (fun _ _ => rfl))
      (laterView_unseen (fun _ => rfl)) meas) hexec
  | _ => trivial

end Sys2Proof.Machine
end

section
/-!
PROOFS. A step sends what waits on the lines before its row has its effect (R420), and the bytes count (R504): a sibling of the counter
that a COUNTER_CONFIG names does not stay as it was.
-/

namespace Sys2Proof.Machine

/-- A lead tile in service, whose counter 1 counts the bytes that the tether sends. -/
def countingTile : Tile :=
  { boot := { state := .online, incarnation := 1 }, supply := { holdCharged := true }
    counters := { ctrs := [(1, { mode := 2, src := 0x12, sel := 1, window := 1000000 })] } }

/-- A package in service, whose tether has a frame to send. -/
def waitingPackage : Pkg :=
  { inReset := false, everReleased := true, tiles := [(0, countingTile)]
    sh := { driven := true, tether := { queue := [plainFrame ftIdle []] } } }

/-- A machine of that package. -/
def frameWaits : State := { pkg := waitingPackage }

/-- A COUNTER_CONFIG that turns counter 0 off. -/
def configCounter0 : Instr := .counterConfig { src := .host 1, tile := 0, cls := 2 } 0 0 0 0 0

theorem configCounter0_performs : performs configCounter0 frameWaits.start 0 = true := by decide +kernel

/-- The waiting frame leaves first: its 18 bytes stand in counter 1. -/
theorem configCounter0_counts {t : State} (h : exec configCounter0 frameWaits = .next t) : ((t.pkg.tile 0).ctr 1).bytesOut = 18 := by
  have hrun : (match exec configCounter0 frameWaits with
    | .next t => ((t.pkg.tile 0).ctr 1).bytesOut
    | _ => 0) = 18 := by decide +kernel
  rw [h] at hrun
  exact hrun

/-- Refutes O39: a COUNTER_CONFIG of counter 0, where the step that runs it first sends a waiting frame on the tether's line, leaves
counter 1, which counts the bytes that the tether sends, with 18 bytes that it did not have. -/
theorem not_unitCommandsKeepTheRest : ¬ Obligations.UnitCommandsKeepTheRest := by
  unfold Obligations.UnitCommandsKeepTheRest
  intro h
  have hex : ∃ t, exec configCounter0 frameWaits = .next t := ⟨_, exec_of_effect configCounter0_performs rfl rfl⟩
  obtain ⟨t, ht⟩ := hex
  obtain ⟨_, hsibling⟩ := h frameWaits t 0 configCounter0 configCounter0_performs ht
  have hsame : ((t.pkg.tile 0).ctr 1).bytesOut = ((frameWaits.pkg.tile 0).ctr 1).bytesOut :=
    congrArg Ctr.bytesOut (hsibling 1 (by decide))
  have hbefore : ((frameWaits.pkg.tile 0).ctr 1).bytesOut = 0 := by decide
  rw [configCounter0_counts ht, hbefore] at hsame
  exact absurd hsame (by decide)

end Sys2Proof.Machine
end
